-- ==== Sys2Proof/Word.lean ====
section
/-! DEFINITION. The value types of the model: bytes, machine words and the two sparse containers (a byte memory and an
indexed table), both plain lists. -/

namespace Sys2Proof

/-- One byte. -/
abbrev Byte := BitVec 8

/-- A 64-bit scalar (R39). -/
abbrev Word := BitVec 64

/-- One 2,048-bit vector register: lane `i` is bits `[32*i+31 : 32*i]` (R39, R117). -/
abbrev VWord := BitVec 2048

/-- A sparse byte memory: addresses strictly rising, no entry that holds the value an unlisted byte reads as. -/
abbrev Mem := List Host.Cell

/-- A sparse table: keys strictly rising. -/
abbrev Tab (α : Type) := List (Nat × α)

end Sys2Proof
end

