-- ==== Sys2Proof/Syntax.lean ====
section
/-! DEFINITION. The commands: one constructor of `Instr` per row of spec/opcode_table.json, with the row's operands, and
the types of those operands. A core's slot operation carries the whole bundle it issues in (R42-R47); an admin command
carries its channel and packet bytes (R354); a work packet carries the queue it is read from (R388). -/

namespace Sys2Proof

/-- A core: its cluster's global index and its number there (R20). -/
structure CoreId where
  cl : Fin 192
  core : Fin 32
  deriving DecidableEq, Repr

/-- The S slot (R43). -/
structure SSlot where
  op : BitVec 8 := 0
  pred : BitVec 3 := 0
  pneg : Bool := false
  rd : BitVec 5 := 0
  ra : BitVec 5 := 0
  rb : BitVec 5 := 0
  imm : BitVec 21 := 0
  deriving DecidableEq, Repr

/-- The B slot (R44). -/
structure BSlot where
  op : BitVec 8 := 0
  pred : BitVec 3 := 0
  pneg : Bool := false
  rd : BitVec 5 := 0
  ra : BitVec 5 := 0
  imm : BitVec 26 := 0
  deriving DecidableEq, Repr

/-- The V slot (R45). -/
structure VSlot where
  op : BitVec 8 := 0
  pred : BitVec 3 := 0
  pneg : Bool := false
  vd : BitVec 6 := 0
  va : BitVec 6 := 0
  vb : BitVec 6 := 0
  vc : BitVec 6 := 0
  fmt : BitVec 4 := 0
  rnd : BitVec 2 := 0
  sreg : BitVec 5 := 0
  imm : BitVec 17 := 0
  deriving DecidableEq, Repr

/-- The M slot (R46). -/
structure MSlot where
  op : BitVec 6 := 0
  acc : BitVec 3 := 0
  sa : BitVec 5 := 0
  sb : BitVec 5 := 0
  afmt : BitVec 4 := 0
  bfmt : BitVec 4 := 0
  sparse : Bool := false
  zero : Bool := false
  scale : BitVec 2 := 0
  spmode : Bool := false
  deriving DecidableEq, Repr

/-- The X slot (R47). -/
structure XSlot where
  op : BitVec 6 := 0
  pred : BitVec 3 := 0
  pneg : Bool := false
  sa : BitVec 5 := 0
  sb : BitVec 5 := 0
  sl : BitVec 5 := 0
  cnt : BitVec 6 := 0
  dq : BitVec 4 := 0
  flags : BitVec 5 := 0
  imm : BitVec 16 := 0
  deriving DecidableEq, Repr

/-- A bundle: header and the five slots, which together are its 256 bits (R42). -/
structure Bundle where
  format : BitVec 4 := 1
  rsv : BitVec 4 := 0
  x : XSlot := {}
  m : MSlot := {}
  v : VSlot := {}
  b : BSlot := {}
  s : SSlot := {}
  deriving DecidableEq, Repr

/-- The six compares, opcodes 0x20-0x25 (R57). -/
inductive CmpOp where
  | eq | ne | lt | ltu | ge | geu
  deriving DecidableEq, Repr

/-- Access width of LD and ST: B, H, W, D (R59). -/
inductive MemWidth where
  | b | h | w | d
  deriving DecidableEq, Repr

/-- Access width of the sign-extending loads: BS, HS, WS (R59). -/
inductive SignedWidth where
  | b | h | w
  deriving DecidableEq, Repr

/-- How a read or a transaction that left the cluster ends: with its data, with data that on-die ECC corrected (R173), with data its source
marks poisoned (R173, R325), or with an error code of its path (R55, R474, R465). -/
inductive Arrival where
  | data
  | corrected
  | poisoned
  | error (code : BitVec 16)
  deriving DecidableEq, Repr

/-- What on-die ECC reports for one 256-byte read (R173). -/
inductive EccOutcome where
  | clean | corrected | uncorrectable
  deriving DecidableEq, Repr

/-- What the outcome of an access says of the on-die ECC of the HBM location it read: 0 sound, 1 corrected, 2 uncorrectable. -/
def Arrival.ecc : Arrival → Nat
  | .corrected => 1
  | .poisoned => 2
  | .data | .error _ => 0

/-- The same of a read's ECC outcome. -/
def EccOutcome.ecc : EccOutcome → Nat
  | .clean => 0
  | .corrected => 1
  | .uncorrectable => 2

/-- The stop whose tracker entry frees (R178). -/
inductive TrackerStop where
  | cluster (c : Fin 48) | sequencer | hubEdge
  deriving DecidableEq, Repr

/-- A work queue (R376). -/
structure QRef where
  part : Fin 64
  ctx : Fin 256
  queue : Fin 16
  deriving DecidableEq, Repr

/-- What a strip works on (R295): a pool entry, the blocks of a KV slot. -/
inductive StripUnit where
  | cluster (i : Fin 192)
  | channel (i : Fin 320)
  | link (i : Fin 24)
  | kvSlot (i : Fin 65536)
  deriving DecidableEq, Repr

/-- A fuse bank of the hub that R496 gives bits. -/
inductive FuseBank where
  | retirement | identityLeaf | antiRollback
  deriving DecidableEq, Repr

/-- A target of a management request (R291): hub SRAM, the external flash (R502) and the ring of the event log by address; a fuse bank; a
temperature point; what else of the hub the spec gives no layout; a channel at an offset; a table that commands govern; control registers; a
cluster's data; host memory. -/
inductive MgtTarget where
  | sram (addr : Nat)
  | flash (addr : Nat)
  | log (off : Nat)
  | fuses (bank : FuseBank)
  | sensor (n : Fin 1076)
  | hub
  | mgtChannel (i : Fin 320) (off : Nat)
  | table
  | control
  | clusterData (i : Fin 192)
  | channelData (i : Fin 320) (off : Nat)
  | hostMemory (port : Fin 4) (addr : Nat)
  deriving DecidableEq, Repr

/-- A management request reads a number of bytes or writes bytes (R291). -/
inductive MgtAccess where
  | read (n : Nat)
  | write (data : List Byte)
  deriving DecidableEq, Repr

/-- The access is a write. -/
def MgtAccess.isWrite : MgtAccess → Bool
  | .read _ => false
  | .write _ => true

/-- What a test-access instruction on the IEEE 1149.1 port reaches for (R293), and the pool entry it lies in, if any. -/
inductive JtagTarget where
  | boundaryScan | hubDebug
  | testAccess (entry : Option StripUnit)
  deriving DecidableEq, Repr

/-- A link module that can train or lose lock (R20, R22, R307): die-to-die, compute-to-hub, host. -/
inductive LinkModule where
  | d2d (lm : Fin 24)
  | hub (die : Fin 4) (u : Fin 2)
  | host (port : Fin 4) (u : Fin 2)
  deriving DecidableEq, Repr

/-- A VA access whose walk ends (R328, R338): a core's held read, a write in flight, a DMA entry's transaction, or an
access of the sequencer or a hub agent for a context. -/
inductive VaAccess where
  | coreRead (k : CoreId)
  | write (id : Nat)
  | dma (k : CoreId) (dq : Fin 16) (tx : Nat)
  | agent (p : Fin 64) (c : Fin 256) (vaddr : BitVec 57) (write : Bool)
  deriving DecidableEq, Repr

/-- A register space a write reaches (R285, R313-R316, R320, R497); `vfMsix` is BAR2 of a VF (R314), `hdmBase` the port's HDM decoder
base. -/
inductive RegSpace where
  | pf0 (port : Fin 4)
  | sriov (port : Fin 4)
  | vfBar0 (port : Fin 4) (vf : Fin 64)
  | doorbellPage (port : Fin 4) (vf : Fin 64) (ctx : Fin 256)
  | partitionPage (port : Fin 4) (vf : Fin 64)
  | claimBank (port : Fin 4) (vf : Fin 64) (fast : Bool)
  | vfMsix (port : Fin 4) (vf : Fin 64)
  | hdmBase (port : Fin 4)
  | protection
  | management
  deriving DecidableEq, Repr

/-- A tension regulator: class and instance (R444). -/
inductive Regulator where
  | host (i : Fin 8)
  | link (e : Fin 4)
  | kv
  | mstop (i : Fin 40)
  deriving DecidableEq, Repr

/-- What a regulator's clock saw of a label in a window: the mean time in ns from source issue to completion of its requests that completed
at the instance (R456). -/
structure LabelObs where
  part : Fin 64
  label : Fin 16
  meanTime : Nat
  deriving DecidableEq, Repr

/-- What a regulator's clock saw in one window: its labels, and for how many of its 10,000 ns the queue held a request (R458). -/
structure WindowObs where
  labels : List LabelObs
  busyNs : Nat
  deriving DecidableEq, Repr

/-- A request that enters a regulator's queue: its partition and label, none for management traffic (R446); the direction of its data; and
whether it is best-effort traffic of a VD's share (R247, R249). -/
structure QueuedReq where
  who : Option (Fin 64 × Fin 16)
  up : Bool := false
  spill : Bool := false
  deriving DecidableEq, Repr

/-- A regulator's request queue since it was last reported: how many of its requests it served, and its size (R453, R455). -/
structure QueueObs where
  served : Nat
  size : Nat
  deriving DecidableEq, Repr

/-- A recovery domain below the package (R463). -/
inductive Domain where
  | l1 (cl : Fin 192)
  | l2 (die : Fin 4)
  deriving DecidableEq, Repr

/-- A request whose fabric budget runs (R474): a core's read, a write, the read or the write of a DMA transaction, a transaction that a
sequencer or an agent of the hub has made for the packet in progress on a queue. -/
inductive TimedReq where
  | coreRead (k : CoreId)
  | write (id : Nat)
  | dma (k : CoreId) (dq : Fin 16) (tx : Nat)
  | dmaWrite (k : CoreId) (dq : Fin 16) (tx : Nat)
  | agent (q : QRef)
  deriving DecidableEq, Repr

/-- One rail's sensor reading (R530): millivolts, 0.1 A, 0.1 W, phases delivering, over-current. -/
structure RailReading where
  millivolts : Nat
  current : Nat
  power : Nat
  phasesOk : Nat
  overcurrent : Bool
  deriving DecidableEq, Repr

/-- What the board has programmed into the flash through its own controller before a start (R557): a firmware image in slot A, and the
copies of the boot record in the boot area. -/
structure BoardFlash where
  slotA : List Byte
  recordA : List Byte
  recordB : List Byte
  deriving DecidableEq, Repr

/-- What a package start finds outside the device: the boot straps and the first bytes of the boot area (R557, R559). -/
structure StartInfo where
  bootSrc : BitVec 2
  bootArea : List Byte
  board : Option BoardFlash := none
  deriving DecidableEq, Repr


/-- The commands and events of the device, one constructor per row of the table. -/
inductive Instr where
  -- S slot (R57, R58)
  /-- `ADD` (R57). -/
  | add (k : CoreId) (b : Bundle)
  /-- `ADDI` (R57). -/
  | addi (k : CoreId) (b : Bundle)
  /-- `SUB` (R57). -/
  | sub (k : CoreId) (b : Bundle)
  /-- `AND` (R57). -/
  | andOp (k : CoreId) (b : Bundle)
  /-- `OR` (R57). -/
  | orOp (k : CoreId) (b : Bundle)
  /-- `XOR` (R57). -/
  | xorOp (k : CoreId) (b : Bundle)
  /-- `LIS` (R57). -/
  | lis (k : CoreId) (b : Bundle)
  /-- `SHL` (R57). -/
  | shl (k : CoreId) (b : Bundle)
  /-- `SHR` (R57). -/
  | shr (k : CoreId) (b : Bundle)
  /-- `SRA` (R57). -/
  | sra (k : CoreId) (b : Bundle)
  /-- `SHLI` (R57). -/
  | shli (k : CoreId) (b : Bundle)
  /-- `SHRI` (R57). -/
  | shri (k : CoreId) (b : Bundle)
  /-- `SRAI` (R57). -/
  | srai (k : CoreId) (b : Bundle)
  /-- `MUL` (R57). -/
  | mul (k : CoreId) (b : Bundle)
  /-- `MULH` (R57). -/
  | mulh (k : CoreId) (b : Bundle)
  /-- `DIV` (R57). -/
  | div (k : CoreId) (b : Bundle)
  /-- `DIVU` (R57). -/
  | divu (k : CoreId) (b : Bundle)
  /-- `REM` (R57). -/
  | rem (k : CoreId) (b : Bundle)
  /-- `REMU` (R57). -/
  | remu (k : CoreId) (b : Bundle)
  /-- `MIN` (R57). -/
  | minOp (k : CoreId) (b : Bundle)
  /-- `MAX` (R57). -/
  | maxOp (k : CoreId) (b : Bundle)
  /-- `MINU` (R57). -/
  | minu (k : CoreId) (b : Bundle)
  /-- `MAXU` (R57). -/
  | maxu (k : CoreId) (b : Bundle)
  /-- `CMP` (R57). -/
  | cmp (k : CoreId) (c : CmpOp) (b : Bundle)
  /-- `LI` (R57). -/
  | li (k : CoreId) (b : Bundle)
  /-- `MOVS` (R58). -/
  | movs (k : CoreId) (b : Bundle)
  /-- `WRS` (R58). -/
  | wrs (k : CoreId) (b : Bundle)
  /-- `PMOV` (R57). -/
  | pmov (k : CoreId) (b : Bundle)
  /-- `SETP` (R57). -/
  | setp (k : CoreId) (b : Bundle)
  -- B slot (R59, R60)
  /-- `BR` (R59). -/
  | br (k : CoreId) (b : Bundle)
  /-- `BRZ` (R59). -/
  | brz (k : CoreId) (b : Bundle)
  /-- `BRNZ` (R59). -/
  | brnz (k : CoreId) (b : Bundle)
  /-- `CALL` (R59). -/
  | call (k : CoreId) (b : Bundle)
  /-- `JR` (R59). -/
  | jr (k : CoreId) (b : Bundle)
  /-- `LD` (R60). -/
  | ld (k : CoreId) (mw : MemWidth) (b : Bundle)
  /-- `LD_SIGNED` (R60). -/
  | ldSigned (k : CoreId) (sw : SignedWidth) (b : Bundle)
  /-- `ST` (R60). -/
  | st (k : CoreId) (mw : MemWidth) (b : Bundle)
  /-- `LD_V` (R151). -/
  | ldV (k : CoreId) (b : Bundle)
  /-- `HALT` (R59). -/
  | halt (k : CoreId) (b : Bundle)
  -- V slot (R61, R63, R75, R115-R125)
  /-- `VADD` (R115). -/
  | vadd (k : CoreId) (b : Bundle)
  /-- `VSUB` (R115). -/
  | vsub (k : CoreId) (b : Bundle)
  /-- `VMUL` (R115). -/
  | vmul (k : CoreId) (b : Bundle)
  /-- `VFMA` (R115). -/
  | vfma (k : CoreId) (b : Bundle)
  /-- `VMAX` (R116). -/
  | vmax (k : CoreId) (b : Bundle)
  /-- `VMIN` (R116). -/
  | vmin (k : CoreId) (b : Bundle)
  /-- `VABS` (R116). -/
  | vabs (k : CoreId) (b : Bundle)
  /-- `VNEG` (R116). -/
  | vneg (k : CoreId) (b : Bundle)
  /-- `VCMP` (R116). -/
  | vcmp (k : CoreId) (b : Bundle)
  /-- `VSEL` (R61). -/
  | vsel (k : CoreId) (b : Bundle)
  /-- `VLOGIC` (R61). -/
  | vlogic (k : CoreId) (b : Bundle)
  /-- `VIADD` (R61). -/
  | viadd (k : CoreId) (b : Bundle)
  /-- `VISHIFT` (R61). -/
  | vishift (k : CoreId) (b : Bundle)
  /-- `VCVT` (R118). -/
  | vcvt (k : CoreId) (b : Bundle)
  /-- `VEXP2` (R63). -/
  | vexp2 (k : CoreId) (b : Bundle)
  /-- `VLOG2` (R63). -/
  | vlog2 (k : CoreId) (b : Bundle)
  /-- `VRCP` (R63). -/
  | vrcp (k : CoreId) (b : Bundle)
  /-- `VRSQ` (R63). -/
  | vrsq (k : CoreId) (b : Bundle)
  /-- `VTANH` (R63). -/
  | vtanh (k : CoreId) (b : Bundle)
  /-- `VERF` (R63). -/
  | verf (k : CoreId) (b : Bundle)
  /-- `VSCAN` (R61). -/
  | vscan (k : CoreId) (b : Bundle)
  /-- `VRED` (R61). -/
  | vred (k : CoreId) (b : Bundle)
  /-- `VBCAST` (R61). -/
  | vbcast (k : CoreId) (b : Bundle)
  /-- `VEXTR` (R61). -/
  | vextr (k : CoreId) (b : Bundle)
  /-- `VLD` (R61). -/
  | vld (k : CoreId) (b : Bundle)
  /-- `VST` (R123). -/
  | vst (k : CoreId) (b : Bundle)
  /-- `VPERM` (R61). -/
  | vperm (k : CoreId) (b : Bundle)
  /-- `VMOVA` (R61). -/
  | vmova (k : CoreId) (b : Bundle)
  /-- `VMOVTA` (R61). -/
  | vmovta (k : CoreId) (b : Bundle)
  /-- `VRAND` (R75). -/
  | vrand (k : CoreId) (b : Bundle)
  -- M slot and the matrix unit (R65-R68)
  /-- `MMA` (R65). -/
  | mma (k : CoreId) (b : Bundle)
  /-- `MMA_PENDING_START` (R65). -/
  | mmaPendingStart (k : CoreId)
  /-- `MMA_RESULT` (R67). -/
  | mmaResult (k : CoreId)
  -- X slot (R69-R74, R152-R164, R567)
  /-- `DMA` (R70). -/
  | dma (k : CoreId) (b : Bundle)
  /-- `DMA_IX` (R73). -/
  | dmaIx (k : CoreId) (b : Bundle)
  /-- `WAIT_DMA` (R54). -/
  | waitDma (k : CoreId) (b : Bundle)
  /-- `CNT_SET` (R163). -/
  | cntSet (k : CoreId) (b : Bundle)
  /-- `CNT_READ` (R158). -/
  | cntRead (k : CoreId) (b : Bundle)
  /-- `WAIT_CNT` (R161). -/
  | waitCnt (k : CoreId) (b : Bundle)
  /-- `MSG` (R567). -/
  | msg (k : CoreId) (b : Bundle)
  /-- `FENCE_ACQ` (R154). -/
  | fenceAcq (k : CoreId) (b : Bundle)
  /-- `FENCE_REL` (R152). -/
  | fenceRel (k : CoreId) (b : Bundle)
  /-- `FENCE_GLOBAL` (R156). -/
  | fenceGlobal (k : CoreId) (b : Bundle)
  -- core and fabric events
  /-- `INTERLOCK_RELEASE` (R54). -/
  | interlockRelease (k : CoreId)
  /-- `OUTSIDE_READ_ARRIVES` (R55). -/
  | outsideReadArrives (k : CoreId) (o : Arrival)
  /-- `RESULT_VISIBLE` (R51). -/
  | resultVisible (k : CoreId)
  /-- `STORE_LANDS` (R53). -/
  | storeLands (k : CoreId)
  /-- `CORE_STOP` (R59). -/
  | coreStop (k : CoreId)
  /-- `DMA_ENTRY_START` (R74). -/
  | dmaEntryStart (k : CoreId) (dq : Fin 16)
  /-- `DMA_TRANSACTION_COMPLETE` (R71). -/
  | dmaTransactionComplete (k : CoreId) (dq : Fin 16) (tx : Nat) (o : Arrival)
  /-- `REMOTE_WRITE_LANDS` (R129). -/
  | remoteWriteLands (id : Nat)
  /-- `WRITE_PERFORMED` (R148). -/
  | writePerformed (id : Nat)
  /-- `COUNTED_ARRIVAL` (R159). -/
  | countedArrival (n : Nat)
  /-- `FENCE_HELD_WRITES_RELEASE` (R152). -/
  | fenceHeldWritesRelease (k : CoreId)
  /-- `FREEZE_COMPLETE` (R78). -/
  | freezeComplete (k : CoreId)
  -- HBM channels and unravel (R169-R199)
  /-- `CHANNEL_READ` (R173). -/
  | channelRead (ch : Fin 320) (loc : Nat) (e : EccOutcome)
  /-- `CHANNEL_WRITE` (R174). -/
  | channelWrite (ch : Fin 320) (loc : Nat) (data : List Byte) (poison : Bool)
  /-- `REFRESH` (R171). -/
  | refresh (ch : Fin 320) (bank : Nat)
  /-- `RFM` (R169). -/
  | rfm (ch : Fin 320) (bank : Nat)
  /-- `FRAME_DECODE` (R189). -/
  | frameDecode (k : CoreId) (dq : Fin 16) (frame : Nat) (e : EccOutcome)
  /-- `TABLE_RECORD_FETCH` (R192). -/
  | tableRecordFetch (ch : Fin 320) (p : Fin 64) (pla : Nat)
  /-- `DATA_PARITY_ERROR` (R198). -/
  | dataParityError (ch : Fin 320) (lane : Fin 64)
  /-- `LANE_FAULT` (R199). -/
  | laneFault (ch : Fin 320)
  /-- `TRACKER_ENTRY_FREED` (R179). -/
  | trackerEntryFreed (d : Fin 4) (stop : TrackerStop)
  -- the token loop (R200-R227)
  /-- `GENERATE_STEP_START` (R209). -/
  | generateStepStart (p : Fin 64) (c : Fin 256)
  /-- `STEP_PROGRAM_HALTED` (R209). -/
  | stepProgramHalted (p : Fin 64) (c : Fin 256)
  /-- `RING_TAIL_REREAD` (R224). -/
  | ringTailReread (p : Fin 64) (c : Fin 256)
  /-- `KEEP_ALIVE_REREAD` (R222). -/
  | keepAliveReread (p : Fin 64) (c : Fin 256)
  -- composition (R228-R267)
  /-- `VD_DEFINE` (R242). -/
  | vdDefine (ch : Fin 5) (pkt : List Byte)
  /-- `VD_CAST_ON` (R240). -/
  | vdCastOn (ch : Fin 5) (pkt : List Byte)
  /-- `VD_BIND_OFF` (R241). -/
  | vdBindOff (ch : Fin 5) (pkt : List Byte)
  /-- `VD_COMMIT` (R253). -/
  | vdCommit (ch : Fin 5) (pkt : List Byte)
  /-- `VD_COMMIT_DISCARD` (R251). -/
  | vdCommitDiscard (ch : Fin 5) (pkt : List Byte)
  /-- `VD_QUERY` (R243). -/
  | vdQuery (ch : Fin 5) (pkt : List Byte)
  /-- `VD_DISSOLVE` (R242). -/
  | vdDissolve (ch : Fin 5) (pkt : List Byte)
  /-- `WHOLE_DEVICE_TAKE` (R265). -/
  | wholeDeviceTake (ch : Fin 5) (pkt : List Byte)
  /-- `WHOLE_DEVICE_RELEASE` (R267). -/
  | wholeDeviceRelease (ch : Fin 5) (pkt : List Byte)
  /-- `COMMIT_PUBLISH` (R253). -/
  | commitPublish (p : Fin 64)
  /-- `GRACE_WINDOW_CLOSE` (R253). -/
  | graceWindowClose (p : Fin 64)
  /-- `REVISION_EXPIRED_NOTICE` (R257). -/
  | revisionExpiredNotice (p : Fin 64)
  /-- `TARGET_REQUEST` (R255). -/
  | targetRequest (id : Nat)
  /-- `MOVED_REISSUE` (R256). -/
  | movedReissue (id : Nat)
  -- the KV service (R268-R275)
  /-- `KV_ALLOC` (R270). -/
  | kvAlloc (ch : Fin 5) (pkt : List Byte)
  /-- `KV_FREE` (R275). -/
  | kvFree (ch : Fin 5) (pkt : List Byte)
  /-- `KV_GRANT` (R271). -/
  | kvGrant (ch : Fin 5) (pkt : List Byte)
  /-- `KV_QUERY` (R270). -/
  | kvQuery (ch : Fin 5) (pkt : List Byte)
  /-- `KV_PUT` (R272). -/
  | kvPut (q : QRef)
  /-- `KV_GET` (R273). -/
  | kvGet (q : QRef)
  /-- `KV_PUT_COMPLETE` (R273). -/
  | kvPutComplete (q : QRef)
  /-- `KV_GET_COMPLETE` (R272). -/
  | kvGetComplete (q : QRef)
  /-- `KV_SERVICE_FAILURE` (R274). -/
  | kvServiceFailure
  /-- `KV_SERVICE_RESET_DONE` (R274). -/
  | kvServiceResetDone
  -- partitions, protection set-up, strip engine (R277-R299)
  /-- `PART_CREATE` (R283). -/
  | partCreate (ch : Fin 5) (pkt : List Byte)
  /-- `PART_ENABLE` (R278). -/
  | partEnable (ch : Fin 5) (pkt : List Byte)
  /-- `PART_ENABLE_UPDATE` (R282). -/
  | partEnableUpdate (ch : Fin 5) (pkt : List Byte)
  /-- `PART_DISABLE` (R284). -/
  | partDisable (ch : Fin 5) (pkt : List Byte)
  /-- `PART_DESTROY` (R299). -/
  | partDestroy (ch : Fin 5) (pkt : List Byte)
  /-- `PART_RESET` (R299). -/
  | partReset (ch : Fin 5) (pkt : List Byte)
  /-- `PART_QUERY` (R282). -/
  | partQuery (ch : Fin 5) (pkt : List Byte)
  /-- `PART_FREEZE` (R437). -/
  | partFreeze (ch : Fin 5) (pkt : List Byte)
  /-- `PART_THAW` (R438). -/
  | partThaw (ch : Fin 5) (pkt : List Byte)
  /-- `PART_SAVE` (R440). -/
  | partSave (ch : Fin 5) (pkt : List Byte)
  /-- `PART_SAVE_SIZE_ONLY` (R440). -/
  | partSaveSizeOnly (ch : Fin 5) (pkt : List Byte)
  /-- `PART_RESTORE_PREPARE` (R439). -/
  | partRestorePrepare (ch : Fin 5) (pkt : List Byte)
  /-- `PART_RESTORE_LOAD` (R442). -/
  | partRestoreLoad (ch : Fin 5) (pkt : List Byte)
  /-- `TEARDOWN_COMPLETE` (R299). -/
  | teardownComplete (p : Fin 64)
  /-- `PRS_LOCK` (R287). -/
  | prsLock (v : BitVec 32)
  /-- `STRIP_COMPLETE` (R295). -/
  | stripComplete (u : StripUnit)
  /-- `STRIP_FAILED` (R298). -/
  | stripFailed (u : StripUnit)
  /-- `MGT_REQUEST` (R291). -/
  | mgtRequest (t : MgtTarget) (a : MgtAccess)
  /-- `JTAG_ACCESS` (R293). -/
  | jtagAccess (t : JtagTarget)
  /-- `COPY` (R395). -/
  | copy (q : QRef)
  /-- `COPY_SEAL` (R303). -/
  | copySeal (q : QRef)
  /-- `COPY_UNSEAL` (R305). -/
  | copyUnseal (q : QRef)
  /-- `COPY_COMPLETE` (R391). -/
  | copyComplete (q : QRef)
  -- host ports and translation (R307-R342)
  /-- `HDM_WITHDRAW_COMPLETE` (R324). -/
  | hdmWithdrawComplete (ch : Fin 320)
  /-- `LINK_TRAINING` (R309). -/
  | linkTraining (m : LinkModule) (ok : Bool)
  /-- `D2D_REPLAY_TIMEOUT` (R477). -/
  | d2dReplayTimeout (lm : Fin 24)
  /-- `HOST_REPLAY_TIMEOUT` (R478). -/
  | hostReplayTimeout (port : Fin 4) (u : Fin 2)
  /-- `IDE_INTEGRITY_FAILURE` (R311). -/
  | ideIntegrityFailure (port : Fin 4)
  /-- `HOST_PORT_RETRAINED` (R478). -/
  | hostPortRetrained (port : Fin 4) (modules : Fin 4)
  /-- `CXL_MEM_READ` (R320). -/
  | cxlMemRead (port : Fin 4) (addr : Nat)
  /-- `CXL_MEM_WRITE` (R323). -/
  | cxlMemWrite (port : Fin 4) (addr : Nat) (data : List Byte) (poison : Bool)
  /-- `BISNP_RESPONSE` (R322). -/
  | bisnpResponse (ch : Fin 320) (line : Nat) (dirty : Option (List Byte))
  /-- `BISNP_TIMEOUT` (R474). -/
  | bisnpTimeout (ch : Fin 320) (line : Nat)
  /-- `HOST_SNOOP` (R325). -/
  | hostSnoop (port : Fin 4) (line : Nat)
  /-- `WALK_COMPLETE` (R328). -/
  | walkComplete (a : VaAccess)
  /-- `WALKER_FREED` (R332). -/
  | walkerFreed (pool : Fin 5) (w : Nat)
  /-- `FAULT_BATCH_TIMEOUT` (R340). -/
  | faultBatchTimeout (p : Fin 64) (c : Fin 256)
  /-- `DBL_FAULT_RETRY` (R342). -/
  | dblFaultRetry (port : Fin 4) (p : Fin 64) (v : BitVec 64)
  /-- `DBL_FAULT_FAIL` (R342). -/
  | dblFaultFail (port : Fin 4) (p : Fin 64) (v : BitVec 64)
  /-- `INVAL_TRANSLATION` (R336). -/
  | invalTranslation (q : QRef)
  /-- `INVAL_TRANSLATION_COMPLETE` (R336). -/
  | invalTranslationComplete (q : QRef)
  /-- `DBL_RING` (R387). -/
  | dblRing (port : Fin 4) (p : Fin 64) (page : Option (Fin 256)) (v : BitVec 64)
  /-- `DBL_ABORT` (R414). -/
  | dblAbort (port : Fin 4) (p : Fin 64) (c : Fin 256) (v : BitVec 64)
  /-- `ADM_PEQ_ENABLE` (R319). -/
  | admPeqEnable (port : Fin 4) (v : BitVec 64)
  /-- `ADM_PEQ_DISABLE` (R319). -/
  | admPeqDisable (port : Fin 4) (v : BitVec 64)
  /-- `ADM_PEQ_CONSUMER` (R319). -/
  | admPeqConsumer (port : Fin 4) (v : BitVec 64)
  /-- `PF0_FLR` (R352). -/
  | pf0Flr (port : Fin 4)
  /-- `VF_FLR` (R435). -/
  | vfFlr (port : Fin 4) (p : Fin 64)
  /-- `REGISTER_WRITE` (R8). -/
  | registerWrite (r : RegSpace) (off : Nat) (data : List Byte)
  -- admin queries and power (R32, R369-R372, R538-R545)
  /-- `IDENTIFY` (R369). -/
  | identify (ch : Fin 5) (pkt : List Byte)
  /-- `INVENTORY` (R32). -/
  | inventory (ch : Fin 5) (pkt : List Byte)
  /-- `STATUS` (R370). -/
  | status (ch : Fin 5) (pkt : List Byte)
  /-- `SENSORS_READ` (R371). -/
  | sensorsRead (ch : Fin 5) (pkt : List Byte)
  /-- `LOG_READ` (R372). -/
  | logRead (ch : Fin 5) (pkt : List Byte)
  /-- `POWER_CAP_SET` (R538). -/
  | powerCapSet (ch : Fin 5) (pkt : List Byte)
  /-- `POWER_CAP_GET` (R540). -/
  | powerCapGet (ch : Fin 5) (pkt : List Byte)
  /-- `ENERGY_READ` (R545). -/
  | energyRead (ch : Fin 5) (pkt : List Byte)
  -- tension commands (R447-R451)
  /-- `TENSION_SET_ALLOWANCES` (R449). -/
  | tensionSetAllowances (ch : Fin 5) (pkt : List Byte)
  /-- `TENSION_SET_LABELS` (R449). -/
  | tensionSetLabels (ch : Fin 5) (pkt : List Byte)
  /-- `TENSION_QUERY` (R451). -/
  | tensionQuery (ch : Fin 5) (pkt : List Byte)
  -- attestation, sessions, firmware (R495-R520)
  /-- `ATTEST_REPORT_GENERATE` (R516). -/
  | attestReportGenerate (ch : Fin 5) (pkt : List Byte)
  /-- `ATTEST_REPORT_READ` (R516). -/
  | attestReportRead (ch : Fin 5) (pkt : List Byte)
  /-- `SESSION_OPEN` (R519). -/
  | sessionOpen (ch : Fin 5) (pkt : List Byte)
  /-- `SESSION_CLOSE` (R520). -/
  | sessionClose (ch : Fin 5) (pkt : List Byte)
  /-- `FW_STAGE_BEGIN` (R505). -/
  | fwStageBegin (ch : Fin 5) (pkt : List Byte) (ok : Bool)
  /-- `FW_STAGE_WRITE` (R505). -/
  | fwStageWrite (ch : Fin 5) (pkt : List Byte) (ok : Bool)
  /-- `FW_STAGE_END` (R505). -/
  | fwStageEnd (ch : Fin 5) (pkt : List Byte)
  /-- `FW_STAGE_ABORT` (R505). -/
  | fwStageAbort (ch : Fin 5) (pkt : List Byte)
  /-- `FW_STAGE_SESSION_TIMEOUT` (R505). -/
  | fwStageSessionTimeout
  /-- `ACTIVATE_MGT` (R507). -/
  | activateMgt (ch : Fin 5) (pkt : List Byte)
  /-- `ACTIVATE_DIE` (R508). -/
  | activateDie (ch : Fin 5) (pkt : List Byte)
  /-- `COMMIT_SVN` (R509). -/
  | commitSvn (ch : Fin 5) (pkt : List Byte)
  /-- `HANDOVER_TIMEOUT` (R507). -/
  | handoverTimeout
  /-- `FW_QUERY` (R511). -/
  | fwQuery (ch : Fin 5) (pkt : List Byte)
  -- recovery commands (R485-R493)
  /-- `DOMAIN_RECOVER_QUERY` (R486). -/
  | domainRecoverQuery (ch : Fin 5) (pkt : List Byte)
  /-- `DOMAIN_RECOVER_L1` (R471). -/
  | domainRecoverL1 (ch : Fin 5) (pkt : List Byte)
  /-- `DOMAIN_RECOVER_L2` (R471). -/
  | domainRecoverL2 (ch : Fin 5) (pkt : List Byte)
  /-- `DOMAIN_RECOVER_L3` (R486). -/
  | domainRecoverL3 (ch : Fin 5) (pkt : List Byte)
  /-- `DUMP_COLLECT` (R489). -/
  | dumpCollect (ch : Fin 5) (pkt : List Byte)
  /-- `DUMP_READ` (R492). -/
  | dumpRead (ch : Fin 5) (pkt : List Byte)
  /-- `RETIRE_UNIT` (R493). -/
  | retireUnit (ch : Fin 5) (pkt : List Byte)
  -- MCTP and I3C (R364, R365, R563)
  /-- `SET_ENDPOINT_ID` (R364). -/
  | setEndpointId (eid : Byte)
  /-- `GET_ENDPOINT_ID` (R364). -/
  | getEndpointId
  /-- `GET_MCTP_VERSION_SUPPORT` (R364). -/
  | getMctpVersionSupport (msgType : Byte)
  /-- `GET_MESSAGE_TYPE_SUPPORT` (R364). -/
  | getMessageTypeSupport
  /-- `GET_VENDOR_DEFINED_MESSAGE_SUPPORT` (R364). -/
  | getVendorDefinedMessageSupport (selector : Byte)
  /-- `ENTDAA` (R563). -/
  | entdaa (addr : BitVec 7)
  -- work packets and objects (R376-R415)
  /-- `LAUNCH` (R394). -/
  | launch (q : QRef)
  /-- `LAUNCH_COMPLETE` (R391). -/
  | launchComplete (q : QRef)
  /-- `GENERATE` (R201). -/
  | generate (q : QRef)
  /-- `FILL` (R395). -/
  | fill (q : QRef)
  /-- `SIGNAL` (R399). -/
  | signal (q : QRef)
  /-- `WAIT` (R401). -/
  | wait (q : QRef)
  /-- `WAIT_SATISFIED` (R401). -/
  | waitSatisfied (q : QRef)
  /-- `BARRIER` (R391). -/
  | barrier (q : QRef)
  /-- `BARRIER_COMPLETE` (R391). -/
  | barrierComplete (q : QRef)
  /-- `REF_ADD` (R412). -/
  | refAdd (q : QRef)
  /-- `REF_DROP` (R412). -/
  | refDrop (q : QRef)
  /-- `NOP` (R389). -/
  | nop (q : QRef)
  /-- `DIR_SET` (R389). -/
  | dirSet (p : Fin 64)
  /-- `CTX_CREATE` (R383). -/
  | ctxCreate (p : Fin 64)
  /-- `CTX_DESTROY` (R414). -/
  | ctxDestroy (p : Fin 64)
  /-- `CONTEXT_TEARDOWN_STEP` (R414). -/
  | contextTeardownStep (p : Fin 64) (c : Fin 256)
  /-- `QUEUE_SET` (R386). -/
  | queueSet (p : Fin 64)
  /-- `QUEUE_CTL_RESUME` (R393). -/
  | queueCtlResume (p : Fin 64)
  /-- `QUEUE_CTL_FLUSH` (R393). -/
  | queueCtlFlush (p : Fin 64)
  /-- `QUEUE_CTL_FLUSH_RESUME` (R393). -/
  | queueCtlFlushResume (p : Fin 64)
  /-- `QUEUE_CTL_DISABLE` (R393). -/
  | queueCtlDisable (p : Fin 64)
  /-- `EVQ_SET` (R386). -/
  | evqSet (p : Fin 64)
  /-- `EVQ_SET_DISABLE` (R386). -/
  | evqSetDisable (p : Fin 64)
  /-- `FENCE_CREATE` (R389). -/
  | fenceCreate (p : Fin 64)
  /-- `FENCE_DESTROY` (R403). -/
  | fenceDestroy (p : Fin 64)
  /-- `MEMOBJ_CREATE` (R412). -/
  | memobjCreate (p : Fin 64)
  /-- `MEMOBJ_FREE` (R413). -/
  | memobjFree (p : Fin 64)
  /-- `MEMOBJ_ZEROING_COMPLETE` (R413). -/
  | memobjZeroingComplete (p : Fin 64) (idx : Nat)
  /-- `EVQ_CLAIM` (R410). -/
  | evqClaim (port : Fin 4) (p : Fin 64) (fast : Bool) (q : Fin 64)
  /-- `EVQ_COMPLETE` (R410). -/
  | evqComplete (port : Fin 4) (p : Fin 64) (fast : Bool) (q : Fin 64) (v : BitVec 64)
  -- scheduling (R417-R434)
  /-- `CONTEXT_RESIDENT` (R418). -/
  | contextResident (p : Fin 64) (c : Fin 256)
  /-- `SLICE_END` (R420). -/
  | sliceEnd (p : Fin 64) (c : Fin 256)
  /-- `CONTEXT_SWITCH` (R424). -/
  | contextSwitch (p : Fin 64) (c : Fin 256)
  /-- `SWITCH_RESTORE` (R424). -/
  | switchRestore (p : Fin 64) (c : Fin 256)
  /-- `FABRIC_COMPLETION` (R475). -/
  | fabricCompletion (d : Fin 5) (entry : Nat) (tag : Byte) (part : Fin 64) (gen : BitVec 16)
  -- tension regulators (R452-R459)
  /-- `TENSION_WINDOW_END` (R452). -/
  | tensionWindowEnd (r : Regulator) (obs : WindowObs)
  /-- `TENSION_STATE_UPDATE` (R453). -/
  | tensionStateUpdate (r : Regulator) (arrived : List QueuedReq) (q : QueueObs)
  /-- `REQUEST_AGE_PROMOTION` (R455). -/
  | requestAgePromotion (r : Regulator) (slot : Nat)
  -- faults and recovery (R463-R484)
  /-- `CLUSTER_CONTROL_ERROR` (R464). -/
  | clusterControlError (cl : Fin 192)
  /-- `DIE_CONTROL_ERROR` (R464). -/
  | dieControlError (d : Fin 4)
  /-- `HUB_CONTROL_ERROR` (R464). -/
  | hubControlError
  /-- `TAPE_OFF_DRAIN_END` (R465). -/
  | tapeOffDrainEnd (d : Domain)
  /-- `DUMP_ACCESS_TIMEOUT` (R488). -/
  | dumpAccessTimeout (d : Domain) (unit : Nat)
  /-- `DUMP_COMPLETE` (R488). -/
  | dumpComplete (d : Domain)
  /-- `DOMAIN_RESET_COMPLETE` (R471). -/
  | domainResetComplete (d : Domain) (ok : Bool)
  /-- `DOMAIN_RESTORED` (R471). -/
  | domainRestored (d : Domain)
  /-- `FABRIC_TRANSACTION_TIMEOUT` (R474). -/
  | fabricTransactionTimeout (t : TimedReq)
  /-- `PROGRESS_SAMPLE` (R479). -/
  | progressSample (d : Fin 4)
  /-- `WATCHDOG_EXPIRED` (R479). -/
  | watchdogExpired (p : Fin 64) (c : Fin 256)
  /-- `CORE_HUNG` (R480). -/
  | coreHung (cl : Fin 192)
  /-- `SEQUENCER_WATCH_MISS` (R480). -/
  | sequencerWatchMiss (d : Fin 4)
  /-- `MGT_WATCHDOG_SERVICE` (R482). -/
  | mgtWatchdogService
  /-- `MGT_WATCHDOG_WARNING` (R498). -/
  | mgtWatchdogWarning
  /-- `MGT_WATCHDOG_EXPIRY` (R482). -/
  | mgtWatchdogExpiry
  /-- `START_FAILURE` (R483). -/
  | startFailure
  -- management interrupts, sensors, log, fuses (R496-R501)
  /-- `MGT_IRQ_SOURCE_RAISE` (R498). -/
  | mgtIrqSourceRaise (src : Fin 64)
  /-- `MGT_IRQ_CLAIM` (R498). -/
  | mgtIrqClaim (core : Fin 4) (fast : Bool)
  /-- `MGT_IRQ_COMPLETE` (R498). -/
  | mgtIrqComplete (core : Fin 4) (fast : Bool) (v : BitVec 64)
  /-- `SENSOR_ROUND` (R499): the points whose reading changed in the round, in 1/64 degree, or that gave none. -/
  | sensorRound (readings : List (Nat × Option Int))
  /-- `THERMAL_STEP_DOWN` (R534). -/
  | thermalStepDown
  /-- `THERMAL_STEP_BACK` (R535). -/
  | thermalStepBack
  /-- `LOG_SECOND_END` (R501). -/
  | logSecondEnd
  /-- `LOG_FLASH_COPY` (R501). -/
  | logFlashCopy
  /-- `FUSE_OPERATION_DONE` (R496). -/
  | fuseOperationDone (ok : Bool)
  -- power and clocks (R522-R545)
  /-- `POWER_LOOP_STEP` (R541): the estimator's prediction in 0.1 W. -/
  | powerLoopStep (estimate : Nat)
  /-- `RAIL_SAMPLE` (R530). -/
  | railSample (rails : List RailReading)
  /-- `VTRIM_UPDATE` (R531): the VTRIM that each die's monitors ask for, in 5 mV. -/
  | vtrimUpdate (wanted : List Int)
  /-- `RAIL_SETTLED` (R528). -/
  | railSettled (d : Fin 4)
  /-- `PLL_LOSS_OF_LOCK` (R524). -/
  | pllLossOfLock
  /-- `REFCLK_STABLE` (R524). -/
  | refclkStable (b : StartInfo)
  /-- `LINK_PLL_LOSS_OF_LOCK` (R524). -/
  | linkPllLossOfLock (mods : List LinkModule)
  /-- `THERMTRIP` (R537). -/
  | thermtrip
  -- package and start-up (R547-R564)
  /-- `VIN36_RISE` (R561). -/
  | vin36Rise (b : StartInfo)
  /-- `VIN36_UNDERVOLTAGE` (R553). -/
  | vin36Undervoltage
  /-- `VIN36_OVERVOLTAGE` (R553). -/
  | vin36Overvoltage
  /-- `RAIL_OUT_OF_REGULATION` (R564). -/
  | railOutOfRegulation
  /-- `RST_N_ASSERT` (R556). -/
  | rstNAssert
  /-- `RST_N_RELEASE` (R556). -/
  | rstNRelease (b : StartInfo)
  /-- `VIN36_OVERVOLTAGE_RESTART` (R553). -/
  | vin36OvervoltageRestart (b : StartInfo)
  /-- `MANAGEMENT_ERROR` (R482). -/
  | managementError
  /-- `BC_REQUEST_MESSAGE` (R365). -/
  | bcRequestMessage (packets : List (List Byte))
  deriving DecidableEq, Repr

end Sys2Proof
end

