-- ==== Sys2Proof/Decode.lean ====
section
/-! DEFINITION. Reading encodings. The table of commands gives no row any bits, so `decodeTableWord` spells no command. The one
instruction encoding the manual does give is the 256-bit bundle of R42-R47, which a core fetches from its instruction
memory: `bundleOf` reads it and `bundleBits` writes it. -/

namespace Sys2Proof

/-- The command a table word spells: none, for no row of the table has bits. -/
def decodeTableWord (_nbits _w : Nat) : Option Instr := none

/-- The S slot of its 48 bits (R43). -/
def sSlotOf (w : BitVec 48) : SSlot :=
  { op := w.extractLsb' 40 8, pred := w.extractLsb' 37 3, pneg := w.getLsbD 36, rd := w.extractLsb' 31 5,
    ra := w.extractLsb' 26 5, rb := w.extractLsb' 21 5, imm := w.extractLsb' 0 21 }

/-- The B slot of its 48 bits (R44). -/
def bSlotOf (w : BitVec 48) : BSlot :=
  { op := w.extractLsb' 40 8, pred := w.extractLsb' 37 3, pneg := w.getLsbD 36, rd := w.extractLsb' 31 5,
    ra := w.extractLsb' 26 5, imm := w.extractLsb' 0 26 }

/-- The V slot of its 64 bits (R45). -/
def vSlotOf (w : BitVec 64) : VSlot :=
  { op := w.extractLsb' 56 8, pred := w.extractLsb' 53 3, pneg := w.getLsbD 52, vd := w.extractLsb' 46 6,
    va := w.extractLsb' 40 6, vb := w.extractLsb' 34 6, vc := w.extractLsb' 28 6, fmt := w.extractLsb' 24 4,
    rnd := w.extractLsb' 22 2, sreg := w.extractLsb' 17 5, imm := w.extractLsb' 0 17 }

/-- The M slot of its 32 bits (R46). -/
def mSlotOf (w : BitVec 32) : MSlot :=
  { op := w.extractLsb' 26 6, acc := w.extractLsb' 23 3, sa := w.extractLsb' 18 5, sb := w.extractLsb' 13 5,
    afmt := w.extractLsb' 9 4, bfmt := w.extractLsb' 5 4, sparse := w.getLsbD 4, zero := w.getLsbD 3,
    scale := w.extractLsb' 1 2, spmode := w.getLsbD 0 }

/-- The X slot of its 56 bits (R47). -/
def xSlotOf (w : BitVec 56) : XSlot :=
  { op := w.extractLsb' 50 6, pred := w.extractLsb' 47 3, pneg := w.getLsbD 46, sa := w.extractLsb' 41 5,
    sb := w.extractLsb' 36 5, sl := w.extractLsb' 31 5, cnt := w.extractLsb' 25 6, dq := w.extractLsb' 21 4,
    flags := w.extractLsb' 16 5, imm := w.extractLsb' 0 16 }

/-- The bundle of 256 bits (R42). -/
def bundleOf (w : BitVec 256) : Bundle :=
  { format := w.extractLsb' 252 4, rsv := w.extractLsb' 248 4, x := xSlotOf (w.extractLsb' 192 56),
    m := mSlotOf (w.extractLsb' 160 32), v := vSlotOf (w.extractLsb' 96 64), b := bSlotOf (w.extractLsb' 48 48),
    s := sSlotOf (w.extractLsb' 0 48) }

/-- The 48 bits of an S slot (R43). -/
def sSlotBits (t : SSlot) : BitVec 48 :=
  t.op ++ t.pred ++ BitVec.ofBool t.pneg ++ t.rd ++ t.ra ++ t.rb ++ t.imm

/-- The 48 bits of a B slot (R44). -/
def bSlotBits (t : BSlot) : BitVec 48 := t.op ++ t.pred ++ BitVec.ofBool t.pneg ++ t.rd ++ t.ra ++ t.imm

/-- The 64 bits of a V slot (R45). -/
def vSlotBits (t : VSlot) : BitVec 64 :=
  t.op ++ t.pred ++ BitVec.ofBool t.pneg ++ t.vd ++ t.va ++ t.vb ++ t.vc ++ t.fmt ++ t.rnd ++ t.sreg ++ t.imm

/-- The 32 bits of an M slot (R46). -/
def mSlotBits (t : MSlot) : BitVec 32 :=
  t.op ++ t.acc ++ t.sa ++ t.sb ++ t.afmt ++ t.bfmt ++ BitVec.ofBool t.sparse ++ BitVec.ofBool t.zero ++ t.scale
    ++ BitVec.ofBool t.spmode

/-- The 56 bits of an X slot (R47). -/
def xSlotBits (t : XSlot) : BitVec 56 :=
  t.op ++ t.pred ++ BitVec.ofBool t.pneg ++ t.sa ++ t.sb ++ t.sl ++ t.cnt ++ t.dq ++ t.flags ++ t.imm

/-- The 256 bits of a bundle (R42). -/
def bundleBits (b : Bundle) : BitVec 256 :=
  b.format ++ b.rsv ++ xSlotBits b.x ++ mSlotBits b.m ++ vSlotBits b.v ++ bSlotBits b.b ++ sSlotBits b.s

end Sys2Proof
end

