-- ==== Sys2Proof/Config.lean ====
section
/-! DEFINITION. What the manual leaves open: free values without a body, which no proof can evaluate, and the published
cryptographic functions the manual names without restating. -/

namespace Sys2Proof.Config

/-- A fresh free number, by the state's count of free values drawn so far (log entry 3). -/
opaque freeNat : Nat → Nat

/-- When an MMA reads an operand row (R66): by cluster, core, start cycle and row; the model takes it modulo 49, as the number of
execution cycles whose writes the row shows. -/
opaque rowCycle : Nat → Nat → Nat → Nat → Nat

/-- Whether traffic of an exclusive link share with SPILL goes beyond the share (R247), by the state's count of free values. -/
opaque spills : Nat → Bool

/-- The 64 bytes of a line that a host writes back when it is back-invalidated (R322), by the state's count of free values. -/
opaque hostLine : Nat → List Byte

/-- What a read of the management subsystem returns where the spec gives the target no layout (R291), by the state's count of free
values and the length. -/
opaque mgtRead : Nat → Nat → List Byte

/-- What a compute die's reference count stands at when the package starts (R523: each die counts its own cycles). -/
opaque dieStart : Nat → Nat

/-- VEXP2 of a finite input (R63): every part returns the same bits for an input. -/
opaque vexp2 : BitVec 32 → BitVec 32
/-- VLOG2 of a positive finite input (R63). -/
opaque vlog2 : BitVec 32 → BitVec 32
/-- VRCP of a non-zero finite input (R63). -/
opaque vrcp : BitVec 32 → BitVec 32
/-- VRSQ of a positive input (R63). -/
opaque vrsq : BitVec 32 → BitVec 32
/-- VTANH of a finite input (R63). -/
opaque vtanh : BitVec 32 → BitVec 32
/-- VERF of a finite input (R63). -/
opaque verf : BitVec 32 → BitVec 32

/-- Byte `i` of the AES-256-GCM key stream of a key and nonce (R303, R441). -/
opaque gcmStream : List Byte → List Byte → Nat → Byte
/-- The 16-byte AES-256-GCM tag: key, nonce, additional data, ciphertext (R303, R441). -/
opaque gcmTag : List Byte → List Byte → List Byte → List Byte → List Byte
/-- AES-256 encryption of a 16-byte block under a key (R300, R301). -/
opaque aesBlock : List Byte → List Byte → List Byte
/-- The 64 bytes of the key pair at a place of the hub's key store, fixed at manufacture (R300). -/
opaque hbmKey : Nat → List Byte
/-- ML-KEM-1024 encapsulation key of a key pair drawn from a seed (R439). -/
opaque kemKey : Nat → List Byte
/-- ML-KEM-1024 encapsulation under a key with fresh randomness: the ciphertext (R440). -/
opaque kemCipher : List Byte → Nat → List Byte
/-- The shared secret of that encapsulation (R441). -/
opaque kemSecret : List Byte → Nat → List Byte
/-- ML-KEM-1024 decapsulation with the key pair of a seed: the shared secret (R442, R519). -/
opaque kemOpen : Nat → List Byte → List Byte
/-- The identity seed of the top tree that manufacture fuses (R496). -/
opaque topSeed : List Byte
/-- The LMS public key of the lower tree of a seed and an identifier (R513). -/
opaque lmsPublic : List Byte → List Byte → List Byte
/-- The LMS signature of a message by a leaf of the top tree of a seed (R512, R513). -/
opaque topSign : List Byte → Nat → List Byte → List Byte
/-- The LMS signature of a message by a leaf of the lower tree of a seed and an identifier (R512, R515). -/
opaque lowerSign : List Byte → List Byte → Nat → List Byte → List Byte
/-- Whether an HSS signature over a message verifies under a public key (RFC 8554; R503, R518): key, message, signature. -/
opaque hssVerifies : List Byte → List Byte → List Byte → Bool
/-- A hash that manufacture fuses (R496): 0 FW_ROOT_HASH, 1 MFG_ROOT_HASH. -/
opaque rootHash : Nat → List Byte
/-- A random byte string of a length from the hub's entropy source, by the state's count (R439, R516). -/
opaque entropy : Nat → Nat → List Byte
/-- Bytes in the device's own format: what (dump control record, loop state, private section), and which (R441, R490). -/
opaque ownFormat : Nat → Nat → List Byte
/-- Public half of the identity tree and certificates, by tree (R512-R517). -/
opaque identity : Nat → List Byte
/-- The firmware image that slot A holds at shipment (R502). -/
opaque factoryImage : List Byte
/-- The MCTP versions a message type is answered with (R364), as the base specification's version entries. -/
opaque mctpVersions : Nat → List Byte

end Sys2Proof.Config
end

