-- ==== Sys2Proof/Machine/Bytes.lean ====
section
/-! DEFINITION. Named operations over the sparse containers and over little-endian byte strings (R6, R7). -/

namespace Sys2Proof.Machine

/-- What a byte that no entry lists reads as: every memory of the device reads zero once it is stripped or reset
(R294, R295, R472). For host memory and flash this is a DESIGN CHOICE (log entry 6). -/
def memDefault : Byte := 0#8

/-- The byte at address `a`. -/
def memGet : Mem → Nat → Byte
  | [], _ => memDefault
  | (k, v) :: t, a => if k = a then v else if a < k then memDefault else memGet t a

/-- Write one byte, keeping the canonical form: writing the value an unlisted byte reads as removes the entry. -/
def memSet : Mem → Nat → Byte → Mem
  | [], a, b => if b = memDefault then [] else [(a, b)]
  | (k, v) :: t, a, b =>
    if a = k then (if b = memDefault then t else (a, b) :: t)
    else if a < k then (if b = memDefault then (k, v) :: t else (a, b) :: (k, v) :: t)
    else (k, v) :: memSet t a b

/-- The keys of `m` are at least `lo`, strictly rising, and no entry holds the default. -/
def memWfFrom : Nat → Mem → Bool
  | _, [] => true
  | lo, (k, v) :: t => decide (lo ≤ k) && decide (v ≠ memDefault) && memWfFrom (k + 1) t

/-- The canonical form of a memory. -/
def Mem.wf (m : Mem) : Bool := memWfFrom 0 m

/-- `n` bytes from address `a`. -/
def memRead (m : Mem) (a : Nat) : Nat → List Byte
  | 0 => []
  | n + 1 => memGet m a :: memRead m (a + 1) n

/-- Write a byte string from address `a` upwards. -/
def memWrite (m : Mem) (a : Nat) : List Byte → Mem
  | [] => m
  | b :: bs => memWrite (memSet m a b) (a + 1) bs

/-- The canonical form of the memory that a list of entries describes, later ones over earlier ones. -/
def memCanon (m : Mem) : Mem := m.foldl (fun a c => memSet a c.1 c.2) []

/-- Zero the `n` bytes from address `a`: their entries leave the list. -/
def memZero (m : Mem) (a n : Nat) : Mem := m.filter (fun c => !(decide (a ≤ c.1) && decide (c.1 < a + n)))

/-- The entry of table `t` at index `i`, or `d` where none is listed. -/
def tabGet {α : Type} (d : α) : Tab α → Nat → α
  | [], _ => d
  | (k, v) :: t, i => if k = i then v else if i < k then d else tabGet d t i

/-- Set the entry of index `i`. -/
def tabSet {α : Type} : Tab α → Nat → α → Tab α
  | [], i, x => [(i, x)]
  | (k, v) :: t, i, x =>
    if i = k then (i, x) :: t
    else if i < k then (i, x) :: (k, v) :: t
    else (k, v) :: tabSet t i x

/-- The entry at index `i`, if one is listed. -/
def tabFind {α : Type} : Tab α → Nat → Option α
  | [], _ => none
  | (k, v) :: t, i => if k = i then some v else if i < k then none else tabFind t i

/-- Remove the entry of index `i`. -/
def tabErase {α : Type} : Tab α → Nat → Tab α
  | [], _ => []
  | (k, v) :: t, i => if i = k then t else if i < k then (k, v) :: t else (k, v) :: tabErase t i

/-- The number a byte string spells, lowest byte first (R6). -/
def leNat : List Byte → Nat
  | [] => 0
  | b :: bs => b.toNat + 256 * leNat bs

/-- The low `n` bytes of `v`, lowest first (R6). -/
def leBytes : Nat → Nat → List Byte
  | 0, _ => []
  | n + 1, v => BitVec.ofNat 8 v :: leBytes n (v / 256)

/-- The field of `size` bytes at byte offset `off`; bytes past the end read zero. -/
def fieldAt (bs : List Byte) (off size : Nat) : Nat := leNat ((bs.drop off).take size)

/-- Every byte of the range is zero. -/
def zeroAt (bs : List Byte) (off size : Nat) : Bool := ((bs.drop off).take size).all (· == 0#8)

/-- Bit `n` of a number. -/
def bitAt (v n : Nat) : Bool := v.testBit n

/-- Bits `[hi:lo]` of a number. -/
def bitsAt (v hi lo : Nat) : Nat := (v / 2 ^ lo) % 2 ^ (hi - lo + 1)

/-- A number with its bit `n` set to `b`. -/
def setBit (v n : Nat) (b : Bool) : Nat :=
  if v.testBit n = b then v else if b then v + 2 ^ n else v - 2 ^ n

/-- 1 for true. -/
def bnat (b : Bool) : Nat := if b then 1 else 0

/-- A counter that stops at 0xFFFF_FFFF. -/
def satInc32 (n : Nat) : Nat := if n < 0xFFFFFFFF then n + 1 else n

/-- A sum that stops at `top`. -/
def satAdd (top n k : Nat) : Nat := min top (n + k)

/-- `n` zero bytes. -/
def zeros (n : Nat) : List Byte := List.replicate n 0#8

/-- `bs` cut or filled with zeros to exactly `n` bytes. -/
def padTo (n : Nat) (bs : List Byte) : List Byte := bs.take n ++ zeros (n - bs.length)

/-- Overwrite the bytes of `bs` from offset `off` with `new`. -/
def patchAt (bs : List Byte) (off : Nat) (new : List Byte) : List Byte :=
  padTo off bs ++ new ++ bs.drop (off + new.length)

/-- A value in two's complement of `w` bits, read as an integer. -/
def sext (w v : Nat) : Int := if v < 2 ^ (w - 1) then (v : Int) else (v : Int) - (2 ^ w : Nat)

/-- The low `w` bits of an integer. -/
def wrapBits (w : Nat) (i : Int) : Nat := (i % (2 ^ w : Nat)).toNat

/-- The numbers `a`, `a+1`, …, `a+n-1`. -/
def natRange (a : Nat) : Nat → List Nat
  | 0 => []
  | n + 1 => a :: natRange (a + 1) n

/-- Ceiling of `a / b`. -/
def ceilDiv (a b : Nat) : Nat := (a + b - 1) / b

/-- The number of set bits among the lowest `n`. -/
def popCount (v : Nat) : Nat → Nat
  | 0 => 0
  | n + 1 => bnat (v.testBit n) + popCount v n

/-- CRC-16, polynomial 0x1021, initial value 0xFFFF, no reflection, no final XOR (R184): one bit of the register. -/
def crcBit (c : Nat) : Nat := if c.testBit 15 then ((c * 2) % 65536) ^^^ 0x1021 else (c * 2) % 65536

/-- CRC-16 of a byte string (R184). -/
def crc16 (bs : List Byte) : Nat :=
  bs.foldl (fun c b => Nat.repeat crcBit 8 (c ^^^ (b.toNat * 256))) 0xFFFF

end Sys2Proof.Machine
end

