-- ==== Sys2Proof/Machine/Hash.lean ====
section
/-! DEFINITION. The two published functions the manual names without restating them: Philox-4x32-10 (R75) and
SHA-256 (R85). Their constants are PRESUMED from the publications the manual cites (log entry 8). -/

namespace Sys2Proof.Machine

/-- One Philox-4x32 round: counter words, then key words. -/
def philoxRound (c : Nat × Nat × Nat × Nat) (k0 k1 : Nat) : Nat × Nat × Nat × Nat :=
  let p0 := 0xD2511F53 * c.1
  let p1 := 0xCD9E8D57 * c.2.2.1
  let hi0 := p0 / 2 ^ 32
  let lo0 := p0 % 2 ^ 32
  let hi1 := p1 / 2 ^ 32
  let lo1 := p1 % 2 ^ 32
  (hi1 ^^^ c.2.1 ^^^ k0, lo1, hi0 ^^^ c.2.2.2 ^^^ k1, lo0)

/-- `n` rounds, the key advancing by the Weyl increments after each. -/
def philoxRounds : Nat → Nat × Nat × Nat × Nat → Nat → Nat → Nat × Nat × Nat × Nat
  | 0, c, _, _ => c
  | n + 1, c, k0, k1 =>
    philoxRounds n (philoxRound c k0 k1) ((k0 + 0x9E3779B9) % 2 ^ 32) ((k1 + 0xBB67AE85) % 2 ^ 32)

/-- One block: four 32-bit words (R75). -/
def philox (seed : Nat) (c0 c1 c2 c3 : Nat) : Nat × Nat × Nat × Nat :=
  philoxRounds 10 (c0 % 2 ^ 32, c1 % 2 ^ 32, c2 % 2 ^ 32, c3 % 2 ^ 32) (seed % 2 ^ 32) (seed / 2 ^ 32 % 2 ^ 32)

/-- The four words of a block as a list. -/
def philoxWords (seed c0 c1 c2 c3 : Nat) : List Nat :=
  let b := philox seed c0 c1 c2 c3
  [b.1, b.2.1, b.2.2.1, b.2.2.2]

/-- The 64 lane words a VRAND draws (R75): block `j` uses counter `D + j`. -/
def vrandLanes (seed draw stream core vcid : Nat) : List Nat :=
  (natRange 0 16).flatMap (fun j =>
    let d := (draw + j) % 2 ^ 64
    philoxWords seed (d % 2 ^ 32) (d / 2 ^ 32) ((stream * 2 ^ 30) ||| (core * 2 ^ 12) ||| vcid) 0)

-- SHA-256: words are numbers below 2^32

/-- The whole part of the `k`-th root of `n`, fixed bit by bit from bit `b - 1` down. -/
def rootFrom (k n : Nat) : Nat → Nat → Nat
  | 0, r => r
  | b + 1, r => rootFrom k n b (if (r + 2 ^ b) ^ k ≤ n then r + 2 ^ b else r)

/-- The first 32 bits of the fraction of the `k`-th root of `p`. -/
def rootFraction (k p : Nat) : Nat := rootFrom k (p * 2 ^ (32 * k)) 35 0 % 2 ^ 32

/-- The first 64 primes: those up to 311, which 17 or a smaller prime tells from the rest. -/
def shaPrimes : List Nat :=
  (natRange 2 310).filter (fun p => [2, 3, 5, 7, 11, 13, 17].all (fun d => p == d || p % d != 0))

/-- A word rotated right. -/
def turn32 (x n : Nat) : Nat := x / 2 ^ n + x % 2 ^ n * 2 ^ (32 - n)

/-- Two rotations of a word mixed with a third word made of it. -/
def shaMix (x m n third : Nat) : Nat := turn32 x m ^^^ turn32 x n ^^^ third

/-- The message word that enters as the oldest of the window of 16 leaves. -/
def shaNext (w : List Nat) : Nat :=
  let x := w.getD 1 0
  let y := w.getD 14 0
  (w.getD 0 0 + shaMix x 7 18 (x / 2 ^ 3) + w.getD 9 0 + shaMix y 17 19 (y / 2 ^ 10)) % 2 ^ 32

/-- Rounds over a window of message words: one for each prime, whose cube root gives the round's constant. -/
def shaRounds : List Nat → List Nat → List Nat → List Nat
  | p :: ps, w, [a, b, c, d, e, f, g, h] =>
    let t := h + shaMix e 6 11 (turn32 e 25) + (g ^^^ (e &&& (f ^^^ g))) + rootFraction 3 p + w.getD 0 0
    let u := shaMix a 2 13 (turn32 a 22) + ((a &&& b) ||| (c &&& (a ||| b)))
    shaRounds ps (w.drop 1 ++ [shaNext w]) [(t + u) % 2 ^ 32, a, b, c, (d + t) % 2 ^ 32, e, f, g]
  | _, _, v => v

/-- The bytes of a word, most significant first. -/
def beBytes (n v : Nat) : List Byte := (leBytes n v).reverse
/-- The number that bytes spell, most significant first. -/
def beNat (bs : List Byte) : Nat := leNat bs.reverse

/-- Fold the 64-byte blocks of a padded message into a chaining value. -/
def shaFold : Nat → List Byte → List Nat → List Nat
  | 0, _, v => v
  | n + 1, bs, v =>
    let w := (natRange 0 16).map (fun i => beNat ((bs.drop (4 * i)).take 4))
    shaFold n (bs.drop 64) ((v.zip (shaRounds shaPrimes w v)).map (fun x => (x.1 + x.2) % 2 ^ 32))

/-- SHA-256 of a byte string: the message, a one bit, zeros, and its length in bits fill whole blocks; the chaining value starts at the
square roots of the first eight primes. -/
def sha256 (m : List Byte) : List Byte :=
  let n := m.length / 64 + (if m.length % 64 < 56 then 1 else 2)
  let blocks := m ++ [0x80#8] ++ zeros (64 * n - m.length - 9) ++ beBytes 8 (8 * m.length)
  (shaFold n blocks ((shaPrimes.take 8).map (rootFraction 2))).flatMap (beBytes 4)

end Sys2Proof.Machine
end

