-- ==== Sys2Proof/Machine/Formats.lean ====
section
/-! DEFINITION. The number formats (R90-R98), exact values of their encodings, the one rounding step every
floating-point operation ends in, and every conversion (R117-R125). -/

namespace Sys2Proof.Machine

/-- The value an encoding denotes: a NaN with its sign, an infinity, or exactly `(-1)^neg * m * 2^e`. -/
inductive FVal where
  | nan (neg : Bool)
  | inf (neg : Bool)
  | fin (neg : Bool) (m : Nat) (e : Int)
  deriving DecidableEq, Repr

/-- How a floating-point format spells infinity and NaN (R91, R92). -/
inductive Specials where
  | ieee      -- all-ones exponent: infinity and NaNs
  | e4m3      -- only S.1111.111 is a NaN
  | finite    -- every encoding is a finite number
  deriving DecidableEq, Repr

/-- A floating-point layout (R91). -/
structure FmtSpec where
  ebits : Nat
  mbits : Nat
  bias  : Nat
  specials : Specials
  deriving DecidableEq, Repr

/-- The element formats (R48, R90). -/
inductive ElemFmt where
  | fp32 | bf16 | fp16 | e4m3 | e5m2 | e3m2 | e2m3 | fp4 | int8 | int4 | tri
  deriving DecidableEq, Repr

/-- The format a code names; codes 0xB-0xF are reserved (R48). -/
def elemFmtOf : Nat → Option ElemFmt
  | 0 => some .fp32 | 1 => some .bf16 | 2 => some .fp16 | 3 => some .e4m3 | 4 => some .e5m2 | 5 => some .e3m2
  | 6 => some .e2m3 | 7 => some .fp4 | 8 => some .int8 | 9 => some .int4 | 10 => some .tri | _ => none

/-- The code of a format (R48). -/
def elemCode : ElemFmt → Nat
  | .fp32 => 0 | .bf16 => 1 | .fp16 => 2 | .e4m3 => 3 | .e5m2 => 4 | .e3m2 => 5 | .e2m3 => 6 | .fp4 => 7
  | .int8 => 8 | .int4 => 9 | .tri => 10

/-- Packed width in bits (R90); a TRI element has no whole number of bits and counts as a byte of five. -/
def elemWidth : ElemFmt → Nat
  | .fp32 => 32 | .bf16 => 16 | .fp16 => 16 | .e4m3 => 8 | .e5m2 => 8 | .e3m2 => 6 | .e2m3 => 6 | .fp4 => 4
  | .int8 => 8 | .int4 => 4 | .tri => 8

/-- The layout of a floating-point format (R91). -/
def fmtSpec : ElemFmt → Option FmtSpec
  | .fp32 => some ⟨8, 23, 127, .ieee⟩
  | .bf16 => some ⟨8, 7, 127, .ieee⟩
  | .fp16 => some ⟨5, 10, 15, .ieee⟩
  | .e4m3 => some ⟨4, 3, 7, .e4m3⟩
  | .e5m2 => some ⟨5, 2, 15, .ieee⟩
  | .e3m2 => some ⟨3, 2, 3, .finite⟩
  | .e2m3 => some ⟨2, 3, 1, .finite⟩
  | .fp4 => some ⟨2, 1, 1, .finite⟩
  | _ => none

/-- binary32. -/
def fp32Spec : FmtSpec := ⟨8, 23, 127, .ieee⟩

/-- Magnitude code of the largest finite value. -/
def FmtSpec.maxCode (f : FmtSpec) : Nat :=
  match f.specials with
  | .ieee => (2 ^ f.ebits - 1) * 2 ^ f.mbits - 1
  | .e4m3 => 2 ^ (f.ebits + f.mbits) - 2
  | .finite => 2 ^ (f.ebits + f.mbits) - 1

/-- Sign bit weight. -/
def FmtSpec.signWeight (f : FmtSpec) : Nat := 2 ^ (f.ebits + f.mbits)

/-- The exponent of the unit in the last place of a subnormal. -/
def FmtSpec.qmin (f : FmtSpec) : Int := 1 - (f.bias : Int) - (f.mbits : Int)

/-- Decode an encoding of a floating-point format (R91, R92). -/
def FmtSpec.decode (f : FmtSpec) (v : Nat) : FVal :=
  let neg := v.testBit (f.ebits + f.mbits)
  let e := (v / 2 ^ f.mbits) % 2 ^ f.ebits
  let m := v % 2 ^ f.mbits
  let special : Bool :=
    match f.specials with
    | .ieee => e == 2 ^ f.ebits - 1
    | .e4m3 => e == 2 ^ f.ebits - 1 && m == 2 ^ f.mbits - 1
    | .finite => false
  if special then
    (if f.specials = .ieee ∧ m = 0 then .inf neg else .nan neg)
  else if e = 0 then .fin neg m f.qmin
  else .fin neg (m + 2 ^ f.mbits) (f.qmin + (e : Int) - 1)

/-- The element's encoding is a subnormal: exponent 0 and a non-zero mantissa. -/
def FmtSpec.isSubnormal (f : FmtSpec) (v : Nat) : Bool :=
  (v / 2 ^ f.mbits) % 2 ^ f.ebits == 0 && v % 2 ^ f.mbits != 0

/-- The canonical NaN of the sign (R93): FP6 and FP4 have none and read +0 there (R121). -/
def FmtSpec.nanCode (f : FmtSpec) (neg : Bool) : Nat :=
  match f.specials with
  | .ieee =>
    -- E5M2 uses S.11111.10, as every IEEE layout does: quiet bit only
    bnat neg * f.signWeight + (2 ^ f.ebits - 1) * 2 ^ f.mbits + 2 ^ (f.mbits - 1)
  | .e4m3 => bnat neg * f.signWeight + 2 ^ (f.ebits + f.mbits) - 1
  | .finite => 0

/-- The RND field (R45). -/
inductive Rounding where
  | nearestEven
  | stochastic (r : Nat)      -- the lane's 32-bit word (R124)
  | towardZero
  deriving DecidableEq, Repr

/-- Number of bits of `m`. -/
def bitLen (m : Nat) : Nat := if m = 0 then 0 else m.log2 + 1

/-- Round `m * 2^e`, shifted right by `s` bits, to an integer. -/
def roundShift (r : Rounding) (m s : Nat) : Nat :=
  let lo := m / 2 ^ s
  let rem := m % 2 ^ s
  if rem = 0 then lo
  else match r with
    | .towardZero => lo
    | .nearestEven =>
      if 2 * rem < 2 ^ s then lo
      else if 2 * rem > 2 ^ s then lo + 1
      else if lo % 2 = 0 then lo else lo + 1
    | .stochastic w => if w < rem * 2 ^ 32 / 2 ^ s then lo + 1 else lo

/-- The magnitude code of `m * 2^e` (m > 0) rounded as if the format had no largest exponent (R121): a code above
`maxCode` means overflow. Codes are ordered as values, so a carry out of the mantissa lands in the exponent. -/
def FmtSpec.roundMag (f : FmtSpec) (r : Rounding) (m : Nat) (e : Int) : Nat :=
  if m = 0 then 0
  else
    let q : Int := max f.qmin ((bitLen m : Int) - 1 + e - (f.mbits : Int))
    let base := (q - f.qmin).toNat * 2 ^ f.mbits
    if q ≤ e then base + m * 2 ^ (e - q).toNat
    else base + roundShift r m (q - e).toNat

/-- `m * 2^e` is above the value of magnitude code `f.maxCode`. -/
def FmtSpec.aboveMax (f : FmtSpec) (m : Nat) (e : Int) : Bool :=
  match f.decode f.maxCode with
  | .fin _ mm em => let b := min e em; decide (m * 2 ^ (e - b).toNat > mm * 2 ^ (em - b).toNat)
  | _ => false

/-- Encode a finite value of FP32 arithmetic: overflow gives an infinity under nearest, the largest finite value toward
zero (R111, R115). -/
def fp32Round (r : Rounding) (neg : Bool) (m : Nat) (e : Int) : Nat :=
  let c := fp32Spec.roundMag r m e
  let c' := if c > fp32Spec.maxCode then (if r = .towardZero then fp32Spec.maxCode else 0x7F800000) else c
  bnat neg * 0x80000000 + c'

/-- The FP32 encoding of a value. -/
def fp32Of (r : Rounding) : FVal → Nat
  | .nan neg => fp32Spec.nanCode neg
  | .inf neg => bnat neg * 0x80000000 + 0x7F800000
  | .fin neg m e => fp32Round r neg m e

/-- Decode an FP32 lane. -/
def fp32Val (v : Nat) : FVal := fp32Spec.decode (v % 2 ^ 32)

/-- The positive canonical NaN an arithmetic operation produces (R93). -/
def fp32NaN : Nat := 0x7FC00000

/-- Signed mantissa. -/
def signed (neg : Bool) (m : Nat) : Int := if neg then -(m : Int) else (m : Int)

/-- Exact sum of two dyadic numbers. -/
def dyAdd (a b : Int × Int) : Int × Int :=
  let e := min a.2 b.2
  (a.1 * 2 ^ (a.2 - e).toNat + b.1 * 2 ^ (b.2 - e).toNat, e)

/-- Product of two element values (R110 step 2); infinity times zero is a NaN. -/
def fvMul : FVal → FVal → FVal
  | .nan _, _ => .nan false
  | _, .nan _ => .nan false
  | .inf s, .inf t => .inf (s != t)
  | .inf s, .fin t m _ => if m = 0 then .nan false else .inf (s != t)
  | .fin s m _, .inf t => if m = 0 then .nan false else .inf (s != t)
  | .fin s m e, .fin t n f => .fin (s != t) (m * n) (e + f)

/-- What a sum has gathered: NaN seen, infinities of each sign, the exact finite sum, every term a negative zero. -/
structure SumAcc where
  nan : Bool
  pinf : Bool
  ninf : Bool
  sum : Int × Int
  allNegZero : Bool
  deriving DecidableEq, Repr

/-- The empty sum. -/
def SumAcc.empty : SumAcc := ⟨false, false, false, (0, 0), true⟩

/-- Add one term. -/
def SumAcc.add (a : SumAcc) : FVal → SumAcc
  | .nan _ => { a with nan := true, allNegZero := false }
  | .inf s => { a with pinf := a.pinf || !s, ninf := a.ninf || s, allNegZero := false }
  | .fin s m e =>
    { a with sum := if m = 0 then a.sum else dyAdd a.sum (signed s m, e),
             allNegZero := a.allNegZero && decide (m = 0) && s }

/-- Round the gathered sum once to FP32 (R110 step 4, R111). -/
def SumAcc.toFp32 (r : Rounding) (a : SumAcc) : Nat :=
  if a.nan || (a.pinf && a.ninf) then fp32NaN
  else if a.pinf then 0x7F800000
  else if a.ninf then 0xFF800000
  else if a.sum.1 = 0 then (if a.allNegZero then 0x80000000 else 0)
  else fp32Round r (decide (a.sum.1 < 0)) a.sum.1.natAbs a.sum.2

/-- Sum of a list of terms, rounded once. -/
def fpSum (r : Rounding) (ts : List FVal) : Nat := (ts.foldl SumAcc.add SumAcc.empty).toFp32 r

/-- binary32 addition (R115). -/
def fp32Add (r : Rounding) (a b : Nat) : Nat := fpSum r [fp32Val a, fp32Val b]

/-- Change only the sign bit (R116). -/
def fp32Neg (a : Nat) : Nat := (a % 2 ^ 32) ^^^ 0x80000000

/-- Clear the sign bit (R116). -/
def fp32Abs (a : Nat) : Nat := a % 2 ^ 31

/-- binary32 subtraction (R115): a NaN operand gives the positive canonical NaN whatever its sign. -/
def fp32Sub (r : Rounding) (a b : Nat) : Nat := fp32Add r a (fp32Neg b)

/-- binary32 multiplication, rounded once (R115): a zero product keeps the exclusive-or of the signs. -/
def fp32Mul (r : Rounding) (a b : Nat) : Nat :=
  match fvMul (fp32Val a) (fp32Val b) with
  | .nan _ => fp32NaN
  | v => fp32Of r v

/-- Fused multiply-add, rounded once (R115). -/
def fp32Fma (r : Rounding) (a b c : Nat) : Nat := fpSum r [fvMul (fp32Val a) (fp32Val b), fp32Val c]

/-- binary32 division rounded to nearest even: the quotient carries three guard bits and a sticky bit below the
rounding position. -/
def fp32Div (a b : Nat) : Nat :=
  match fp32Val a, fp32Val b with
  | .nan _, _ => fp32NaN
  | _, .nan _ => fp32NaN
  | .inf s, .inf _ => let _ := s; fp32NaN
  | .inf s, .fin t _ _ => bnat (s != t) * 0x80000000 + 0x7F800000
  | .fin s _ _, .inf t => bnat (s != t) * 0x80000000
  | .fin s m e, .fin t n f =>
    if n = 0 then (if m = 0 then fp32NaN else bnat (s != t) * 0x80000000 + 0x7F800000)
    else
      let q := m * 2 ^ 320 / n
      let sticky := bnat (decide (m * 2 ^ 320 % n ≠ 0))
      fp32Round .nearestEven (s != t) (2 * q + sticky) (e - f - 321)

/-- Order key of a non-NaN FP32 encoding: -0 below +0 (R116). -/
def fp32Key (v : Nat) : Int :=
  if (v % 2 ^ 32).testBit 31 then -(((v % 2 ^ 31 : Nat)) : Int) - 1 else ((v % 2 ^ 31 : Nat) : Int)

/-- The encoding is a NaN. -/
def fp32IsNaN (v : Nat) : Bool := decide (v % 2 ^ 31 > 0x7F800000)

/-- VMAX (R116). -/
def fp32Max (a b : Nat) : Nat :=
  if fp32IsNaN a || fp32IsNaN b then fp32NaN else if fp32Key a < fp32Key b then b % 2 ^ 32 else a % 2 ^ 32

/-- VMIN (R116). -/
def fp32Min (a b : Nat) : Nat :=
  if fp32IsNaN a || fp32IsNaN b then fp32NaN else if fp32Key b < fp32Key a then b % 2 ^ 32 else a % 2 ^ 32

/-- Numerical key: both zeros equal (R116). -/
def fp32NumKey (v : Nat) : Int :=
  if (v % 2 ^ 32).testBit 31 then -(((v % 2 ^ 31 : Nat)) : Int) else ((v % 2 ^ 31 : Nat) : Int)

/-- VCMP: 0 EQ, 1 LT, 2 LE, 3 unordered (R61, R116). -/
def fp32Cmp (op a b : Nat) : Bool :=
  let un := fp32IsNaN a || fp32IsNaN b
  match op with
  | 0 => !un && decide (fp32NumKey a = fp32NumKey b)
  | 1 => !un && decide (fp32NumKey a < fp32NumKey b)
  | 2 => !un && decide (fp32NumKey a ≤ fp32NumKey b)
  | _ => un

/-- a < b over non-NaN encodings, used by the samplers. -/
def fp32Lt (a b : Nat) : Bool := fp32Cmp 1 a b

/-- Widen one packed element to FP32 (R119). TRI is never converted and reads 0. -/
def widenElem (fmt : ElemFmt) (v : Nat) : Nat :=
  match fmtSpec fmt with
  | some f => if fmt = .fp32 then v % 2 ^ 32 else fp32Of .nearestEven (f.decode v)
  | none =>
    match fmt with
    | .int8 => let i := sext 8 (v % 256); fp32Of .nearestEven (.fin (decide (i < 0)) i.natAbs 0)
    | .int4 => let i := sext 4 (v % 16); fp32Of .nearestEven (.fin (decide (i < 0)) i.natAbs 0)
    | _ => 0

/-- An integer clamped to `w` bits of two's complement. -/
def clampInt (w : Nat) (i : Int) : Int := max (-(2 ^ (w - 1) : Nat)) (min i ((2 ^ (w - 1) : Nat) - 1))

/-- Round a dyadic magnitude to an integer. -/
def roundToInt (r : Rounding) (m : Nat) (e : Int) : Nat :=
  if 0 ≤ e then m * 2 ^ e.toNat else roundShift r m (-e).toNat

/-- `m * 2^e` is above the integer `top` (R121, the overflow test of stochastic rounding). -/
def aboveInt (top m : Nat) (e : Int) : Bool :=
  if 0 ≤ e then decide (m * 2 ^ e.toNat > top) else decide (m > top * 2 ^ (-e).toNat)

/-- FP32 to a two's-complement integer of `w` bits (R120, R121). -/
def fp32ToInt (w : Nat) (r : Rounding) (v : Nat) : Nat :=
  match fp32Val v with
  | .nan _ => 0
  | .inf s => if s then 2 ^ (w - 1) else 2 ^ (w - 1) - 1
  | .fin s m e =>
    let top := if s then 2 ^ (w - 1) else 2 ^ (w - 1) - 1
    let stoch := match r with | .stochastic _ => true | _ => false
    if stoch && aboveInt (2 ^ (w - 1) - 1) m e then wrapBits w (signed s top)
    else wrapBits w (clampInt w (signed s (roundToInt r m e)))

/-- Flush a subnormal encoding to the zero of its sign (R122). -/
def FmtSpec.flush (f : FmtSpec) (v : Nat) : Nat :=
  if f.isSubnormal v then (v / f.signWeight) * f.signWeight else v

/-- FP32 to a narrow floating-point format (R120-R122). -/
def fp32ToFloat (f : FmtSpec) (sat flushSub : Bool) (r : Rounding) (v0 : Nat) : Nat :=
  let v := if flushSub then fp32Spec.flush (v0 % 2 ^ 32) else v0 % 2 ^ 32
  let sgn (s : Bool) : Nat := bnat s * f.signWeight
  let sat' := sat || decide (f.specials = .finite)
  let infOrNan (s : Bool) : Nat := if f.specials = .ieee then sgn s + (f.maxCode + 1) else f.nanCode s
  match fp32Val v with
  | .nan s => f.nanCode s
  | .inf s => if sat' then sgn s + f.maxCode else infOrNan s
  | .fin s m e =>
    let c := f.roundMag r m e
    let exceeds := match r with | .stochastic _ => f.aboveMax m e | _ => decide (c > f.maxCode)
    if exceeds then
      (if sat' || decide (r = .towardZero) then sgn s + f.maxCode else infOrNan s)
    else
      let out := sgn s + c
      if flushSub then f.flush out else out

/-- Narrow one FP32 lane to an element (R117-R123); FP32 itself is the lane's bits unchanged. -/
def narrowElem (fmt : ElemFmt) (sat flushSub : Bool) (r : Rounding) (v : Nat) : Nat :=
  match fmtSpec fmt with
  | some f => if fmt = .fp32 then v % 2 ^ 32 else fp32ToFloat f sat flushSub r v
  | none =>
    match fmt with
    | .int8 => fp32ToInt 8 r v
    | .int4 => fp32ToInt 4 r v
    | _ => 0

/-- INT32 lane to FP32, rounded (R118 imm[6] = 1). -/
def int32ToFp32 (r : Rounding) (v : Nat) : Nat :=
  let i := sext 32 (v % 2 ^ 32)
  fp32Of r (.fin (decide (i < 0)) i.natAbs 0)

/-- INT32 lane clamped to a narrow integer (R118). -/
def int32ToNarrow (w v : Nat) : Nat := wrapBits w (clampInt w (sext 32 (v % 2 ^ 32)))

/-- Element `i` of width `w` of a bit string held as a number (R99, R117). -/
def packedElem (bits w i : Nat) : Nat := (bits / 2 ^ (w * i)) % 2 ^ w

/-- Pack elements of width `w`, element 0 lowest (R117). -/
def packElems (w : Nat) : List Nat → Nat
  | [] => 0
  | x :: xs => x % 2 ^ w + 2 ^ w * packElems w xs

/-- The value of an E8M0 scale; 0xFF is a NaN (R97). -/
def e8m0Val (x : Nat) : FVal := if x = 255 then .nan false else .fin false 1 ((x : Int) - 127)

/-- Element `d` of a TRI byte, or zero for an invalid byte (R95, R96). -/
def triElem (byte d : Nat) : Int := if byte ≥ 243 then 0 else ((byte / 3 ^ d) % 3 : Nat) - 1

end Sys2Proof.Machine
end

