-- ==== Sys2Proof/Machine/Matrix.lean ====
section
/-! DEFINITION. The matrix unit's arithmetic (R64, R99-R113): operand layouts, sparsity, scales, and the one rounding of
each result element. An operand is held as the number its bytes spell, so element `l` of width `w` at byte `b` is bits
`[8*b + w*l + w - 1 : 8*b + w*l]`. -/

namespace Sys2Proof.Machine

/-- What an M slot asks for: the two formats, sparsity, ZERO and SCALE (R46). -/
structure MmaMode where
  afmt : ElemFmt
  bfmt : ElemFmt
  sparse : Bool
  spmode : Bool
  zero : Bool
  scale : Nat
  deriving DecidableEq, Repr

/-- The format pairs of R64. -/
def mmaPairOk (a b : ElemFmt) : Bool :=
  match b with
  | .bf16 => a == .bf16
  | .fp16 => a == .fp16
  | .e4m3 | .e5m2 => a == .e4m3 || a == .e5m2
  | .e3m2 | .e2m3 => a == .e4m3 || a == .e5m2 || a == .e3m2 || a == .e2m3
  | .fp4 => a == .e4m3 || a == .e5m2 || a == .fp4
  | .int8 => a == .int8
  | .int4 => a == .int8 || a == .int4
  | .tri => a == .int8 || a == .int4
  | .fp32 => false

/-- The SCALE values of R108. -/
def mmaScaleOk (b : ElemFmt) (scale : Nat) : Bool :=
  match b with
  | .bf16 | .fp16 => scale == 0
  | .e4m3 | .e5m2 | .e3m2 | .e2m3 | .fp4 => scale ≤ 2
  | .int8 => scale ≤ 1
  | .int4 | .tri => scale == 0 || scale == 2
  | .fp32 => false

/-- The sparsity of R108: SPMODE is 0 without SPARSE. -/
def mmaSparseOk (b : ElemFmt) (sparse spmode : Bool) : Bool :=
  if sparse then
    (match b with
     | .e4m3 | .e5m2 => !spmode
     | .fp4 => true
     | _ => false)
  else !spmode

/-- The M slot's mode is one R64 and R108 allow. -/
def MmaMode.ok (m : MmaMode) : Bool :=
  mmaPairOk m.afmt m.bfmt && mmaScaleOk m.bfmt m.scale && mmaSparseOk m.bfmt m.sparse m.spmode

/-- k without sparsity (R64). -/
def denseK : ElemFmt → Nat
  | .bf16 | .fp16 => 16
  | .e4m3 | .e5m2 | .e3m2 | .e2m3 | .int8 => 32
  | .fp4 | .int4 => 64
  | .tri => 128
  | .fp32 => 0

/-- The logical k of the product (R64). -/
def MmaMode.k (m : MmaMode) : Nat :=
  denseK m.bfmt * (if m.sparse then (if m.spmode then 4 else 2) else 1)

/-- Bytes of one row of A values (R99). -/
def MmaMode.ra (m : MmaMode) : Nat := m.k * elemWidth m.afmt / 8

/-- Bytes of one column of B values (R100). -/
def MmaMode.rb (m : MmaMode) : Nat :=
  if m.bfmt = .tri then 26 else denseK m.bfmt * elemWidth m.bfmt / 8

/-- Metadata bytes of one column (R102). -/
def MmaMode.md (m : MmaMode) : Nat := if m.sparse then (if m.spmode then m.k / 16 else m.k / 8) else 0

/-- Bytes of one column's B scales: E8M0 bytes under MX, rib records under rib scaling (R100, R106). -/
def MmaMode.bScaleBytes (m : MmaMode) : Nat :=
  match m.scale with
  | 1 => m.k / 32
  | 2 => if m.k = 256 then 32 else 16
  | _ => 0

/-- The whole extent of operand A, scales included (R68, R101). -/
def MmaMode.aBytes (m : MmaMode) : Nat := 64 * m.ra + (if m.scale = 0 then 0 else 64 * (m.k / 32))

/-- The whole extent of operand B, metadata and scales included (R68, R101). -/
def MmaMode.bBytes (m : MmaMode) : Nat := 64 * m.rb + 64 * m.md + 64 * m.bScaleBytes

/-- An integer MMA (R109). -/
def MmaMode.isInt (m : MmaMode) : Bool :=
  (m.bfmt == .int8 || m.bfmt == .int4 || m.bfmt == .tri) && m.scale == 0

/-- `w` bits of an operand from bit `p`. -/
def opBits (x p w : Nat) : Nat := (x / 2 ^ p) % 2 ^ w

/-- The integer an INT8 or INT4 element holds (R94). -/
def intElem (f : ElemFmt) (v : Nat) : Int := if f = .int8 then sext 8 v else sext 4 v

/-- Element value before its scale: R91, R94, R104, R105. -/
def elemVal (f : ElemFmt) (scale v : Nat) : FVal :=
  match fmtSpec f with
  | some s => s.decode v
  | none =>
    let i := intElem f v
    .fin (decide (i < 0)) i.natAbs (if f = .int8 ∧ scale ≠ 0 then -6 else 0)

/-- Raw element `l` of row `i` of A. -/
def MmaMode.aRaw (m : MmaMode) (opA i l : Nat) : Nat :=
  opBits opA (8 * (i * m.ra) + elemWidth m.afmt * l) (elemWidth m.afmt)

/-- The E8M0 scale of position `l` of row `i` of A (R99). -/
def MmaMode.aScale (m : MmaMode) (opA i l : Nat) : FVal :=
  if m.scale = 0 then .fin false 1 0
  else e8m0Val (opBits opA (8 * (64 * m.ra + i * (m.k / 32) + l / 32)) 8)

/-- The value of position `l` of row `i` of A (R104, R105, R107). -/
def MmaMode.aVal (m : MmaMode) (opA i l : Nat) : FVal :=
  fvMul (elemVal m.afmt m.scale (m.aRaw opA i l)) (m.aScale opA i l)

/-- The scale of position `l` of column `j` of B: MX or rib (R100, R106, R107). -/
def MmaMode.bScale (m : MmaMode) (opB j l : Nat) : FVal :=
  let base := 64 * m.rb + 64 * m.md
  match m.scale with
  | 1 => e8m0Val (opBits opB (8 * (base + j * (m.k / 32) + l / 32)) 8)
  | 2 =>
    let rec0 := base + j * m.bScaleBytes + 16 * (l / 128)
    let u := opBits opB (8 * (rec0 + 1) + 4 * ((l % 128) / 8)) 4
    fvMul (e8m0Val (opBits opB (8 * rec0) 8)) (.fin false 1 (-(u : Int)))
  | _ => .fin false 1 0

/-- Stored element `n` of column `j` of B, as a value before its scale; a TRI element is -1, 0 or 1 (R95, R96, R100). -/
def MmaMode.bStored (m : MmaMode) (opB j n : Nat) : FVal :=
  if m.bfmt = .tri then
    let i := triElem (opBits opB (8 * (j * 26 + n / 5)) 8) (n % 5)
    .fin (decide (i < 0)) i.natAbs 0
  else elemVal m.bfmt m.scale (opBits opB (8 * (j * m.rb) + elemWidth m.bfmt * n) (elemWidth m.bfmt))

/-- The logical position of stored element `n` of column `j` (R102, R103). -/
def MmaMode.bPos (m : MmaMode) (opB j n : Nat) : Nat :=
  if m.sparse then
    let md := 64 * m.rb + j * m.md
    if m.spmode then 4 * n + opBits opB (8 * md + 2 * n) 2
    else 4 * (n / 2) + opBits opB (8 * md + 2 * n) 2
  else n

/-- Stored elements per column (R100). -/
def MmaMode.stored (m : MmaMode) : Nat := denseK m.bfmt

/-- The products of result element (i, j), one for each stored B element: pruned positions give none (R103, R110). -/
def MmaMode.products (m : MmaMode) (opA opB i j : Nat) : List FVal :=
  (natRange 0 m.stored).map (fun n =>
    let l := m.bPos opB j n
    fvMul (m.aVal opA i l) (fvMul (m.bStored opB j n) (m.bScale opB j l)))

/-- The integer product sum of element (i, j) (R112). -/
def MmaMode.intSum (m : MmaMode) (opA opB i j : Nat) : Int :=
  (natRange 0 m.stored).foldl (fun acc n =>
    let a := intElem m.afmt (m.aRaw opA i n)
    let b := match m.bStored opB j n with | .fin s v _ => signed s v | _ => 0
    acc + a * b) 0

/-- One result word from the accumulator word (R110-R112). -/
def MmaMode.result (m : MmaMode) (opA opB i j acc : Nat) : Nat :=
  if m.isInt then
    wrapBits 32 (clampInt 32 (m.intSum opA opB i j + (if m.zero then 0 else sext 32 (acc % 2 ^ 32))))
  else
    let start := if m.zero then SumAcc.empty else SumAcc.empty.add (fp32Val acc)
    ((m.products opA opB i j).foldl SumAcc.add start).toFp32 .nearestEven

/-- Every result word of the tile, word `64 * i + j` from the old tile's word. -/
def MmaMode.tile (m : MmaMode) (opA opB : Nat) (old : Nat → Nat) : List Nat :=
  (natRange 0 4096).map (fun w => m.result opA opB (w / 64) (w % 64) (old w))

/-- Invalid TRI bytes this MMA decodes (R96): each counts once, byte 25 of a column included. -/
def MmaMode.triInvalid (m : MmaMode) (opB : Nat) : Nat :=
  if m.bfmt = .tri then
    (natRange 0 (64 * 26)).foldl (fun c b => if opBits opB (8 * b) 8 ≥ 243 then c + 1 else c) 0
  else 0

end Sys2Proof.Machine
end

