-- ==== Sys2Proof/Machine/State.lean ====
section
/-! DEFINITION. The state: every register, memory, queue, counter, table and pin the manual gives the package, as plain
data, and the queue of commands that wait. `State.reset` is the package right after a package reset. -/

namespace Sys2Proof.Machine

/-- The machine stops with a fault: never raised by this model. Every fault the manual describes is a change of state (a
condition code in a register, a record or a fence), so no command ends here; the constructor is the type's only one.
Safe: nothing can be proved from an outcome that never occurs. -/
inductive Fault where
  | unreachable
  deriving DecidableEq, Repr

/-- A command without a meaning. `notModelled` would name a row of the table that has none; every row has one. Safe. -/
inductive Refusal where
  | notModelled (mnemonic : String)
  deriving DecidableEq, Repr

-- the pool (R24-R36, R294-R298)

/-- STATE of a pool entry (R26). -/
inductive EntryState where
  | disabled | free | bound | reserved | retired | stripping
  deriving DecidableEq, Repr

/-- A pool entry: its state, retirement cause and owner (R33); while STRIPPING, where its path ends (R294), whether
a strip write failed (R298), whether the HDM withdrawal still runs (R324), the cause of a retirement that is not complete yet, and whether
the strip of an entry that waits for its retirement fuse is over. -/
structure PoolEntry where
  state : EntryState := .free
  cause : Nat := 0
  owner : Nat := 0
  toBound : Bool := false
  stripFailed : Bool := false
  withdrawing : Bool := false
  retireAs : Nat := 0
  stripped : Bool := false
  deriving DecidableEq, Repr

/-- The pool and its record counter (R32, R36), and the retirement fuse bank with its causes (R29). -/
structure PoolSt where
  clusters : Tab PoolEntry := []
  channels : Tab PoolEntry := []
  links : Tab PoolEntry := []
  sequence : Nat := 0
  deriving DecidableEq, Repr

-- cores and clusters (R39, R40, R78-R84, R126-R167)

/-- A result in flight (R51, R53, R83): what it writes when it lands. A store's destination is cluster memory (`none`) or
the scratchpad of a core, and masked bits of it are not written. -/
inductive LandKind where
  | scalar (r : Nat) (v : Word)
  | pred (r : Nat) (v : Word) (mask : Word)
  | vector (r : Nat) (mask : Word) (v : VWord)
  | accRow (tile row : Nat) (mask : Word) (v : VWord)
  | accTile (tile : Nat) (words : List Nat)
  | draw (s : Nat) (v : Word)
  | store (core : Option Nat) (off : Nat) (data : List Byte) (mask : List Byte)
  | counter (n : Nat) (v : Nat)
  deriving DecidableEq, Repr

/-- A landing entry, the cluster cycle in which it becomes visible, and for a store the fence epoch in which it issued (R152). -/
structure Landing where
  due : Nat
  what : LandKind
  epoch : Nat := 0
  deriving DecidableEq, Repr

/-- A local write that landed in the cluster's present cycle: where, what the bytes were, what it wrote, and the bits it
did not write. R129 places a fabric write of the same cycle before it; R66 lets an MMA that starts in it see either. -/
structure LandedRow where
  core : Option Nat
  off : Nat
  old : List Byte
  new : List Byte
  mask : List Byte
  wasPoison : Bool
  deriving DecidableEq, Repr

/-- An executing or pending MMA (R65-R67). The operands are the numbers their bytes spell; `read` is set from execution
cycle 0; `pc` is the bundle that issued it. -/
structure MmaRun where
  mode : MmaMode
  acc : Nat
  aOff : Nat
  bOff : Nat
  pc : Nat
  start : Nat := 0
  opA : Nat := 0
  opB : Nat := 0
  poisoned : Bool := false
  deriving DecidableEq, Repr

/-- Where the data of an outside read goes (R55). -/
inductive ReadDest where
  | scalar (r : Nat) (bytes : Nat) (sgn : Bool)
  | vector (r : Nat) (fmt : ElemFmt) (mask : Word)
  deriving DecidableEq, Repr

/-- A read that left the cluster and holds the next bundle (R55): `epoch` is the fence epoch that must be released before it is
sent (R156), `sent` holds from then on, once its tracker entries were free (R178), `noFill` says a FENCE.ACQ over its line followed it
(R154), `faulted` holds while a translation fault of it waits (R338), which `batch` records (R342; 0: none does). -/
structure OutRead where
  addr : Nat
  len : Nat
  dest : ReadDest
  volatile : Bool := false
  pc : Nat := 0
  rev : Nat := 0
  gen : Nat := 0
  epoch : Nat := 0
  sent : Bool := false
  noFill : Bool := false
  faulted : Bool := false
  batch : Nat := 0
  deriving DecidableEq, Repr

/-- A DMA transaction whose translation faulted (R338, R427): the faulted VA, where its bytes go, and for a fault on the write the bytes
it read. `again` once it has been issued anew; `batch` as for a read. -/
structure DmaFault where
  tx : Nat
  onWrite : Bool
  addr : Nat
  dst : Nat
  n : Nat
  data : List Byte := []
  poison : Bool := false
  again : Bool := false
  batch : Nat := 0
  deriving DecidableEq, Repr

/-- An entry of a DMA queue (R70-R74, R84). `done` lists the transactions completed, `rev` is the pattern revision under which its
transactions began to enter the mesh (R254). -/
structure DmaEntry where
  ix : Bool
  src : Nat
  dst : Nat
  len : Nat
  flags : Nat
  cnt : Nat
  pc : Nat
  epoch : Nat := 0
  started : Bool := false
  total : Nat := 0
  done : List Nat := []
  skipped : List Nat := []
  faulted : List DmaFault := []
  rev : Nat := 0
  deriving DecidableEq, Repr

/-- What a core is doing (R59, R76, R78). -/
inductive RunState where
  | idle | running | halting | stopped
  | faulted (code : Nat)
  deriving DecidableEq, Repr

/-- A core's state (R39), its in-flight work (R51, R65), its hold (R54, R55), and the fence epochs of R152: a write of epoch
`e` is held while `e > released`. A frozen core's boundary is passed once `fzDone`; `parked` then holds its in-flight
results with their RESIDUAL for a due cycle, until the first bundle after the resumption, while `resuming` (R79). `arrived` holds
the data of outside reads, which the next bundle sees (R55). -/
structure CoreSt where
  sregs : Tab Word := []
  vregs : Tab VWord := []
  pregs : Tab Word := []
  accs : Tab Nat := []
  pc : Nat := 0
  brRemain : Nat := 0
  brTarget : Nat := 0
  draws : Tab Word := []
  issued : Nat := 0
  scratch : Mem := []
  poison : List Nat := []
  imem : Tab (BitVec 256) := []
  landing : List Landing := []
  parked : List Landing := []
  resuming : Bool := false
  arrived : List LandKind := []
  fzDone : Bool := false
  mexec : Option MmaRun := none
  mpend : Option MmaRun := none
  lastVrand : Option Nat := none
  beats : List (Nat × Nat) := []
  run : RunState := .idle
  frozen : Bool := false
  nextFree : Nat := 0
  held : Option Bundle := none
  wait : List OutRead := []
  dmaq : Tab (List DmaEntry) := []
  epoch : Nat := 0
  released : Nat := 0
  globalEpoch : Nat := 0
  pendFault : Option (Nat × Nat) := none
  sampleIssued : Nat := 0
  sampleMs : Nat := 0
  deriving DecidableEq, Repr

/-- The context that a cluster hosts, as far as its cores can see it (R58, R85, R142, R417). -/
structure HostCtx where
  part : Nat
  ctx : Nat
  queue : Nat
  vd : Nat
  vc : Nat
  n : Nat
  formats : Nat
  rcache : Nat
  seed : Nat
  deriving DecidableEq, Repr

/-- A line of the cluster read cache (R144); the tag is the kind and the aligned address as one 64-bit number. -/
structure CacheLine where
  tag : Nat
  data : List Byte
  poison : Bool := false
  deriving DecidableEq, Repr

/-- A cluster (R40, R126, R143, R158), with its own CLK_CORE cycle count and the reference count of its latest cycle (R522, R523), its
operating point and issue gap (R526, R542), and the counts of R96 and R213 for its resident context. Of the present cycle it remembers the
local writes that landed, the ranges of its fences (R154), and whether a read took place (R129). -/
structure ClusterSt where
  cycle : Nat := 0
  ref : Nat := 0
  cmem : Mem := []
  poison : List Nat := []
  cnt : Tab Nat := []
  cache : List CacheLine := []
  triInvalid : Nat := 0
  nanLogits : Nat := 0
  ctx : Option HostCtx := none
  expired : Option (Nat × Nat) := none
  cores : Tab CoreSt := []
  landedNow : List LandedRow := []
  fencesNow : List (Nat × Nat) := []
  readNow : Bool := false
  op : Nat := 0
  gap : Nat := 0
  thermal : Nat := 0
  pendingOp : Option Nat := none
  deriving DecidableEq, Repr

/-- A store or MSG that left its cluster and is not yet performed (R148, R149, R152). `mask` is the bits not written; the context, VD and
virtual cluster are those it was issued under (R140). It is `sent` into the mesh once no fence holds it and a tracker entry is free, under
the revision of that time (R178, R254); once `served` its target has taken it at `place` (R255). `seen` once a cached read returned its
bytes (R147); `orphan` once the run that issued it has ended. -/
structure FabWrite where
  id : Nat
  k : CoreId
  part : Nat
  ctx : Nat := 0
  vd : Nat := 0
  vc : Nat := 0
  rev : Nat
  gen : Nat
  msg : Bool
  addr : Nat
  data : List Byte
  mask : List Byte := []
  cnt : Nat := 0
  pc : Nat := 0
  epoch : Nat := 0
  sent : Bool := false
  served : Bool := false
  place : Nat × Nat := (0, 0)
  moved : Bool := false
  faulted : Bool := false
  batch : Nat := 0
  seen : Bool := false
  orphan : Bool := false
  deriving DecidableEq, Repr

/-- A count on its way to a row counter (R159, R160). -/
structure CountMsg where
  cl : Nat
  cnt : Nat
  amount : Nat
  deriving DecidableEq, Repr

-- HBM channels (R169-R199, R322)

/-- A channel controller: its DRAM (as plaintext, R300), poison map, ECC counts, the times of each lane's latest parity errors,
refresh and RFM counts, table records, thermal limit, and the host-line directory (R322): the lines a host may hold, those of them that
it holds only shared, the lines sent BISnpInv and BISnpData, the reads (port, line) that wait to be admitted, and the writes (offset,
data, poison) that wait for lines to be given up. `ecc` names the locations that on-die ECC corrects (1) or cannot (2), and `reports` the
offsets of uncorrectable reads that are still to be posted (R173). `readData`, `readPoison`
and `readCode` are what the latest request was answered with: the code is 0 where it was served. -/
structure ChannelSt where
  mem : Mem := []
  poison : List Nat := []
  corrected : Nat := 0
  uncorrectable : Nat := 0
  parity : Tab (List Nat) := []
  refreshes : Nat := 0
  rfms : Nat := 0
  records : List (Nat × Nat × List Byte) := []
  hostLines : List Nat := []
  hostShared : List Nat := []
  bisnp : List Nat := []
  bisnpData : List Nat := []
  lineWait : List (Nat × Nat) := []
  writeWait : List (Nat × List Byte × Bool) := []
  ecc : Tab Nat := []
  reports : List Nat := []
  rateLimit : Nat := 0
  readData : List Byte := []
  readPoison : Bool := false
  readCode : Nat := 0
  deriving DecidableEq, Repr

-- the pattern (R232-R236)

/-- A link share (R235). -/
structure LinkShare where
  node : Nat
  edge : Nat
  exclusive : Bool
  modules : Nat := 0
  gbps : Nat := 0
  spill : Bool := false
  deriving DecidableEq, Repr

/-- A VD: its node, parent node (0 for the root), own clusters in virtual order, shares, routes and REASON (R234). -/
structure VdNode where
  node : Nat
  parent : Nat := 0
  clusters : List Nat := []
  links : List LinkShare := []
  route03 : Bool := false
  route12 : Bool := false
  reason : Nat := 0
  deriving DecidableEq, Repr

/-- A channel group (`chans` not empty) or a vacant range, in PLA order (R235, R244). -/
structure PlaItem where
  node : Nat
  base : Nat
  chans : List Nat := []
  vacLen : Nat := 0
  deriving DecidableEq, Repr

/-- A pattern: VDs in creation order, the PLA map and its top (R233, R236, R244). -/
structure Pattern where
  vds : List VdNode := []
  map : List PlaItem := []
  top : Nat := 0
  deriving DecidableEq, Repr

/-- A VD_COMMIT (or whole-device command) that has not published yet (R253); `checked` once the check of R252 has passed, `frozen` from
its step 3 on; `whole`
lists the entries a take adds (R267). -/
structure CommitRun where
  ch : Nat
  checked : Bool := true
  frozen : Bool := false
  take : Bool := false
  whole : List (Nat × Nat) := []
  deriving DecidableEq, Repr

-- objects (R376-R415)

/-- A packet in progress: `resident` once a LAUNCH or GENERATE has started, `waiting` while it waits for a cause of R421, `order`
the place in which it started (R391), `entries` the cores its image names (virtual cluster, core, ENTRY_PC), `image` the image
bytes until they are loaded, `plaMin` and `linkMin` the image's needs (R85), `forN` the cluster count of the VD for which the image was
chosen (R264), `batch` the fault batch that records an access of its sequencer or hub agent (0: none). -/
structure PacketRun where
  typ : Nat
  slot : Nat
  bytes : List Byte
  doneFence : Nat
  doneValue : Nat
  objRef : Nat := 0
  resident : Bool := false
  waiting : Bool := false
  order : Nat := 0
  entries : List (Nat × Nat × Nat) := []
  image : List Byte := []
  plaMin : Nat := 0
  linkMin : Nat := 0
  forN : Nat := 0
  batch : Nat := 0
  deriving DecidableEq, Repr

/-- A work queue or control queue as the hub holds it (R385). -/
structure QueueSt where
  enabled : Bool := false
  stopped : Bool := false
  reason : Nat := 0
  ring : Nat := 0
  entries : Nat := 0
  head : Nat := 0
  tail : Nat := 0
  stopAt : Nat := 0
  cur : Option PacketRun := none
  ctl : List Nat := []
  headAt : Nat := 0
  deriving DecidableEq, Repr

/-- An event record before it has a place in a ring (R405). -/
structure EvRecord where
  evq : Nat
  typ : Nat
  source : Nat
  code : Nat
  ctx : Nat
  data : List Byte
  deriving DecidableEq, Repr

/-- An event queue (R404, R407, R410): `claimed` and `completed` list absolute record numbers not yet passed by CONSUMER. -/
structure EvqSt where
  enabled : Bool := false
  fast : Bool := false
  reason : Nat := 0
  ring : Nat := 0
  entries : Nat := 0
  producer : Nat := 0
  consumer : Nat := 0
  lost : Nat := 0
  targets : Nat := 0
  ctx : Nat := 0xFFFF
  bad : Nat := 0
  lostBefore : Bool := false
  claimed : List Nat := []
  completed : List Nat := []
  deriving DecidableEq, Repr

/-- The slow-down report's counts (R431-R433), at the last evaluation and now, and when the last event was posted. -/
structure SlowSt where
  measured : Nat := 0
  tension : Nat := 0
  fabric : Nat := 0
  kv : Nat := 0
  mMeasured : Nat := 0
  mTension : Nat := 0
  mFabric : Nat := 0
  mKv : Nat := 0
  ratio : Nat := 0
  events : Nat := 0
  lastEvent : Option Nat := none
  deriving DecidableEq, Repr

/-- Statistics (R384). -/
structure StatSt where
  done : Nat := 0
  tri : Nat := 0
  nan : Nat := 0
  draftIgnored : Nat := 0
  slow : SlowSt := {}
  deriving DecidableEq, Repr

/-- A kept draft node (R217, R218): slot, token, Q, parent kept index (0 for none), node number from 1. -/
structure Draft where
  slot : Nat
  token : Nat
  q : Nat
  parent : Nat
  node : Nat
  deriving DecidableEq, Repr

/-- A plan row (R207). -/
structure PlanRow where
  token : Nat
  position : Nat
  slot : Nat
  kind : Nat
  parent : Nat
  logitRow : Nat
  q : Nat := 0
  node : Nat := 0
  deriving DecidableEq, Repr

/-- GENERATE loop state (R200-R227): where the loop stands, the plan, drafts, slot rotation, each slot's last seven
tokens, the head, and records that wait for ring space. -/
structure GenSt where
  queue : Nat
  payload : List Byte
  step : Nat := 0
  inStep : Bool := false
  ringWait : Bool := false
  keepWait : Bool := false
  lastDecode : Nat := 0
  lastChunk : Option Nat := none
  drafts : List Draft := []
  plan : List PlanRow := []
  chunkSlot : Nat := 0xFFFF
  seqs : Tab (List Byte) := []
  seen : List Nat := []
  recent : Tab (List Nat) := []
  head : Nat := 0
  records : List (List Byte) := []
  ended : List Nat := []
  deriving DecidableEq, Repr

/-- A context (R382): its fields, queues, teardown step, residency (R417-R421), kept draw counters and ISSUED counts (R566),
statistics, loop state and the loop state before the step in progress (R262), and whether saved state lies in its save object
(R423): `savedCls` and `savedWrites` keep of a save what the layouts of R82-R84 and R425-R427 give no byte for. `faulted` is the code
of a fault that arose while the context froze (R81), `sliceOver` a slice that ended while a commit held its VD frozen (R430). -/
structure CtxSt where
  state : Nat := 0
  vd : Nat := 0
  xs1 : Nat := 0
  xg : Nat := 0
  seed : Nat := 0
  queues : Nat := 0
  reason : Nat := 0
  slice : Nat := 0
  label : Nat := 0
  qs : Tab QueueSt := []
  abortStep : Nat := 0
  resident : Bool := false
  residentVd : List Nat := []
  sliceFrom : Nat := 0
  switching : Nat := 0
  frozen : Bool := false
  saved : Bool := false
  savedCls : List ClusterSt := []
  savedWrites : List FabWrite := []
  faultWait : Bool := false
  faulted : Option Nat := none
  sliceOver : Bool := false
  draws : Tab Word := []
  issuedKeep : Tab Nat := []
  stats : StatSt := {}
  genr : Option GenSt := none
  genrBefore : Option GenSt := none
  deriving DecidableEq, Repr

/-- A translation fault record (R341) and the access it stands for. -/
structure FaultRec where
  cause : Nat
  flags : Nat
  vaddr : Nat
  gpa : Nat
  ctx : Nat
  vc : Nat
  core : Nat
  source : Nat
  code : Nat
  deriving DecidableEq, Repr

/-- A fault batch: open while `number` is none (R339-R341). `serial` counts a partition's batches from 1 as they open; an access whose fault a
batch records names the batch by it (R342). -/
structure FaultBatch where
  serial : Nat := 0
  number : Option Nat := none
  ctx : Nat
  batched : Bool
  openedAt : Nat := 0
  recs : List FaultRec := []
  deriving DecidableEq, Repr

/-- A cached translation, tagged by VMID, ASID and G within its partition (R331), with the stages it went through, the memory type and the
bits of the page's size. -/
structure TlbEntry where
  vmid : Nat
  asid : Nat
  g : Bool
  firstStage : Bool
  vpn : Nat
  ppn : Nat
  twoStage : Bool
  canWrite : Bool
  pbmt : Nat
  bits : Nat
  deriving DecidableEq, Repr

/-- An INVAL_TRANSLATION in progress or a page-table walk that waits is named by its queue; the directory of R380. -/
structure DirSt where
  base : Nat
  fences : Nat
  memobjs : Nat
  deriving DecidableEq, Repr

/-- The 64-byte partition descriptor (R277), less the fields kept elsewhere. -/
structure PartDesc where
  ownerPort : Nat := 0
  enable : Bool := false
  keyActive : Bool := false
  reason : Nat := 0
  ctxMax : Nat := 0
  clusterCap : Nat := 0
  channelCap : Nat := 0
  linkCap : Nat := 0
  controlQueue : Nat := 0
  eventQueue : Nat := 0
  faultQueue : Nat := 0
  slowdown : Nat := 0
  deriving DecidableEq, Repr

/-- PSTATE (R284). -/
inductive PState where
  | absent | disabled | enabled | frozen | resetting | destroying
  deriving DecidableEq, Repr

/-- A tension table in the form TENSION_SET gives it (R447), and the shortfall counters (R451, R459). -/
structure TensionSt where
  inForce : Bool := false
  format : Nat := 0
  reason : Nat := 0
  hostAllow : Nat := 0
  kvAllow : Nat := 0
  mstopAllow : Nat := 0
  labels : List (List Byte) := []
  shortWindows : Tab Nat := []
  shortBytes : Tab Nat := []
  lastNotice : Option Nat := none
  deriving DecidableEq, Repr

/-- A migration session (R439): RC_ID and the sealed decapsulation key's handle. -/
structure MigSt where
  rcId : List Byte
  key : Nat
  deriving DecidableEq, Repr

/-- A partition. `incoming` lists the contexts for which another is being switched out (R424); `freezing` is the channel whose PART_FREEZE
waits for its step 2 (R437); `teardownStep` the last step of R299 that has ended, `teardownCh` the channel that waits for its step 6. -/
structure PartSt where
  pstate : PState := .absent
  desc : PartDesc := {}
  generation : Nat := 0
  pat : Pattern := {}
  stage : Option Pattern := none
  stageRelease : List (Nat × Nat × Bool) := []
  stageSeq : Nat := 0
  revision : Nat := 0
  prev : Option Pattern := none
  windowClosedAt : Option Nat := none
  movedLast : Nat := 0
  refusedLast : Nat := 0
  commit : Option CommitRun := none
  leaving : List (Nat × Nat × Bool) := []
  takeSet : List (Nat × Nat) := []
  dir : Option DirSt := none
  gens : Tab Nat := []
  zeroing : Tab Nat := []
  lastDrop : Tab Nat := []
  ctxs : Tab CtxSt := []
  cq : QueueSt := {}
  evqs : Tab EvqSt := []
  held : List EvRecord := []
  runnable : List Nat := []
  incoming : List Nat := []
  startOrder : Nat := 0
  tension : TensionSt := {}
  batches : List FaultBatch := []
  faultHeld : List (List Byte) := []
  nextBatch : Nat := 1
  nextSerial : Nat := 1
  faultIgnored : Nat := 0
  dropped : Nat := 0
  hdmRefused : Nat := 0
  tlb : List TlbEntry := []
  mig : Option MigSt := none
  freezing : Option Nat := none
  teardownStep : Nat := 0
  teardownCh : Option Nat := none
  restrip : List (Nat × Nat) := []
  lostReset : Bool := false
  badPacket : Bool := false
  badEvent : Bool := false
  badFence : Bool := false
  deriving DecidableEq, Repr

-- the KV service (R268-R275)

/-- A KV slot: `places` are the blocks of its channel that it holds, in order; a strip of them that failed (R298). -/
structure KvSlot where
  gen : Nat := 0
  lostGens : List Nat := []
  live : Bool := false
  channel : Nat := 0
  places : List Nat := []
  owner : Nat := 0
  grants : List (Nat × Nat) := []
  sealed : Bool := false
  stripping : Bool := false
  stripFailed : Bool := false
  deriving DecidableEq, Repr

/-- The service: slots, whether it is up, its key's generation (R301), and channels that failed. -/
structure KvSt where
  slots : Tab KvSlot := []
  up : Bool := true
  keyGen : Nat := 0
  failed : List Nat := []
  deriving DecidableEq, Repr

-- host ports and admin channels (R307-R366)

/-- An admin channel (R345, R346): buffers, status fields, and the accepted copy while RUNNING. -/
structure AdmSt where
  cmd : Mem := []
  reply : List Byte := []
  accepted : Nat := 0
  lastRing : Nat := 0
  replyStatus : Nat := 0xFF
  running : Bool := false
  deviceBusy : Bool := false
  replyValid : Bool := false
  droppedBusy : Nat := 0
  droppedForm : Nat := 0
  copy : List Byte := []
  started : Bool := false
  busyClass : Bool := false
  report : List Byte := []
  reportPart : Nat := 0xFF
  deriving DecidableEq, Repr

/-- A host port: modules (R309, R315), the port event queue (R319), the HDM base (R320), stray count, lines held under R325 with the time
each was taken,
host memory as the device reaches it, the last CXL.mem read, and VFs whose function-level reset has not yet been reported complete. -/
structure PortSt where
  modules : Nat := 0
  outModules : Nat := 0
  failed : Bool := false
  stray : Nat := 0
  peqRing : Nat := 0
  peqEnable : Bool := false
  peqLog2 : Nat := 0
  peqProducer : Nat := 0
  peqConsumer : Nat := 0
  peqLost : Nat := 0
  peqLostBefore : Bool := false
  hdmBase : Option Nat := none
  numVfs : Nat := 0
  flrs : List Nat := []
  heldLines : List (Nat × Nat) := []
  mem : Mem := []
  poison : List Nat := []
  readData : List Byte := []
  readPoison : Bool := false
  claimValue : Nat := 0xFFFFFFFF
  deriving DecidableEq, Repr

/-- An MSI-X vector raised: port, function (0 for PF0, n + 1 for the VF of Pn), vector (R318). -/
structure Msix where
  port : Nat
  fn : Nat
  vector : Nat
  deriving DecidableEq, Repr

/-- An entry of an MSI-X table (R313, R314, R318): the message's address and data, and the vector's Mask bit, which is 1 after reset (the
PCIe rules that R318 names; log entry 30). -/
structure MsiEntry where
  addr : Nat := 0
  data : Nat := 0
  mask : Bool := true
  deriving DecidableEq, Repr

/-- A message a function has sent to its host: port, address and data. -/
structure MsiMessage where
  port : Nat
  addr : Nat
  data : Nat
  deriving DecidableEq, Repr

/-- The MSI-X tables of every function by `Msix.key`, the pending bits, and the messages sent. -/
structure MsiSt where
  tab : Tab MsiEntry := []
  pend : List Msix := []
  sent : List MsiMessage := []
  deriving DecidableEq, Repr

-- walkers, trackers (R178, R179, R332)

/-- A miss that a walker serves, or that waits for one (R332): a page of a context, for reading or writing. `ended` once its walk has
ended. -/
structure WalkReq where
  part : Nat
  ctx : Nat
  vpn : Nat
  write : Bool
  ended : Bool := false
  deriving DecidableEq, Repr

/-- Page-table walkers of one pool: the miss each busy walker serves, and the misses that wait, oldest first. -/
structure WalkPool where
  busy : List WalkReq := []
  waiting : List WalkReq := []
  lastServed : Nat := 0
  deriving DecidableEq, Repr

/-- A die's transaction tracker (R178, R475): the generation of each entry's tag. Which transactions hold entries, and which wait for one,
the transactions themselves say (`sent`). -/
structure TrackSt where
  tags : Tab Nat := []
  deriving DecidableEq, Repr

-- tension regulators (R452-R459)

/-- One label's figures at a regulator, in one direction where it counts them apart, and apart for best-effort traffic beyond a share (R247,
R249): the MODE, budget and cap of the table it applies in this window, in bytes (R448, R460), its latency target, state (0 UNDER, 1 OVER, 2
CAPPED), the bytes served in the present window, debt and MODE 2 level (R452, R453, R456). -/
structure LabelSt where
  part : Nat
  label : Nat
  up : Bool := false
  spill : Bool := false
  mode : Nat := 0
  budget : Nat := 0
  cap : Nat := 0
  lat : Nat := 0
  state : Nat := 1
  served : Nat := 0
  debt : Nat := 0
  level : Nat := 1
  deriving DecidableEq, Repr

/-- What a source last heard of a label from a regulator: its state and queue level, and the level and rate, in sixteenths, at which it
issues (R453, R454); `chance` counts its chances to issue. -/
structure SentSt where
  src : Nat
  part : Nat
  label : Nat
  up : Bool := false
  spill : Bool := false
  state : Nat := 1
  q : Nat := 0
  level : Nat := 0
  rate : Nat := 16
  chance : Nat := 0
  deriving DecidableEq, Repr

/-- A request in a regulator's queue: the participant of R455's rotation (a partition, or 64 for management), its label, direction and whether
it is best-effort traffic of a share; and whether its age makes it level 8. -/
structure RegReq where
  part : Nat
  label : Nat
  up : Bool := false
  spill : Bool := false
  aged : Bool := false
  deriving DecidableEq, Repr

/-- A regulator: labels, the bytes of management traffic served in the window (R446), queue level, its queue in arrival order and the
participant that level 0's rotation serves next (R455), consecutive short windows, the scale of R458 as a ratio, the cut of levels 0-7, and
what each source last heard of it. -/
structure RegSt where
  labels : List LabelSt := []
  mgtServed : Nat := 0
  queueLevel : Nat := 0
  shortRun : Nat := 0
  scaleNum : Nat := 1
  scaleDen : Nat := 1
  cutLow : Bool := false
  sent : List SentSt := []
  queue : List RegReq := []
  turn : Nat := 0
  deriving DecidableEq, Repr

-- recovery (R463-R493)

/-- A domain that is down: what it is, which step of R471 it is in (1 tape-off, 3 dump, 4 reset, 5 clearing; 9 held after
DUMP_COLLECT), how it began (0 DUMP_COLLECT, 1 DOMAIN_RECOVER, 2 by the device, 3 the retirement of a bound cluster) and with what code,
its dump and that dump's log entry, the channels that wait for a reply, the units of a dump that did not answer, the hub's count at
t0, the VDs notified, the units (kind, index, channel) retired at its end, and for its dump its clusters as they stood at the end of the
tape-off (R491). -/
structure DomainRun where
  dom : Domain
  step : Nat := 1
  origin : Nat := 2
  code : Nat := 0
  dump : Bool := false
  dumpId : Nat := 0
  logSeq : Nat := 0
  waiters : List Nat := []
  silent : List Nat := []
  startedAt : Nat := 0
  notified : List (Nat × Nat) := []
  stood : Tab ClusterSt := []
  retire : List (Nat × Nat × Nat) := []
  deriving DecidableEq, Repr

/-- A stored dump (R490), and the management channels that hold it; none for the hub's SRAM. -/
structure Dump where
  id : Nat
  bytes : List Byte
  chans : List Nat := []
  deriving DecidableEq, Repr

/-- Recovery: domains that are down, modules that left their edge (R477), the counters and setting of R487, dumps (R490), units whose
retirement fuse is being blown (kind, index, channel that waits or 0xFF), failed starts (R483), and the times of each cluster's latest
FABRIC_TIMEOUT answers (R464). -/
structure RecSt where
  domains : List DomainRun := []
  linkOut : List Nat := []
  stitches : Tab Nat := []
  l1Count : Nat := 0
  l2Count : Nat := 0
  nested : Nat := 0
  timeouts : Nat := 0
  watchdogCount : Nat := 0
  watchdogMs : Nat := 50
  dumps : List Dump := []
  nextDump : Nat := 1
  retiring : List (Nat × Nat × Nat) := []
  failedStarts : Nat := 0
  clusterTimeouts : Tab (List Nat) := []
  deriving DecidableEq, Repr

-- management (R495-R520)

/-- A firmware slot (R502, R511): 0 EMPTY, 1 STAGING, 2 STAGED, 3 ACTIVE, 4 INACTIVE, 5 INVALID. -/
structure FwSlot where
  state : Nat := 0
  image : List Byte := []
  deriving DecidableEq, Repr

/-- A management core (R495): whether it runs, and the address in management SRAM at which it was last started (R559). -/
structure McSt where
  running : Bool := false
  entry : Nat := 0
  deriving DecidableEq, Repr

/-- Firmware, identity and reports: the slots, the two copies of the boot record as flash holds them (R560; empty: blank), the staging
session, versions, measurements (R517), the identity leaf being blown with the attempts made, and what the key store holds of the boot's
lower tree: its seed and identifier, its public key and the top leaf's signature of that (R513). -/
structure FwSt where
  slotA : FwSlot := { state := 3, image := Config.factoryImage }
  slotB : FwSlot := {}
  runSlot : Nat := 0
  bootA : List Byte := []
  bootB : List Byte := []
  stageOwner : Option Nat := none
  stageAt : Nat := 0
  fusedSvn : Nat := 0
  seqVersion : Tab Nat := []
  seqDigest : Tab (List Byte) := []
  meas1 : List Byte := []
  meas2 : List Byte := []
  handover : Option Nat := none
  leafFuses : Nat := 0
  leafTry : Option (Nat × Nat) := none
  bootLeaf : Option Nat := none
  lowerLeaf : Nat := 0
  lowerSeed : List Byte := []
  lowerId : List Byte := []
  lowerPub : List Byte := []
  topSig : List Byte := []
  nextSession : Nat := 1
  svnCh : Option Nat := none
  deriving DecidableEq, Repr

/-- A sealed-transfer session (R303, R304, R519); `closed` while a COPY that began before its end still uses its key (R520). -/
structure Session where
  id : Nat
  part : Nat
  secret : List Byte
  sealCount : Nat := 0
  openCount : Option Nat := none
  closed : Bool := false
  deriving DecidableEq, Repr

/-- The interrupt controller of the management cores (R497, R498): sources 7-10 are of the fast class after reset. -/
structure IrqSt where
  cfg : Tab Nat := [(7, 0x10), (8, 0x10), (9, 0x10), (10, 0x10)]
  pending : List Nat := []
  claimed : List (Nat × Nat) := []
  again : List Nat := []
  lines : List (Nat × Bool) := []
  lastClaim : Nat := 0xFFFFFFFF
  deriving DecidableEq, Repr

/-- The event log (R500, R501): the ring, newest last, as 64-byte entries, and what the flash holds. -/
structure LogSt where
  ring : List (List Byte) := []
  next : Nat := 0
  second : Nat := 0
  suppressed : Nat := 0
  flash : List (List Byte) := []
  reserved : Nat := 0
  boot : Nat := 0
  uncopied : Nat := 0
  deriving DecidableEq, Repr

/-- Sensors (R371, R499, R530, R536): rounds completed, each point's last reading in 1/64 degree (none: no reading in the last round), the
rounds for which a point gave none, points logged as invalid, points at or above 110 degrees, and the rails' last means. -/
structure SensorSt where
  rounds : Nat := 0
  temps : Tab (Option Int) := []
  invalidRuns : Tab Nat := []
  loggedInvalid : List Nat := []
  hot110 : List Nat := []
  rails : List RailReading := []
  deriving DecidableEq, Repr

/-- Power and clocks (R524-R545). Powers are in units of 0.1 W, caps in watts (0 for none); `window` holds the input power of the last
100 intervals of 10 us, newest last; `capOver`, `under`, `differ`, `agree` and `sane` count intervals; energy is in microjoules; `vtrim` is
in steps of 5 mV, `rails` in millivolts. -/
structure PowerSt where
  bcCap : Nat := 0
  pmCap : Nat := 0
  freqMode : Nat := 1
  level : Nat := 0
  estimate : Nat := 0
  window : List Nat := []
  capUnmet : Bool := false
  untrusted : Bool := false
  implausible : Bool := false
  capOver : Nat := 0
  under : Nat := 0
  differ : Nat := 0
  agree : Nat := 0
  sane : Nat := 0
  energyUj : Nat := 0
  substUs : Nat := 0
  vtrim : Tab Int := []
  rails : Tab Nat := []
  pllLocked : Bool := true
  deriving DecidableEq, Repr

/-- Where the package stands (R556, R557, R561). -/
inductive Phase where
  | off            -- no 36 V input, or the regulators stopped
  | tripped        -- every clock stopped (R537)
  | overvoltage    -- stopped until VIN36 falls below 40 V
  | held           -- rails up, reset held (RST_N low, or a start not yet begun)
  | release        -- RELEASE mode
  | bootCode       -- first-stage boot code runs (step 5)
  | identity       -- locked; an identity leaf is being blown (step 6)
  | ready          -- admin-ready
  | stuck          -- locked, but both firmware slots failed their check (R510)
  | dead           -- three failed starts (R483), or a second rail failure
  deriving DecidableEq, Repr

/-- Pins of the board side (R551); FAULT_N is a view of the rest of the state (R484). -/
structure PinSt where
  pgood : Bool := true
  thermtripN : Bool := true
  rstN : Bool := true
  deriving DecidableEq, Repr

/-- An MCTP message that the device has sent: the endpoint it goes to, the message tag of the request, and its bytes (R365). -/
structure BcMsg where
  dst : Nat
  tag : Nat
  bytes : List Byte
  deriving DecidableEq, Repr

/-- The I3C target and its MCTP endpoint (R364, R365, R563): `asked` and `reply` are the endpoint and message tag of the latest request,
and of the one whose command runs; `ibi` is the in-band interrupt that announces a pending packet. -/
structure BcSt where
  address : Option Nat := none
  hotJoin : Bool := false
  eid : Nat := 0
  asked : Nat × Nat := (0, 0)
  reply : Nat × Nat := (0, 0)
  out : List BcMsg := []
  ibi : Bool := false
  ctlReply : List Byte := []
  deriving DecidableEq, Repr

/-- The protection set-up (R285, R286): the 128 bytes of registers, LOCK and REASON among them. -/
structure PrsSt where
  regs : List Byte := List.replicate 128 0#8
  deriving DecidableEq, Repr

/-- The manufacturing and retirement fuses (R496): the top-tree identity seed, serial, ordering code, stepping, disabled units, retired units
with their causes, and each core's fused maximum frequency in kHz, by 32 x cluster + core (R533); the enterprise number of R365. -/
structure FuseSt where
  topSeed : List Byte := Config.topSeed
  serial : Nat := 1
  orderCode : Nat := 4
  stepping : Nat := 0x0100
  disabledClusters : List Nat := []
  disabledChannels : List Nat := []
  disabledLinks : List Nat := []
  retired : List (Nat × Nat × Nat) := []
  fmaxKhz : Tab Nat := []
  iana : Nat := 0
  deriving DecidableEq, Repr

/-- The whole package, and the commands that wait, first in first out. -/
structure State where
  pending : List Instr := []
  ticks : Nat := 0
  freeCtr : Nat := 0
  phase : Phase := .held
  boot : StartInfo := { bootSrc := 0, bootArea := [] }
  faultHold : Bool := false
  railFailed : Bool := false
  pins : PinSt := {}
  fuses : FuseSt := {}
  prs : PrsSt := {}
  pool : PoolSt := {}
  clusters : Tab ClusterSt := []
  channels : Tab ChannelSt := []
  ports : Tab PortSt := []
  adm : Tab AdmSt := []
  hubOrder : List Nat := []
  parts : Tab PartSt := []
  kv : KvSt := {}
  writes : List FabWrite := []
  counts : List CountMsg := []
  nextWrite : Nat := 0
  walkers : Tab WalkPool := []
  trackers : Tab TrackSt := []
  regulators : Tab RegSt := []
  recov : RecSt := {}
  fw : FwSt := {}
  sessions : List Session := []
  irq : IrqSt := {}
  log : LogSt := {}
  sensors : SensorSt := {}
  power : PowerSt := {}
  bc : BcSt := {}
  msix : List Msix := []
  msi : MsiSt := {}
  mgtWatch : Nat := 0
  mgtRefused : Nat := 0
  mgtSram : Mem := []
  mgtCores : Tab McSt := []
  mgtData : List Byte := []
  jtagServed : Bool := false
  deriving DecidableEq, Repr

/-- The package right after a package reset: RST_N released, the rails up, no start step yet run. Every register of the
manual's maps has the value of its Reset column (R9); the values the manual does not give are named in the log. -/
def State.reset : State := {}

end Sys2Proof.Machine
end

