-- ==== Sys2Proof/Machine/Ops.lean ====
section
/-! DEFINITION. Named operations over the state: reaching a unit's sub-state and putting it back, free values, times, and
the unit names of the pool (R20). -/

namespace Sys2Proof.Machine

-- reaching a unit and putting it back

/-- Cluster `i`. -/
def State.cl (s : State) (i : Nat) : ClusterSt := tabGet {} s.clusters i
/-- Put cluster `i` back. -/
def State.setCl (s : State) (i : Nat) (c : ClusterSt) : State := { s with clusters := tabSet s.clusters i c }
/-- Change cluster `i`. -/
def State.updCl (s : State) (i : Nat) (f : ClusterSt → ClusterSt) : State := s.setCl i (f (s.cl i))
/-- Core `k` of a cluster. -/
def ClusterSt.co (c : ClusterSt) (k : Nat) : CoreSt := tabGet {} c.cores k
/-- Put core `k` of a cluster back. -/
def ClusterSt.setCo (c : ClusterSt) (k : Nat) (x : CoreSt) : ClusterSt := { c with cores := tabSet c.cores k x }
/-- Change core `k` of a cluster. -/
def ClusterSt.updCo (c : ClusterSt) (k : Nat) (f : CoreSt → CoreSt) : ClusterSt := c.setCo k (f (c.co k))
/-- A core. -/
def State.core (s : State) (k : CoreId) : CoreSt := (s.cl k.cl).co k.core
/-- Change a core. -/
def State.updCore (s : State) (k : CoreId) (f : CoreSt → CoreSt) : State := s.updCl k.cl (fun c => c.updCo k.core f)
/-- Channel `i`. -/
def State.chan (s : State) (i : Nat) : ChannelSt := tabGet {} s.channels i
/-- Change channel `i`. -/
def State.updChan (s : State) (i : Nat) (f : ChannelSt → ChannelSt) : State :=
  { s with channels := tabSet s.channels i (f (s.chan i)) }
/-- Partition `p`. -/
def State.part (s : State) (p : Nat) : PartSt := tabGet {} s.parts p
/-- Change partition `p`. -/
def State.updPart (s : State) (p : Nat) (f : PartSt → PartSt) : State := { s with parts := tabSet s.parts p (f (s.part p)) }
/-- Context `c` of a partition. -/
def PartSt.ctx (p : PartSt) (c : Nat) : CtxSt := tabGet {} p.ctxs c
/-- Context `c` of partition `p`. -/
def State.ctx (s : State) (p c : Nat) : CtxSt := (s.part p).ctx c
/-- Change a context. -/
def State.updCtx (s : State) (p c : Nat) (f : CtxSt → CtxSt) : State :=
  s.updPart p (fun x => { x with ctxs := tabSet x.ctxs c (f (x.ctx c)) })
/-- Work queue `q` of a context. -/
def CtxSt.queue (c : CtxSt) (q : Nat) : QueueSt := tabGet {} c.qs q
/-- A work queue. -/
def State.queue (s : State) (p c q : Nat) : QueueSt := (s.ctx p c).queue q
/-- Change a work queue. -/
def State.updQueue (s : State) (p c q : Nat) (f : QueueSt → QueueSt) : State :=
  s.updCtx p c (fun x => { x with qs := tabSet x.qs q (f (x.queue q)) })
/-- Event queue `q` of a partition. -/
def PartSt.evq (p : PartSt) (q : Nat) : EvqSt := tabGet {} p.evqs q
/-- Change an event queue. -/
def State.updEvq (s : State) (p q : Nat) (f : EvqSt → EvqSt) : State :=
  s.updPart p (fun x => { x with evqs := tabSet x.evqs q (f (x.evq q)) })
/-- Host port `i`. -/
def State.port (s : State) (i : Nat) : PortSt := tabGet {} s.ports i
/-- Change a host port. -/
def State.updPort (s : State) (i : Nat) (f : PortSt → PortSt) : State :=
  { s with ports := tabSet s.ports i (f (s.port i)) }
/-- Admin channel `i`: host ports 0-3, the BC's 4. -/
def State.admch (s : State) (i : Nat) : AdmSt := tabGet {} s.adm i
/-- Change an admin channel. -/
def State.updAdm (s : State) (i : Nat) (f : AdmSt → AdmSt) : State := { s with adm := tabSet s.adm i (f (s.admch i)) }
/-- Pool entry of cluster `i`. -/
def State.clEntry (s : State) (i : Nat) : PoolEntry := tabGet {} s.pool.clusters i
/-- Pool entry of channel `i`. -/
def State.chEntry (s : State) (i : Nat) : PoolEntry := tabGet {} s.pool.channels i
/-- Pool entry of link module `i`. -/
def State.lmEntry (s : State) (i : Nat) : PoolEntry := tabGet {} s.pool.links i

/-- A pool entry by kind (1 cluster, 2 channel, 3 link module) and index. -/
def State.entry (s : State) (kind i : Nat) : PoolEntry :=
  if kind = 1 then s.clEntry i else if kind = 2 then s.chEntry i else s.lmEntry i

/-- Change a pool entry; a change of its STATE or OWNER counts in INV_SEQUENCE (R36). -/
def State.updEntry (s : State) (kind i : Nat) (f : PoolEntry → PoolEntry) : State :=
  let old := s.entry kind i
  let new := f old
  let p := s.pool
  let p := if kind = 1 then { p with clusters := tabSet p.clusters i new }
    else if kind = 2 then { p with channels := tabSet p.channels i new }
    else { p with links := tabSet p.links i new }
  let moved := decide (old.state ≠ new.state) || decide (old.owner ≠ new.owner)
  { s with pool := if moved then { p with sequence := (p.sequence + 1) % 2 ^ 32 } else p }

/-- Core `i` of cluster `ci` as a unit name, for indices in range. -/
def coreIdOf (ci i : Nat) : Option CoreId :=
  if h : ci < 192 then (if g : i < 32 then some ⟨⟨ci, h⟩, ⟨i, g⟩⟩ else none) else none

-- free values and time

/-- A free number, and the state that has drawn it (log entry 3). -/
def State.fresh (s : State) : Nat × State := (Config.freeNat s.freeCtr, { s with freeCtr := s.freeCtr + 1 })

/-- The divider of an operating point (R525). -/
def opDivider (op : Nat) : Nat :=
  match op with
  | 0 => 6 | 1 => 7 | 2 => 8 | 3 => 9 | 4 => 10 | 5 => 12 | 6 => 16 | _ => 24

/-- A cluster's CLK_CORE has an edge in the tick that ends at reference count `t + 1` (R525). -/
def coreEdge (op t : Nat) : Bool := decide (6 * t / opDivider op < 6 * (t + 1) / opDivider op)

/-- The reference count at which a cluster's next CLK_CORE edge lies after `t`. -/
def nextEdge (op t : Nat) : Nat := ceilDiv ((6 * t / opDivider op + 1) * opDivider op) 6

/-- The reference count of compute die `d` at 1.7 GHz (R58, R405, R523): each die counts from a start of its own. -/
def State.dieCycles (s : State) (d : Nat) : Nat := Config.dieStart d + s.ticks
/-- The hub's CLK_FAB count, 850 MHz (R405, R524). -/
def State.hubCycles (s : State) : Nat := s.ticks / 2
/-- Nanoseconds since reset. -/
def State.ns (s : State) : Nat := s.ticks * 10 / 17
/-- Milliseconds since reset. -/
def State.ms (s : State) : Nat := s.ticks / 1700000

-- unit names (R20)

/-- The die of a cluster. -/
def clDie (i : Nat) : Nat := i / 48
/-- The reference count of its die in a cluster's latest cycle: what its cores read (R58). DESIGN CHOICE (log entry 1): clusters run apart
from one another in the order of the commands, each in its own time, and the package's count is at least that of every cluster that has run.
-/
def State.clusterCycles (s : State) (i : Nat) : Nat := Config.dieStart (clDie i) + (s.cl i).ref
/-- The die of a channel. -/
def chDie (i : Nat) : Nat := i / 80
/-- The hub is out of reset and clocked (R524, R537, R553, R556, R557): in every other phase nothing of the part runs. -/
def State.hubRuns (s : State) : Bool :=
  match s.phase with
  | .bootCode | .identity | .ready | .stuck => true
  | .off | .tripped | .overvoltage | .held | .release | .dead => false

/-- What the part does by itself or is asked to do, while it runs; at other times nothing happens. -/
def State.whileUp (s : State) (f : State → State) : State := if s.hubRuns then f s else s

/-- The edge of a link module. -/
def lmEdge (i : Nat) : Nat := i / 6
/-- The two dies an edge joins: E01, E23, E02, E13. -/
def edgeDies : Nat → Nat × Nat
  | 0 => (0, 1) | 1 => (2, 3) | 2 => (0, 2) | _ => (1, 3)
/-- The modules of an edge that a mask names (R235). -/
def maskModules (edge mask : Nat) : List Nat :=
  ((natRange 0 6).filter (fun i => mask.testBit i)).map (fun i => 6 * edge + i)

/-- A state an entry in service may have (R26). -/
def PoolEntry.inService (e : PoolEntry) : Bool :=
  match e.state with
  | .free | .bound | .reserved | .stripping => true
  | .disabled | .retired => false

/-- A unit is out of service for good: RETIRED, or on its way there until its retirement fuse reads blown (R29, R493, R496). -/
def PoolEntry.isOut (e : PoolEntry) : Bool :=
  match e.state with
  | .retired => true
  | .free | .bound | .reserved => decide (e.retireAs ≠ 0)
  | .disabled | .stripping => false

-- recovery domains (R463, R465)

/-- The cluster belongs to the domain. -/
def domHasCluster (d : Domain) (cl : Nat) : Bool :=
  match d with
  | .l1 c => decide (c.val = cl)
  | .l2 x => decide (x.val = clDie cl)
/-- The channel belongs to the domain. -/
def domHasChannel (d : Domain) (ch : Nat) : Bool :=
  match d with
  | .l1 _ => false
  | .l2 x => decide (x.val = chDie ch)
/-- The die is the domain. -/
def domIsDie (d : Domain) (die : Nat) : Bool :=
  match d with
  | .l1 _ => false
  | .l2 x => decide (x.val = die)

/-- The cluster is taped off; one that was retired under a pattern stays so (R493, log entry 22). -/
def State.clTaped (s : State) (cl : Nat) : Bool :=
  s.recov.domains.any (fun r => domHasCluster r.dom cl) || (s.clEntry cl).isOut
/-- The channel is taped off. -/
def State.chTaped (s : State) (ch : Nat) : Bool := s.recov.domains.any (fun r => domHasChannel r.dom ch)
/-- The die is taped off. -/
def State.dieTaped (s : State) (die : Nat) : Bool := s.recov.domains.any (fun r => domIsDie r.dom die)

/-- FAULT_N is driven low (R484): from an L3 or a loss of lock until admin-ready, from t0 of an L2 until its step 6, after three
failed starts, and in RELEASE mode. -/
def State.faultLow (s : State) : Bool :=
  s.faultHold || decide (s.phase = .dead) || decide (s.phase = .release)
    || s.recov.domains.any (fun r => match r.dom with | .l2 _ => true | .l1 _ => false)

-- patterns (R236, R177, R250)

/-- The VD of a node. -/
def Pattern.vd (pat : Pattern) (node : Nat) : Option VdNode := pat.vds.find? (fun v => decide (v.node = node))

/-- The clusters of a VD in virtual order: its own, then each sub-VD's (R236). The fuel bounds the nesting. -/
def vdClusters (pat : Pattern) : Nat → Nat → List Nat
  | 0, _ => []
  | fuel + 1, node =>
    match pat.vd node with
    | none => []
    | some v => v.clusters ++
      ((pat.vds.filter (fun w => decide (w.parent = node))).flatMap (fun w => vdClusters pat fuel w.node))

/-- The clusters of a VD in virtual order. -/
def Pattern.clusters (pat : Pattern) (node : Nat) : List Nat := vdClusters pat (pat.vds.length + 1) node

/-- N of a VD (R236). -/
def Pattern.size (pat : Pattern) (node : Nat) : Nat := (pat.clusters node).length

/-- The nodes of a VD and of every VD below it. -/
def vdBelow (pat : Pattern) : Nat → Nat → List Nat
  | 0, _ => []
  | fuel + 1, node =>
    match pat.vd node with
    | none => []
    | some _ => node :: ((pat.vds.filter (fun w => decide (w.parent = node))).flatMap (fun w => vdBelow pat fuel w.node))

/-- A VD and every VD below it. -/
def Pattern.below (pat : Pattern) (node : Nat) : List Nat := vdBelow pat (pat.vds.length + 1) node

/-- The VD whose own runs hold a cluster. -/
def Pattern.holder (pat : Pattern) (cl : Nat) : Option Nat :=
  (pat.vds.find? (fun v => v.clusters.any (fun c => decide (c = cl)))).map (fun v => v.node)

/-- Bytes of a PLA item. -/
def PlaItem.len (i : PlaItem) : Nat := if i.chans.isEmpty then i.vacLen else i.chans.length * 3000000000

/-- The channels of the group that covers a PLA; none where a vacant range or nothing does. -/
def Pattern.groupOf (pat : Pattern) (pla : Nat) : List Nat :=
  match pat.map.find? (fun i => decide (i.base ≤ pla) && decide (pla < i.base + i.len)) with
  | none => []
  | some i => i.chans

/-- The channel and channel offset of a PLA, where a group covers it (R177). -/
def Pattern.resolve (pat : Pattern) (pla : Nat) : Option (Nat × Nat) :=
  match pat.map.find? (fun i => decide (i.base ≤ pla) && decide (pla < i.base + i.len)) with
  | none => none
  | some i =>
    if i.chans.isEmpty then none
    else
      let o := pla - i.base
      let t := o / 256
      let g := i.chans.length
      some (i.chans.getD (t % g) 0, (t / g) * 256 + o % 256)

/-- The PLA byte that a channel location has in the pattern. -/
def Pattern.plaOf (pat : Pattern) (ch off : Nat) : Option Nat :=
  match pat.map.find? (fun i => i.chans.any (fun c => decide (c = ch))) with
  | none => none
  | some i =>
    let slot := i.chans.findIdx (fun c => decide (c = ch))
    some (i.base + ((off / 256) * i.chans.length + slot) * 256 + off % 256)

/-- The link shares of a VD and of every VD below it (R250). -/
def Pattern.shares (pat : Pattern) (node : Nat) : List LinkShare :=
  (pat.below node).flatMap (fun n => match pat.vd n with | some v => v.links | none => [])

/-- A link module carries traffic of its edge: in service and not left under R477. -/
def State.lmUp (s : State) (lm : Nat) : Bool :=
  (s.lmEntry lm).inService && !(s.lmEntry lm).isOut && !s.recov.linkOut.any (fun x => decide (x = lm))

/-- The die-to-die share of a VD in GB/s (R250), of modules in service (R477). -/
def State.linkShareOf (s : State) (pat : Pattern) (node : Nat) : Nat :=
  (pat.shares node).foldl (fun a l =>
    if l.exclusive then a + 256 * ((maskModules l.edge l.modules).filter s.lmUp).length else a + l.gbps) 0

/-- The dies a VD's clusters lie on. -/
def vdDies (cls : List Nat) : List Nat := (natRange 0 4).filter (fun d => cls.any (fun c => decide (clDie c = d)))

/-- The edge between two adjacent dies. -/
def edgeOf (a b : Nat) : Option Nat :=
  (natRange 0 4).find? (fun e => edgeDies e == (a, b) || edgeDies e == (b, a))

/-- Edge `e` has a module in service (R31). -/
def State.edgeUp (s : State) (e : Nat) : Bool := (natRange (6 * e) 6).any s.lmUp

/-- The dies that traffic between two dies crosses, both ends included: the direct edge, the fixed route of a diagonal pair
(R249), or the single remaining path where an edge has no module in service (R31). DESIGN CHOICE (log entry 60): where that
path is cut as well, the route is the one that would be taken with every edge up. -/
def State.routeDies (s : State) (r03 r12 : Bool) (a b : Nat) : List Nat :=
  if a = b then [a]
  else
    let lo := min a b
    let hi := max a b
    let up (x y : Nat) : Bool := match edgeOf x y with | some e => s.edgeUp e | none => false
    if lo + hi = 3 then
      -- diagonal: CD0-CD3 by CD1 or CD2, CD1-CD2 by CD0 or CD3
      let first := if lo = 0 then (if r03 then 2 else 1) else (if r12 then 3 else 0)
      let other := 3 - first
      if up lo first && up first hi then [lo, first, hi] else if up lo other && up other hi then [lo, other, hi]
      else [lo, first, hi]
    else if up lo hi then [lo, hi]
    else
      -- around the ring through the other two dies
      let rest := (natRange 0 4).filter (fun d => decide (d ≠ lo) && decide (d ≠ hi))
      match rest with
      | [x, y] => if (edgeOf lo x).isSome then [lo, x, y, hi] else [lo, y, x, hi]
      | _ => [lo, hi]

/-- The edges between consecutive dies of a route. -/
def routeEdges : List Nat → List Nat
  | a :: b :: t => (match edgeOf a b with | some e => [e] | none => []) ++ routeEdges (b :: t)
  | _ => []

/-- Nodes a pattern consumes, the root included (R237). -/
def Pattern.nodes (pat : Pattern) : Nat :=
  1 + pat.vds.foldl (fun a v => a + 1 + ceilDiv v.clusters.length 12 + v.links.length) 0
    + pat.map.foldl (fun a i => a + 1 + ceilDiv i.chans.length 7) 0

-- contexts that run on clusters

/-- The VD clusters that a resident context holds. -/
def State.runClusters (s : State) (p c : Nat) : List Nat := (s.ctx p c).residentVd

/-- The queue and packet of a context's running LAUNCH or GENERATE: the packet started and not waiting. -/
def CtxSt.running (c : CtxSt) : Option (Nat × PacketRun) :=
  c.qs.findSome? (fun e => match e.2.cur with
    | some r => if (r.typ = 1 ∨ r.typ = 2) ∧ r.resident then some (e.1, r) else none
    | none => none)

/-- A packet of the context is in progress. -/
def CtxSt.busy (c : CtxSt) : Bool := c.qs.any (fun e => e.2.cur.isSome)

/-- A packet of the partition is in progress. -/
def PartSt.busy (p : PartSt) : Bool := p.ctxs.any (fun e => e.2.busy) || p.cq.cur.isSome

/-- Some context of a VD has a packet in progress (R234 BUSY). -/
def PartSt.vdBusy (p : PartSt) (node : Nat) : Bool := p.ctxs.any (fun e => decide (e.2.vd = node) && e.2.busy)

/-- Packets of the partition start and run: ENABLED, and not freezing (R284, R437). -/
def PartSt.runs (p : PartSt) : Bool := decide (p.pstate = .enabled) && p.freezing.isNone

/-- The partition exists (R284). -/
def PartSt.present (p : PartSt) : Bool := decide (p.pstate ≠ .absent)

/-- The VD node number as virtual cluster index of a physical cluster in a list. -/
def indexIn (l : List Nat) (x : Nat) : Nat := l.findIdx (fun y => decide (y = x))

/-- Add to a list what it does not hold. -/
def addOnce (l : List Nat) (x : Nat) : List Nat := if l.any (fun y => decide (y = x)) then l else l ++ [x]

/-- Remove a number from a list. -/
def dropAll (l : List Nat) (x : Nat) : List Nat := l.filter (fun y => decide (y ≠ x))

/-- Membership as a Bool. -/
def hasNat (l : List Nat) (x : Nat) : Bool := l.any (fun y => decide (y = x))

end Sys2Proof.Machine
end

