-- ==== Sys2Proof/Machine/Regulate.lean ====
section
/-! DEFINITION. What tension sees of traffic (R444-R446, R452-R455): which regulated instances a request crosses and in which direction, the bytes
that their regulators count, what a response tells its source, and what a source lets go. -/

namespace Sys2Proof.Machine

/-- Where a resolved byte lies: a channel offset, or an address of a port's host memory. -/
inductive Loc where
  | chan (ch off : Nat)
  | host (port addr : Nat)
  deriving DecidableEq, Repr

-- regulators

/-- Where the state keeps a regulator. -/
def regKey : Regulator → Nat
  | .host i => i
  | .link e => 8 + e
  | .kv => 12
  | .mstop i => 13 + i
/-- Class of a regulator. -/
def regClass : Regulator → Nat
  | .host _ => 0 | .link _ => 1 | .kv => 2 | .mstop _ => 3
/-- INSTANCE of a regulator. -/
def regInstance : Regulator → Nat
  | .host i => i | .link e => e | .kv => 0 | .mstop i => i
/-- The directions in which a regulator counts: both apart on a port, a hub path or an edge; reads and writes together elsewhere (R444). -/
def regDirs : Regulator → List Bool
  | .host _ | .link _ => [false, true]
  | .kv | .mstop _ => [false]

/-- The regulator of a host port, of a die's hub path, of an edge, of a channel's memory stop (R444, R20). -/
def portReg (port : Nat) : Regulator := .host ⟨port % 4, by omega⟩
/-- A hub path. -/
def hubReg (die : Nat) : Regulator := .host ⟨4 + die % 4, by omega⟩
/-- An edge. -/
def edgeReg (e : Nat) : Regulator := .link ⟨e % 4, by omega⟩
/-- A memory stop. -/
def stopReg (ch : Nat) : Regulator := .mstop ⟨ch / 8 % 40, by omega⟩

/-- A regulator's state. -/
def State.reg (s : State) (r : Regulator) : RegSt := tabGet {} s.regulators (regKey r)
/-- Put a regulator back. -/
def State.setReg (s : State) (r : Regulator) (x : RegSt) : State := { s with regulators := tabSet s.regulators (regKey r) x }

-- labels, states and levels (R453, R454)

/-- The label entry is that of a partition's label, in a direction, as best-effort traffic of a share or not. -/
def LabelSt.isOf (l : LabelSt) (p label : Nat) (up spill : Bool) : Bool :=
  decide (l.part = p) && decide (l.label = label) && l.up == up && l.spill == spill

/-- The state of a label that has been served so many bytes in its window (R453), its budget scaled by R458. -/
def LabelSt.stateAt (l : LabelSt) (num den served : Nat) : Nat :=
  if l.cap ≠ 0 ∧ l.cap ≤ served + l.debt then 2
  else if l.mode = 1 ∧ served < l.budget * num / den then 0
  else 1

/-- Level and issue rate, in sixteenths, of a source's requests (R454), by state, MODE 2 level and queue level; `cut` holds levels
0-7 as at q 7 (R458). -/
def issueAt (mode state level q : Nat) (cut : Bool) : Nat × Nat :=
  if state = 2 then (0, 0)
  else if state = 0 then (8, 16)
  else
    let q := if cut then 7 else q
    if mode = 2 then (level, if q < 7 then 16 else 0)
    else (0, if q ≤ 3 then 16 else if q = 4 then 8 else if q = 5 then 4 else if q = 6 then 1 else 0)

/-- What a source has heard of a label. -/
def SentSt.isOf (e : SentSt) (src p label : Nat) (up spill : Bool) : Bool :=
  decide (e.src = src) && decide (e.part = p) && decide (e.label = label) && e.up == up && e.spill == spill

/-- What a regulator tells of a label now: its state, the queue level, and with them the level and rate of R454. -/
def RegSt.says (x : RegSt) (l : LabelSt) (e : SentSt) : SentSt :=
  let a := issueAt l.mode l.state l.level x.queueLevel x.cutLow
  { e with state := l.state, q := x.queueLevel, level := a.1, rate := a.2 }

/-- A regulator tells a source of a label. -/
def RegSt.tell (x : RegSt) (src : Nat) (l : LabelSt) : RegSt :=
  let mine (e : SentSt) : Bool := e.isOf src l.part l.label l.up l.spill
  let old := (x.sent.find? mine).getD { src := src, part := l.part, label := l.label, up := l.up, spill := l.spill }
  { x with sent := x.sent.filter (fun e => !mine e) ++ [x.says l old] }

-- paths (R444, R249)

/-- An instance that a request crosses: its regulator, the direction of its data (to the host, to the hub, or to the die of the higher
number), and whether as the best-effort traffic of a VD without a share there (R249). -/
structure Crossing where
  reg : Regulator
  up : Bool := false
  spill : Bool := false
  deriving DecidableEq, Repr

/-- How a VD's traffic uses an edge (R247, R249, R250, R445): its pooled share, regulated under its label; its exclusive modules, regulated
by none; pooled modules as best effort, where it has no share, where none of its exclusive modules is in service (R477), or, under SPILL, for
what goes beyond its exclusive share: which does is the device's own (log entry 42). -/
def State.edgeUse (s : State) (p node e : Nat) : Option Bool :=
  let ls := ((s.part p).pat.shares node).filter (fun l => decide (l.edge = e))
  if ls.any (fun l => !l.exclusive) then some false
  else
    let up := ls.filter (fun l => (maskModules e l.modules).any s.lmUp)
    if up.isEmpty then some true
    else if up.any (fun l => l.spill) && Config.spills s.freeCtr then some true
    else none

/-- The edges that data of a VD crosses from die `a` to die `b`. -/
def State.edgeCrossings (s : State) (p node a b : Nat) : List Crossing :=
  let v := ((s.part p).pat.vd node).getD { node := node }
  (routeEdges (s.routeDies v.route03 v.route12 a b)).filterMap (fun e =>
    (s.edgeUse p node e).map (fun spill => { reg := edgeReg e, up := decide (a < b), spill := spill }))

/-- Who makes a request: a unit of a die, an agent of the hub, or the host of a port. -/
inductive Source where
  | die (d src : Nat)
  | hub
  | port (h : Nat)
  deriving DecidableEq, Repr

/-- The number by which regulators know a source: a cluster, the sequencer of a die, the hub, a port. -/
def Source.num : Source → Nat
  | .die _ src => src
  | .hub => 196
  | .port h => 197 + h

/-- A cluster as a source. -/
def clSource (cl : Nat) : Source := .die (clDie cl) cl
/-- The sequencer of a die as a source. -/
def seqSource (d : Nat) : Source := .die d (192 + d)

/-- The instances that a request of a partition's VD crosses to a location (R444). -/
def State.crossings (s : State) (p node : Nat) (from_ : Source) (l : Loc) (write : Bool) : List Crossing :=
  match l, from_ with
  | .chan ch _, .die d _ => (if write then s.edgeCrossings p node d (chDie ch) else s.edgeCrossings p node (chDie ch) d) ++ [{ reg := stopReg ch }]
  | .chan ch _, .hub => [{ reg := hubReg (chDie ch), up := !write }, { reg := stopReg ch }]
  | .chan ch _, .port h => [{ reg := portReg h, up := !write }, { reg := hubReg (chDie ch), up := !write }, { reg := stopReg ch }]
  | .host port _, .die d _ => [{ reg := hubReg d, up := write }, { reg := portReg port, up := write }]
  | .host port _, .hub | .host port _, .port _ => [{ reg := portReg port, up := write }]

/-- Those of a request to another cluster. -/
def State.crossingsTo (s : State) (p node cl target : Nat) (write : Bool) : List Crossing :=
  if write then s.edgeCrossings p node (clDie cl) (clDie target) else s.edgeCrossings p node (clDie target) (clDie cl)

/-- Whom an access is for: the source, the label it carries (R446), and the VD whose links it uses (R249). -/
structure Via where
  src : Source := .hub
  label : Nat := 0
  node : Nat := 0
  deriving DecidableEq, Repr

/-- An access of a context: it carries TNS_LABEL (R382, R446). -/
def State.via (s : State) (p c : Nat) (src : Source) : Via := { src := src, label := (s.ctx p c).label, node := (s.ctx p c).vd }

-- counting (R452, R453)

/-- A regulator serves bytes of a label, and its response tells the source (R452, R453). -/
def RegSt.count (x : RegSt) (src p label : Nat) (c : Crossing) (n : Nat) : RegSt :=
  let l := (x.labels.find? (fun l => l.isOf p label c.up c.spill)).getD { part := p, label := label, up := c.up, spill := c.spill }
  let l := { l with served := l.served + n }
  let l := { l with state := l.stateAt x.scaleNum x.scaleDen l.served }
  { x with labels := x.labels.filter (fun m : LabelSt => !m.isOf p label c.up c.spill) ++ [l] }.tell src l

/-- Bytes of a partition's label are served at every instance they cross. -/
def State.served (s : State) (src : Source) (p label : Nat) (xs : List Crossing) (n : Nat) : State :=
  xs.foldl (fun s c => s.setReg c.reg ((s.reg c.reg).count src.num p label c n)) s

/-- Bytes are read from, or written to, a location. -/
def State.servedAt (s : State) (v : Via) (p : Nat) (l : Loc) (write : Bool) (n : Nat) : State :=
  s.served v.src p v.label (s.crossings p v.node v.src l write) n

/-- Bytes of management traffic are served (R446). -/
def State.servedMgt (s : State) (xs : List Crossing) (n : Nat) : State :=
  xs.foldl (fun s c => s.setReg c.reg { s.reg c.reg with mgtServed := (s.reg c.reg).mgtServed + n }) s

-- what a source lets go (R454)

/-- A source that has heard so may issue now: at a rate of `rate` sixteenths, as many of its chances. -/
def SentSt.lets (e : SentSt) : Bool := decide (16 ≤ e.rate) || decide (e.chance * e.rate / 16 < (e.chance + 1) * e.rate / 16)

/-- What a source last heard that bears on a crossing. -/
def State.heard (s : State) (src : Source) (p label : Nat) (c : Crossing) : Option SentSt :=
  (s.reg c.reg).sent.find? (fun e => e.isOf src.num p label c.up c.spill)

/-- Tension lets a request go: no instance it crosses has it held or paced at this chance. -/
def State.tensionLets (s : State) (src : Source) (p label : Nat) (xs : List Crossing) : Bool :=
  xs.all (fun c => match s.heard src p label c with | some e => e.lets | none => true)

/-- A source has had a chance to issue a request. -/
def State.tensionTried (s : State) (src : Source) (p label : Nat) (xs : List Crossing) : State :=
  xs.foldl (fun s c => match s.heard src p label c with
    | none => s
    | some _ => s.setReg c.reg { s.reg c.reg with sent := (s.reg c.reg).sent.map (fun e =>
        if e.isOf src.num p label c.up c.spill then { e with chance := e.chance + 1 } else e) }) s

/-- A source has a chance to issue a request (R454): the state after it, and whether the request goes. -/
def State.tensionGate (s : State) (src : Source) (p label : Nat) (xs : List Crossing) : State × Bool :=
  (s.tensionTried src p label xs, s.tensionLets src p label xs)

end Sys2Proof.Machine
end

