-- ==== Sys2Proof/Machine/Memory.lean ====
section
/-! DEFINITION. Memory beyond a cluster: channels and host memory, the routing of host physical addresses (R330), the
page-table walk of R326-R331, and the accesses of the device's own agents (R379). -/

namespace Sys2Proof.Machine

/-- A translation fault: RISC-V cause, guest physical address, FQ_FLAGS [2:1] and the 0x88xx code (R341). -/
structure XErr where
  cause : Nat
  gpa : Nat
  flags : Nat
  code : Nat
  deriving DecidableEq, Repr

/-- Why an access does not complete: a condition code, or a translation fault that waits for the host. -/
inductive AccErr where
  | code (c : Nat)
  | xlate (e : XErr)
  deriving DecidableEq, Repr

/-- The bits of `mask` keep their old value. -/
def maskByte (old new mask : Byte) : Byte := (old &&& mask) ||| (new &&& ~~~ mask)

/-- Merge a write into old bytes; no mask writes every bit. -/
def mergeBytes (old new mask : List Byte) : List Byte :=
  if mask.isEmpty then new
  else (old.zip (new.zip mask)).map (fun x => maskByte x.1 x.2.1 x.2.2)

/-- The 256-byte rows that `n` bytes from `off` touch. -/
def rowsOf (off n : Nat) : List Nat := if n = 0 then [] else natRange (off / 256) ((off + n - 1) / 256 - off / 256 + 1)

/-- Some row of the range is marked poisoned. -/
def anyPoison (poison : List Nat) (off n : Nat) : Bool := (rowsOf off n).any (fun r => hasNat poison r)

/-- The poison marks after a write of `n` bytes at `off` (R174): poisoned data marks every row it touches; a write of a whole
row clears the row's mark; a write of part of a row leaves it. -/
def poisonAfter (poison : List Nat) (off n : Nat) (whole poisoned : Bool) : List Nat :=
  if poisoned then (rowsOf off n).foldl addOnce poison
  else if whole then poison.filter (fun r => !(decide (off ≤ 256 * r) && decide (256 * r + 256 ≤ off + n)))
  else poison

-- the host-line directory (R322)

/-- The 64-byte lines that `n` bytes from an offset touch. -/
def linesOf (off n : Nat) : List Nat := if n = 0 then [] else natRange (off / 64) ((off + n - 1) / 64 - off / 64 + 1)

/-- On-die ECC cannot correct some row of a range (R173). -/
def ChannelSt.uncorrectableAt (c : ChannelSt) (off n : Nat) : Bool := (rowsOf off n).any (fun r => decide (tabGet 0 c.ecc r = 2))

/-- A read of a row is counted where ECC corrects it, and counted and reported where it cannot (R173). -/
def ChannelSt.eccRow (c : ChannelSt) (r : Nat) : ChannelSt :=
  match tabGet 0 c.ecc r with
  | 0 => c
  | 1 => { c with corrected := satInc32 c.corrected }
  | _ => { c with uncorrectable := satInc32 c.uncorrectable, reports := c.reports ++ [256 * r] }

/-- What a read of a location does to its channel's ECC counts. -/
def State.eccRead (s : State) (l : Loc) (n : Nat) : State :=
  match l with
  | .chan ch off => if (s.chan ch).ecc.isEmpty then s else s.updChan ch (fun c => (rowsOf off n).foldl ChannelSt.eccRow c)
  | .host _ _ => s

/-- What ECC says of a location from now on: the worse of what it said and `k`. -/
def State.eccMark (s : State) (l : Loc) (k : Nat) : State :=
  match l with
  | .chan ch off =>
    if k = 0 then s else s.updChan ch (fun c => { c with ecc := tabSet c.ecc (off / 256) (max k (tabGet 0 c.ecc (off / 256))) })
  | .host _ _ => s

/-- The ECC marks after a write: a location that is written whole has sound data (log entry 69). -/
def eccAfter (ecc : Tab Nat) (off n : Nat) (whole : Bool) : Tab Nat :=
  if whole then ecc.filter (fun e => !(decide (off ≤ 256 * e.1) && decide (256 * e.1 + 256 ≤ off + n))) else ecc

/-- Read `n` bytes of a location within one row: the bytes, and whether they are poisoned (R174, R325). -/
def State.readLoc (s : State) (l : Loc) (n : Nat) : List Byte × Bool :=
  match l with
  | .chan ch off => (memRead (s.chan ch).mem off n, anyPoison (s.chan ch).poison off n || (s.chan ch).uncorrectableAt off n)
  | .host port a =>
    (memRead (s.port port).mem a n, (linesOf a n).any (hasNat (s.port port).poison))

/-- Lines of a channel range that the host may hold (R322). -/
def ChannelSt.heldLines (c : ChannelSt) (off n : Nat) : List Nat := (linesOf off n).filter (fun l => hasNat c.hostLines l)

/-- Lines of a channel range that the host may hold modified (R322). -/
def ChannelSt.dirtyLines (c : ChannelSt) (off n : Nat) : List Nat := (c.heldLines off n).filter (fun l => !hasNat c.hostShared l)

/-- A line leaves the directory. -/
def ChannelSt.forgetLine (c : ChannelSt) (line : Nat) : ChannelSt :=
  { c with hostLines := dropAll c.hostLines line, hostShared := dropAll c.hostShared line, bisnp := dropAll c.bisnp line,
           bisnpData := dropAll c.bisnpData line }

/-- A back-invalidation that an access of the device's own agents sends is answered within the access (log entry 12): a line the host may
hold modified is written back as a free value where it chose to, and the line is given up, or kept shared. -/
def State.snoopLine (s : State) (ch : Nat) (giveUp : Bool) (line : Nat) : State :=
  let c := s.chan ch
  if !hasNat c.hostLines line then s
  else
    let (f, s) := s.fresh
    let back := !hasNat c.hostShared line && decide (f % 2 = 1)
    s.updChan ch (fun c =>
      let c := if back then { c with mem := memWrite c.mem (64 * line) (padTo 64 (Config.hostLine f)) } else c
      if giveUp then c.forgetLine line else { c with hostShared := addOnce c.hostShared line })

/-- The lines of a range are back-invalidated before a write, or read out of the host's caches before a read (R322). -/
def State.snoopRange (s : State) (ch off n : Nat) (giveUp : Bool) : State :=
  (if giveUp then (s.chan ch).heldLines off n else (s.chan ch).dirtyLines off n).foldl (fun s l => s.snoopLine ch giveUp l) s

/-- A location is made ready for a read of the device's own agents. -/
def State.snoopRead (s : State) (l : Loc) (n : Nat) : State :=
  match l with
  | .chan ch off => s.snoopRange ch off n false
  | .host _ _ => s

/-- Lines of host memory that a write takes only in part are held by RdOwn for the merge, at most 256 at a time (R325). -/
def PortSt.holdLines (h : PortSt) (a n now : Nat) : List (Nat × Nat) :=
  let part := (linesOf a n).filter (fun l => !(decide (a ≤ 64 * l) && decide (64 * l + 64 ≤ a + n)))
  let held := h.heldLines.filter (fun e => !hasNat part e.1) ++ part.map (fun l => (l, now))
  held.drop (held.length - 256)

/-- Write a location within one row, with the bits of `mask` kept. A channel's controller is the point of coherence: a line
the host may hold is back-invalidated first (R322). -/
def State.writeLoc (s : State) (l : Loc) (data mask : List Byte) (poisoned : Bool) : State :=
  match l with
  | .chan ch off => (s.snoopRange ch off data.length true).updChan ch (fun c =>
      let n := data.length
      let new := mergeBytes (memRead c.mem off n) data mask
      { c with mem := memWrite c.mem off new, poison := poisonAfter c.poison off n mask.isEmpty poisoned,
               ecc := eccAfter c.ecc off n mask.isEmpty })
  | .host port a => s.updPort port (fun h =>
      let n := data.length
      let new := mergeBytes (memRead h.mem a n) data mask
      let lines := linesOf a n
      { h with mem := memWrite h.mem a new, heldLines := h.holdLines a n s.ticks,
               poison := if poisoned then lines.foldl addOnce h.poison
                 else h.poison.filter (fun x => !(decide (a ≤ 64 * x) && decide (64 * x + 64 ≤ a + n))) })

/-- Why a channel serves no request: taped off (R465), out of service for good (R199), or passing through the strip engine (R296). -/
def State.chanRefuses (s : State) (ch : Nat) : Option Nat :=
  if s.chTaped ch then some 0x8012
  else if (s.chEntry ch).isOut then some 0x8031
  else if (s.chEntry ch).state = .stripping then some 0x8201
  else none

/-- A channel group is lost: one of its channels is out of service for good, and every access to its range is answered so (R199). -/
def State.groupLost (s : State) (chans : List Nat) : Bool := chans.any (fun c => (s.chEntry c).isOut)

/-- Why an access to a PLA that lies on a channel is refused: by the channel, or by the loss of its group. -/
def State.plaRefuses (s : State) (pat : Pattern) (pla ch : Nat) : Option Nat :=
  match s.chanRefuses ch with
  | some c => some c
  | none => if s.groupLost (pat.groupOf pla) then some 0x8031 else none

/-- Resolve a PLA of a partition under a pattern (R141, R38). -/
def State.locatePla (s : State) (pat : Pattern) (pla : Nat) : Except Nat Loc :=
  match pat.resolve pla with
  | none => .error 0x8412
  | some (ch, off) =>
    match s.plaRefuses pat pla ch with
    | some c => .error c
    | none => .ok (.chan ch off)

/-- Route a host physical address of a partition (R330): its own slice of the owner port's window, another partition's slice
(XLATE_FOREIGN), or host memory. -/
def State.routeHpa (s : State) (p hpa : Nat) : Except Nat Loc :=
  let port := (s.part p).desc.ownerPort
  let toHost : Except Nat Loc := if (s.port port).failed then .error 0x8042 else .ok (.host port hpa)
  match (s.port port).hdmBase with
  | none => toHost
  | some b =>
    if b ≤ hpa ∧ hpa < b + 2 ^ 50 then
      let o := hpa - b
      if o / 2 ^ 44 = p then s.locatePla (s.part p).pat (o % 2 ^ 44) else .error 0x8804
    else toHost

-- the page-table walk

/-- Levels of a first-stage or G-stage mode (R326, R327). -/
def xlLevels : Nat → Option Nat
  | 0 => some 0 | 8 => some 3 | 9 => some 4 | 10 => some 5 | _ => none

/-- Whether a translation root meets R326. -/
def xlateOk (s1 g : Nat) : Bool :=
  (xlLevels (bitsAt s1 63 60)).isSome && (xlLevels (bitsAt g 63 60)).isSome && bitsAt g 59 58 == 0 && bitsAt g 1 0 == 0

/-- A virtual address sign-extended from bit 56 (R139). -/
def vaSext (va : Nat) : Nat := if va.testBit 56 then 2 ^ 64 - 2 ^ 57 + va % 2 ^ 57 else va % 2 ^ 57

/-- The address is canonical for the mode (R327). -/
def vaCanonical (mode va : Nat) : Bool :=
  match mode with
  | 8 => let t := bitsAt va 56 38; t == 0 || t == 2 ^ 19 - 1
  | 9 => let t := bitsAt va 56 47; t == 0 || t == 2 ^ 10 - 1
  | _ => true

/-- Causes of R341 by kind of access. -/
def pageCause (w : Bool) : Nat := if w then 15 else 13
/-- Guest-page fault. -/
def guestCause (w : Bool) : Nat := if w then 23 else 21
/-- Access fault. -/
def accessCause (w : Bool) : Nat := if w then 7 else 5

/-- What one entry says at level `i`: a pointer to the next table, a leaf, or an entry that faults (R328). -/
inductive PteKind where
  | next (ppn : Nat)
  | leaf
  | bad
  deriving DecidableEq, Repr

/-- Classify an entry at level `i` (R328): V, the reserved W-only encoding, reserved bits, PBMT 3, N, U of a leaf, and a
misaligned superpage. -/
def pteKind (pte i : Nat) : PteKind :=
  let v := pte.testBit 0; let r := pte.testBit 1; let w := pte.testBit 2; let x := pte.testBit 3
  let ppn := bitsAt pte 53 10
  if !v || (!r && w) || bitsAt pte 60 54 != 0 then .bad
  else if !r && !w && !x then
    -- a pointer: D, A, U, PBMT and N are reserved, and level 0 has no next table
    if i = 0 || pte.testBit 4 || pte.testBit 6 || pte.testBit 7 || bitsAt pte 63 61 != 0 then .bad else .next ppn
  else if bitsAt pte 62 61 == 3 || !pte.testBit 4 then .bad
  else if pte.testBit 63 then (if i = 0 && bitsAt pte 13 10 == 8 then .leaf else .bad)
  else if ppn % 2 ^ (9 * i) != 0 then .bad
  else .leaf

/-- A leaf permits the access (R328): a read needs R, a write R and W. -/
def ptePermits (pte : Nat) (w : Bool) : Bool := pte.testBit 1 && (!w || pte.testBit 2)

/-- The address a leaf at level `i` gives: superpages and 64 KiB NAPOT pages take low page-number bits of the input. -/
def pteAddr (pte i a : Nat) : Nat :=
  let ppn := bitsAt pte 53 10
  if pte.testBit 63 then (ppn / 16 * 16 + (a / 4096) % 16) * 4096 + a % 4096
  else (ppn / 2 ^ (9 * i)) * 2 ^ (12 + 9 * i) + a % 2 ^ (12 + 9 * i)

/-- The A and D bits an access needs (R328). -/
def pteWithAD (pte : Nat) (w : Bool) : Nat := if w then setBit (setBit pte 6 true) 7 true else setBit pte 6 true

/-- Read a page-table entry at a host physical address, out of the host's caches where it holds the line (R322); a foreign slice, an absent
one, or a poisoned answer ends the walk (R330, R343). -/
def State.pteRead (s : State) (v : Via) (p hpa : Nat) : State × Except Nat Nat :=
  match s.routeHpa p hpa with
  | .error c => (s, .error (if c = 0x8804 then 0x8804 else 0x8805))
  | .ok l =>
    let s := ((s.snoopRead l 8).eccRead l 8).servedAt v p l false 8
    let r := s.readLoc l 8
    (s, if r.2 then .error 0x8805 else .ok (leNat r.1))

/-- Update a page-table entry in place (R328). -/
def State.pteWrite (s : State) (v : Via) (p hpa pte : Nat) : State :=
  match s.routeHpa p hpa with
  | .error _ => s
  | .ok l => (s.writeLoc l (leBytes 8 pte) [] false).servedAt v p l true 8

/-- The error of a walk that found an entry changed since it read it: the walk restarts (R328). -/
def walkAgain : XErr := ⟨0, 0, 0, 0⟩

/-- Update a page-table entry atomically: it holds what was read of it, and is written; or the walk restarts (R328). -/
def State.pteUpdate (s : State) (v : Via) (p hpa old new : Nat) : State × Except XErr Unit :=
  if old = new then (s, .ok ())
  else
    match s.pteRead v p hpa with
    | (s, .error _) => (s, .error walkAgain)
    | (s, .ok now) => if now = old then (s.pteWrite v p hpa new, .ok ()) else (s, .error walkAgain)

/-- Bits of a page's size at level `i`: 64 KiB for a NAPOT leaf. -/
def pteBits (pte i : Nat) : Nat := if pte.testBit 63 then 16 else 12 + 9 * i

/-- G-stage walk from level `i` (counted down), table page `tbl`: `w` is the kind of the whole access, for the cause; `dirty`
says this access writes; `fl` the flags of a fault. -/
def gWalkFrom (v : Via) (p gpa : Nat) (w dirty : Bool) (fl : Nat) : Nat → Nat → Bool → State → State × Except XErr (Nat × Nat)
  | 0, _, _, s => (s, .error ⟨guestCause w, gpa, fl, 0x8802⟩)
  | i + 1, tbl, top, s =>
    let idx := (gpa / 2 ^ (12 + 9 * i)) % (if top then 2048 else 512)
    let at_ := tbl * 4096 + 8 * idx
    match s.pteRead v p at_ with
    | (s, .error c) => (s, .error ⟨accessCause w, 0, fl, c⟩)
    | (s, .ok pte) =>
      match pteKind pte i with
      | .bad => (s, .error ⟨guestCause w, gpa, fl, 0x8802⟩)
      | .next ppn => gWalkFrom v p gpa w dirty fl i ppn false s
      | .leaf =>
        if !ptePermits pte dirty then (s, .error ⟨guestCause w, gpa, fl, 0x8802⟩)
        else
          match s.pteUpdate v p at_ pte (pteWithAD pte dirty) with
          | (s, .error e) => (s, .error e)
          | (s, .ok _) => (s, .ok (pteAddr pte i gpa, bitsAt pte 62 61 + 8 * pteBits pte i))

/-- Translate a guest physical address (R327, R328): host physical address, and PBMT plus eight times the bits of the page's size. -/
def State.gXlate (s : State) (v : Via) (p g gpa : Nat) (w dirty : Bool) (fl : Nat) : State × Except XErr (Nat × Nat) :=
  let mode := bitsAt g 63 60
  if mode = 0 then (s, .ok (gpa, 8 * 64))
  else
    let width := if mode = 8 then 41 else if mode = 9 then 50 else 59
    if gpa ≥ 2 ^ width then (s, .error ⟨guestCause w, gpa, fl, 0x8802⟩)
    else gWalkFrom v p gpa w dirty fl ((xlLevels mode).getD 0) (bitsAt g 43 0) true s

/-- First-stage walk from level `i`, its entries reached through the G stage. -/
def s1WalkFrom (v : Via) (p g va : Nat) (w : Bool) : Nat → Nat → State → State × Except XErr (Nat × Nat)
  | 0, _, s => (s, .error ⟨pageCause w, 0, 0, 0x8801⟩)
  | i + 1, tbl, s =>
    let gpa := tbl * 4096 + 8 * ((va / 2 ^ (12 + 9 * i)) % 512)
    match s.gXlate v p g gpa w false 2 with
    | (s, .error e) => (s, .error e)
    | (s, .ok (at_, _)) =>
      match s.pteRead v p at_ with
      | (s, .error c) => (s, .error ⟨accessCause w, 0, 0, c⟩)
      | (s, .ok pte) =>
        match pteKind pte i with
        | .bad => (s, .error ⟨pageCause w, 0, 0, 0x8801⟩)
        | .next ppn => s1WalkFrom v p g va w i ppn s
        | .leaf =>
          if !ptePermits pte w then (s, .error ⟨pageCause w, 0, 0, 0x8801⟩)
          else
            let pte' := pteWithAD pte w
            let attr := bitsAt pte 62 61 + 4 * bnat (pte.testBit 5) + 8 * pteBits pte i
            if pte' = pte then (s, .ok (pteAddr pte i va, attr))
            else
              match s.gXlate v p g gpa w true 6 with
              | (s, .error e) => (s, .error e)
              | (s, .ok (at2, _)) =>
                match s.pteUpdate v p at2 pte pte' with
                | (s, .error e) => (s, .error e)
                | (s, .ok _) => (s, .ok (pteAddr pte i va, attr))

/-- The memory type of both stages' leaves (R328), plus 4 where the first stage's is global, plus eight times the bits of the smaller page. -/
def bothAttrs (t1 t2 : Nat) : Nat := (if t1 % 4 = 0 then t2 % 4 else t1 % 4) + t1 / 4 % 2 * 4 + 8 * min (t1 / 8) (t2 / 8)

/-- One pass of a walk through both stages. -/
def State.walkOnce (s : State) (v : Via) (p xs1 xg va : Nat) (w : Bool) : State × Except XErr (Nat × Nat) :=
  let mode := bitsAt xs1 63 60
  if !vaCanonical mode va then (s, .error ⟨pageCause w, 0, 0, 0x8801⟩)
  else
    let first : State × Except XErr (Nat × Nat) :=
      if mode = 0 then (s, .ok (vaSext va, 8 * 64))
      else s1WalkFrom v p xg va w ((xlLevels mode).getD 0) (bitsAt xs1 43 0) s
    match first with
    | (s, .error e) => (s, .error e)
    | (s, .ok (gpa, t1)) =>
      match s.gXlate v p xg gpa w w 0 with
      | (s, .error e) => (s, .error e)
      | (s, .ok (hpa, t2)) => (s, .ok (hpa, bothAttrs t1 t2))

/-- Both stages of a walk (R326-R328): host physical address, and the memory type with what `bothAttrs` adds. A walk that finds an entry
changed restarts; only its own updates of entries change one, so it does so a few times at most. -/
def State.walk (s : State) (p xs1 xg va : Nat) (w : Bool) (v : Via := {}) : State × Except XErr (Nat × Nat) :=
  (natRange 0 4).foldl (fun r _ => match r with
    | (s, .error e) => if e = walkAgain then s.walkOnce v p xs1 xg va w else (s, .error e)
    | r => r) (s.walkOnce v p xs1 xg va w)

/-- The cached translation of a page that a context may use (R331): of its VMID where it has a G stage, of its ASID where it has a first
stage and the entry is not global. -/
def tlbHit (tlb : List TlbEntry) (xs1 xg va : Nat) (w : Bool) : Option TlbEntry :=
  let one := decide (bitsAt xs1 63 60 ≠ 0)
  let two := decide (bitsAt xg 63 60 ≠ 0)
  tlb.find? (fun e => decide (e.vpn = va / 4096) && decide (e.twoStage = two) && decide (e.firstStage = one)
    && (!one || e.g || decide (e.asid = bitsAt xs1 59 44)) && (!two || decide (e.vmid = bitsAt xg 57 44))
    && (!w || e.canWrite))

/-- Walk for a VA of a context; the device caches what it read of tables (R331), which for a context without either stage is nothing. -/
def State.walkCached (s : State) (p c va : Nat) (w : Bool) (v : Via) : State × Except XErr (Nat × Nat) :=
  let x := s.ctx p c
  match s.walk p x.xs1 x.xg va w v with
  | (s, .error er) => (s, .error er)
  | (s, .ok (hpa, t)) =>
    let one := decide (bitsAt x.xs1 63 60 ≠ 0)
    let two := decide (bitsAt x.xg 63 60 ≠ 0)
    let e : TlbEntry :=
      { vmid := if two then bitsAt x.xg 57 44 else 0, asid := if one then bitsAt x.xs1 59 44 else 0, g := decide (t / 4 % 2 = 1),
        firstStage := one, vpn := va / 4096, ppn := hpa / 4096, twoStage := two, canWrite := w, pbmt := t % 4, bits := t / 8 }
    (if one || two then s.updPart p (fun q => { q with tlb := e :: q.tlb }) else s, .ok (hpa, t % 4 + 8 * (t / 8)))

/-- Translate a VA of a context: a cached entry may serve (a free choice, R331), else a walk, which the device then caches.
The result is the host physical address and the page's memory type, 0 PMA, 1 NC, 2 IO (R329), plus eight times the bits of its size. -/
def State.xlate (s : State) (p c va : Nat) (w : Bool) (v : Via := {}) : State × Except XErr (Nat × Nat) :=
  let x := s.ctx p c
  match tlbHit (s.part p).tlb x.xs1 x.xg va w, s.fresh with
  | some e, (f, s1) =>
    if f % 2 = 1 then (s1, .ok (e.ppn * 4096 + va % 4096, e.pbmt + 8 * e.bits)) else s1.walkCached p c va w v
  | none, _ => s.walkCached p c va w v

-- page-table walkers (R332)

/-- Walkers of a pool: 32 of a compute die, 16 of the hub (pool 4). -/
def walkSize (pool : Nat) : Nat := if pool < 4 then 32 else 16
/-- Walkers one partition may hold while misses of others wait. -/
def walkCap (pool : Nat) : Nat := if pool < 4 then 8 else 4

/-- A partition may take a free walker: while misses of others wait it holds fewer than its cap. -/
def WalkPool.allows (w : WalkPool) (cap p : Nat) : Bool :=
  w.waiting.all (fun q => decide (q.part = p)) || decide ((w.busy.filter (fun q => decide (q.part = p))).length < cap)

/-- A walker is free for a miss of a partition. -/
def WalkPool.free (w : WalkPool) (size cap p : Nat) : Bool := decide (w.busy.length < size) && w.allows cap p

/-- The waiting partition that a free walker serves next, in rotation after the one served last. -/
def WalkPool.next (w : WalkPool) (cap : Nat) : Option Nat :=
  ((natRange 1 64).map (fun i => (w.lastServed + i) % 64)).find? (fun p => w.waiting.any (fun q => decide (q.part = p)) && w.allows cap p)

/-- A free walker takes the oldest miss of the partition whose turn it is. -/
def WalkPool.serve (w : WalkPool) (cap : Nat) : WalkPool :=
  match w.next cap with
  | none => w
  | some p =>
    match w.waiting.find? (fun q => decide (q.part = p)) with
    | some q => { busy := w.busy ++ [q], waiting := w.waiting.erase q, lastServed := p }
    | none => w

/-- Walker `i`, whose walk has ended, is free and serves the next waiting miss. -/
def WalkPool.freed (w : WalkPool) (cap i : Nat) : WalkPool :=
  match w.busy[i]? with
  | some q => if q.ended then { w with busy := w.busy.eraseIdx i }.serve cap else w
  | none => w

/-- The walk of a miss has ended: its walker keeps it until WALKER_FREED. -/
def WalkPool.walked (w : WalkPool) (q : WalkReq) : WalkPool :=
  { w with busy := w.busy.map (fun x => if x.part = q.part ∧ x.ctx = q.ctx ∧ x.vpn = q.vpn ∧ x.write = q.write then { x with ended := true }
                                        else x) }

/-- The pool holds a miss among those of a list. -/
def hasMiss (l : List WalkReq) (q : WalkReq) : Bool :=
  l.any (fun x => decide (x.part = q.part ∧ x.ctx = q.ctx ∧ x.vpn = q.vpn ∧ x.write = q.write))

/-- A VA access of a context goes on to its translation: it needs no walk, or a walker of the pool serves its miss, or takes it now; else
the miss waits for a walker, and the access with it (R332). -/
def State.walkGate (s : State) (pool p c addr : Nat) (w : Bool) : State × Bool :=
  let x := s.ctx p c
  let q : WalkReq := { part := p, ctx := c, vpn := addr % 2 ^ 57 / 4096, write := w }
  let pl := tabGet {} s.walkers pool
  let put (pl : WalkPool) : State := { s with walkers := tabSet s.walkers pool pl }
  if bitsAt x.xs1 63 60 = 0 ∧ bitsAt x.xg 63 60 = 0 ∨ (tlbHit (s.part p).tlb x.xs1 x.xg (addr % 2 ^ 57) w).isSome then (s, true)
  else if hasMiss pl.busy q then (put (pl.walked q), true)
  else if hasMiss pl.waiting q then (s, false)
  else if pl.free (walkSize pool) (walkCap pool) p then (put ({ pl with busy := pl.busy ++ [q] }.walked q), true)
  else (put { pl with waiting := pl.waiting ++ [q] }, false)

-- what a source knows of a request that it holds (R454)

/-- Where an address of a context leads, as far as its source can tell: of a VA, what a cached translation says. -/
def State.peek (s : State) (p c addr : Nat) (w : Bool) : Option Loc :=
  let x := s.ctx p c
  let ok (r : Except Nat Loc) : Option Loc := match r with | .ok l => some l | .error _ => none
  match addr / 2 ^ 60 with
  | 1 => ok (s.locatePla (s.part p).pat (addr % 2 ^ 44))
  | 9 => ok (s.routeHpa p (addr % 2 ^ 52))
  | 8 => match tlbHit (s.part p).tlb x.xs1 x.xg (addr % 2 ^ 57) w with
    | some e => ok (s.routeHpa p (e.ppn * 4096 + addr % 4096))
    | none => if bitsAt x.xs1 63 60 = 0 ∧ bitsAt x.xg 63 60 = 0 then ok (s.routeHpa p (vaSext (addr % 2 ^ 57))) else none
  | _ => none

/-- The instances that an access of a context at an address crosses, as far as its source can tell. -/
def State.crossingsAt (s : State) (v : Via) (p c addr : Nat) (w : Bool) : List Crossing :=
  match s.peek p c addr w with
  | some l => s.crossings p v.node v.src l w
  | none => []

-- accesses of the device's own agents (R379, R391)

/-- An access through a translation that does not reach memory: another partition's slice is an access fault, which waits for the host
(R330, R343); anything else ends the access (R478). -/
def vaError (w : Bool) (e : Nat) : AccErr := if e = 0x8804 then .xlate ⟨accessCause w, 0, 0, 0x8804⟩ else .code e

/-- The walkers that serve an access for a context (R332): the hub's for its own agents, else those of the die of the context's sequencer.
DESIGN CHOICE (log entry 33): that is the die of the VD's first cluster. -/
def State.agentPool (s : State) (p c : Nat) (hub : Bool) : Nat :=
  if hub then 4 else match (s.part p).pat.clusters (s.ctx p c).vd with | cl :: _ => clDie cl | [] => 0

/-- Whom an agent's access is for: the context whose label it carries, or label `lab` of the partition (R446). -/
def State.agentVia (s : State) (p c : Nat) (hub : Bool) (lab : Option Nat) : Via :=
  let v := s.via p c (if hub then .hub else seqSource (s.agentPool p c false))
  { v with label := lab.getD v.label }

/-- The error of an agent's access that waits for a walker (R332): it is no fault, and what it belongs to is tried again. -/
def walkerWait : XErr := ⟨0, 0, 0, 0⟩

/-- Resolve an address a sequencer, or an agent of the hub (`hub`), uses: PLA, HPA, or VA of a context. -/
def State.agentLoc (s : State) (p c addr : Nat) (w : Bool) (hub : Bool := false) (lab : Option Nat := none) : State × Except AccErr Loc :=
  let kind := addr / 2 ^ 60
  if kind = 1 then
    (s, if bitsAt addr 59 44 ≠ 0 then .error (.code 0x8412)
      else match s.locatePla (s.part p).pat (addr % 2 ^ 44) with
        | .error e => .error (.code e)
        | .ok l => .ok l)
  else if kind = 9 then
    (s, if bitsAt addr 59 52 ≠ 0 then .error (.code 0x8412)
      else match s.routeHpa p (addr % 2 ^ 52) with
        | .error e => .error (.code e)
        | .ok l => .ok l)
  else if kind = 8 ∧ bitsAt addr 59 57 = 0 then
    match s.walkGate (s.agentPool p c hub) p c addr w with
    | (s, false) => (s, .error (.xlate walkerWait))
    | (s, true) =>
      match s.xlate p c (addr % 2 ^ 57) w (s.agentVia p c hub lab) with
      | (s, .error e) => (s, .error (.xlate e))
      | (s, .ok (hpa, _)) =>
        (s, match s.routeHpa p hpa with
          | .error e => .error (vaError w e)
          | .ok l => .ok l)
  else (s, .error (.code 0x8412))

/-- Read `n` bytes as an agent, one 256-byte transaction at a time: the bytes, and whether any is poisoned. -/
def agentReadFrom (p c : Nat) (hub : Bool) (lab : Option Nat) : Nat → Nat → Nat → State → State × Except AccErr (List Byte × Bool)
  | 0, _, _, s => (s, .ok ([], false))
  | fuel + 1, addr, n, s =>
    if n = 0 then (s, .ok ([], false))
    else
      let m := min n (256 - addr % 256)
      match s.agentLoc p c addr false hub lab with
      | (s, .error e) => (s, .error e)
      | (s, .ok l) =>
        let s := ((s.snoopRead l m).eccRead l m).servedAt (s.agentVia p c hub lab) p l false m
        let r := s.readLoc l m
        match agentReadFrom p c hub lab fuel (addr + m) (n - m) s with
        | (s, .error e) => (s, .error e)
        | (s, .ok (bs, q)) => (s, .ok (r.1 ++ bs, r.2 || q))

/-- Read `n` bytes as an agent of a context. -/
def State.agentRead (s : State) (p c addr n : Nat) (hub : Bool := false) (lab : Option Nat := none) :
    State × Except AccErr (List Byte × Bool) :=
  agentReadFrom p c hub lab (n / 256 + 2) addr n s

/-- Write bytes as an agent, one 256-byte transaction at a time. -/
def agentWriteFrom (p c : Nat) (poisoned hub : Bool) (lab : Option Nat) : Nat → Nat → List Byte → State → State × Except AccErr Unit
  | 0, _, _, s => (s, .ok ())
  | fuel + 1, addr, bs, s =>
    if bs.isEmpty then (s, .ok ())
    else
      let m := min bs.length (256 - addr % 256)
      match s.agentLoc p c addr true hub lab with
      | (s, .error e) => (s, .error e)
      | (s, .ok l) => agentWriteFrom p c poisoned hub lab fuel (addr + m) (bs.drop m)
          ((s.writeLoc l (bs.take m) [] poisoned).servedAt (s.agentVia p c hub lab) p l true m)

/-- Write bytes as an agent of a context. -/
def State.agentWrite (s : State) (p c addr : Nat) (bs : List Byte) (poisoned : Bool) (hub : Bool := false) (lab : Option Nat := none) :
    State × Except AccErr Unit :=
  agentWriteFrom p c poisoned hub lab (bs.length / 256 + 2) addr bs s

/-- The address form of a PLA. -/
def plaAddr (pla : Nat) : Nat := 2 ^ 60 + pla

/-- Read bytes of the partition's PLA space; what cannot be reached reads zero. -/
def State.plaRead (s : State) (p pla n : Nat) : List Byte :=
  match s.agentRead p 0 (plaAddr pla) n true (some 0) with
  | (_, .ok r) => r.1
  | (_, .error _) => zeros n

/-- The host's modified lines under a range of PLA space are read out, and what ECC says of it is counted, before it is read (R322, R173). -/
def State.plaSync (s : State) (p pla n : Nat) : State := (s.agentRead p 0 (plaAddr pla) n true (some 0)).1

/-- Write bytes of the partition's PLA space; what cannot be reached is lost. -/
def State.plaWrite (s : State) (p pla : Nat) (bs : List Byte) : State := (s.agentWrite p 0 (plaAddr pla) bs false true (some 0)).1

/-- The lines of channel `ch` that a host may hold and of which a range of PLA space has a byte. -/
def State.plaLines (s : State) (pat : Pattern) (ch pla n : Nat) : List Nat :=
  (s.chan ch).hostLines.filter (fun l => (natRange (64 * l) 64).any (fun off =>
    match pat.plaOf ch off with | some a => decide (pla ≤ a) && decide (a < pla + n) | none => false))

/-- Zero `n` bytes of PLA space in whole and part rows (R380, R413): each covered location of each group, once the host has given up the
lines it may hold of them (R322). -/
def State.plaZero (s : State) (p pla n : Nat) : State :=
  let pat := (s.part p).pat
  let chans := pat.map.flatMap (fun i => i.chans)
  chans.foldl (fun s ch => ((s.plaLines pat ch pla n).foldl (fun s l => s.snoopLine ch true l) s).updChan ch (fun c =>
    let hit (off : Nat) : Bool := match pat.plaOf ch off with | some a => decide (pla ≤ a) && decide (a < pla + n) | none => false
    let whole (r : Nat) : Bool := hit (256 * r) && hit (256 * r + 255)
    { c with mem := c.mem.filter (fun x => !hit x.1), poison := c.poison.filter (fun r => !whole r),
             ecc := c.ecc.filter (fun e => !whole e.1) })) s

end Sys2Proof.Machine
end

