-- ==== Sys2Proof/Machine/Flags.lean ====
section
/-! DEFINITION. Conditions and flags: predicate conditions and lane masks (R49), compares (R57, R116), row-counter words
(R158), poison (R174), and the fault order of a bundle (R565). -/

namespace Sys2Proof.Machine

/-- The value of a predicate register: p0 reads all ones (R39). -/
def CoreSt.preg (c : CoreSt) (i : Nat) : Word := if i = 0 then BitVec.allOnes 64 else tabGet 0 c.pregs i

/-- A slot's lanes: the predicate register, inverted when PNEG is 1 (R49). -/
def predLanes (c : CoreSt) (pred : BitVec 3) (pneg : Bool) : Word :=
  if pneg then ~~~ (c.preg pred.toNat) else c.preg pred.toNat

/-- A slot's condition: bit 0 of its lanes (R49). -/
def predOn (c : CoreSt) (pred : BitVec 3) (pneg : Bool) : Bool := (predLanes c pred pneg).getLsbD 0

/-- The result of a compare, opcodes 0x20-0x25: EQ, NE, LT, LTU, GE, GEU (R57). -/
def cmpHolds (op : Nat) (a b : Word) : Bool :=
  match op with
  | 0x20 => a == b
  | 0x21 => a != b
  | 0x22 => a.slt b
  | 0x23 => a.ult b
  | 0x24 => !a.slt b
  | _ => !a.ult b

/-- Every bit of a predicate register set to a condition (R57). -/
def predAll (b : Bool) : Word := if b then BitVec.allOnes 64 else 0

/-- COUNT of a row counter (R158). -/
def cntCount (w : Nat) : Nat := w % 2 ^ 48
/-- ERR of a row counter (R158). -/
def cntErr (w : Nat) : Bool := w.testBit 63
/-- CNT.SET writes COUNT and clears ERR (R158). -/
def cntSetTo (v : Nat) : Nat := v % 2 ^ 48
/-- A counted arrival: COUNT stops at 0xFFFF_FFFF_FFFF; ERR stays (R158, R159). -/
def cntAdd (w n : Nat) : Nat := w - cntCount w + min (cntCount w + n) (2 ^ 48 - 1)
/-- ERR set (R468). -/
def cntWithErr (w : Nat) : Nat := setBit w 63 true

/-- The first fault of a list of checks (R565): later checks apply only where the earlier ones pass. -/
def firstFault : List (Option Nat) → Option Nat
  | [] => none
  | some c :: _ => some c
  | none :: t => firstFault t

/-- A condition as a fault. -/
def faultIf (b : Bool) (code : Nat) : Option Nat := if b then some code else none

end Sys2Proof.Machine
end

