-- ==== Sys2Proof/Machine/Operands.lean ====
section
/-! DEFINITION. Operand forms of a bundle: which fields each operation uses (R50), destination registers, format codes, and
the address kinds with their resolution (R135-R140). -/

namespace Sys2Proof.Machine

-- the encoding checks of R50

-- DESIGN CHOICE (log entry 61): the encoding of a slot is checked whatever its predicate.

/-- The S slot uses only the fields of its operation (R50, R57, R58). -/
def sLegal (t : SSlot) : Bool :=
  let op := t.op.toNat
  let noRa := t.ra == 0; let noRb := t.rb == 0; let noRd := t.rd == 0; let noImm := t.imm == 0
  let p3 (r : BitVec 5) : Bool := decide (r.toNat < 8)
  if op = 0 then t == {}
  else if op = 0x02 ∨ op = 0x07 then noRb
  else if op = 0x01 ∨ (0x03 ≤ op ∧ op ≤ 0x06) ∨ (0x08 ≤ op ∧ op ≤ 0x0A) ∨ (0x10 ≤ op ∧ op ≤ 0x15)
      ∨ (0x18 ≤ op ∧ op ≤ 0x1B) then noImm
  else if 0x0B ≤ op ∧ op ≤ 0x0D then noRb && decide (t.imm.toNat < 64)
  else if 0x20 ≤ op ∧ op ≤ 0x25 then p3 t.rd && noImm
  else if op = 0x28 then noRa && noRb
  else if op = 0x30 then noRa && noRb && decide (t.imm.toNat < 256)
  else if op = 0x31 then noRd && noRb && decide (t.imm.toNat < 256)
  else if op = 0x32 then p3 t.ra && noRb && noImm
  else if op = 0x33 then p3 t.rd && noRb && noImm
  else false

/-- The B slot uses only the fields of its operation (R50, R59). -/
def bLegal (t : BSlot) : Bool :=
  let op := t.op.toNat
  let noRa := t.ra == 0; let noRd := t.rd == 0; let noImm := t.imm == 0
  if op = 0 then t == {}
  else if op = 0x01 ∨ op = 0x05 then noRd && noRa
  else if op = 0x02 ∨ op = 0x03 then noRd
  else if op = 0x06 then noRd && noImm
  else if (0x08 ≤ op ∧ op ≤ 0x0E) ∨ (0x10 ≤ op ∧ op ≤ 0x14) then true
  else if op = 0x18 then noRd && noRa && noImm
  else false

/-- Formats VLD and VST may name: FP32, BF16, FP16, the FP8 and FP6 formats, FP4, INT8 (R61). -/
def vMemFmt (c : Nat) : Bool := decide (c ≤ 8)

/-- The conversions of R118: FMT, destination, imm[6]. -/
def vcvtOk (src dst : Nat) (int : Bool) : Bool :=
  let narrow (f : Nat) : Bool := decide (1 ≤ f ∧ f ≤ 9)
  let intf (f : Nat) : Bool := decide (f = 8 ∨ f = 9)
  if int then (src == 0 && dst == 0) || (intf src && dst == 0) || (src == 0 && intf dst)
  else (narrow src && dst == 0) || (src == 0 && narrow dst)

/-- The V slot uses only the fields of its operation (R50, R61, R115, R118). DESIGN CHOICE (log entry 64): VRED with imm[1:0] = 3 is
undefined; RND may be 0 to 2 on every VCVT and VST, also on one that does not round; VLOGIC NOT names no VB. -/
def vLegal (t : VSlot) : Bool :=
  let op := t.op.toNat
  let noVd := t.vd == 0; let noVa := t.va == 0; let noVb := t.vb == 0; let noVc := t.vc == 0
  let noFmt := t.fmt == 0; let noRnd := t.rnd == 0; let noS := t.sreg == 0; let noImm := t.imm == 0
  let rnd02 := t.rnd == 0 || t.rnd == 2
  let rnd012 := t.rnd != 3
  let i := t.imm.toNat
  if op = 0 then t == {}
  else if 0x01 ≤ op ∧ op ≤ 0x03 then noVc && noFmt && rnd02 && noS && noImm
  else if op = 0x04 then noFmt && rnd02 && noS && noImm
  else if op = 0x05 ∨ op = 0x06 then noVc && noFmt && noRnd && noS && noImm
  else if op = 0x07 ∨ op = 0x08 then noVb && noVc && noFmt && noRnd && noS && noImm
  else if op = 0x09 then decide (t.vd.toNat < 8) && noVc && noFmt && noRnd && noS && decide (i < 4)
  else if op = 0x0A then decide (t.vc.toNat < 8) && noFmt && noRnd && noS && noImm
  else if op = 0x0B then (if i = 3 then noVb else true) && noVc && noFmt && noRnd && noS && decide (i < 4)
  else if op = 0x0C then noVc && noFmt && noRnd && noS && noImm
  else if op = 0x0D then
    noVb && noVc && noFmt && noRnd && noS && decide (i < 128) && (if i ≥ 64 then i.testBit 5 else true)
  else if op = 0x10 then noVb && noVc && rnd012 && noS && decide (i < 128) && vcvtOk t.fmt.toNat (i % 16) (i.testBit 6)
  else if 0x14 ≤ op ∧ op ≤ 0x19 then noVb && noVc && noFmt && noRnd && noS && noImm
  else if op = 0x1C then (if i = 0 then noVb && noVc else true) && noFmt && rnd02 && noS && decide (i < 2)
  else if op = 0x1D then noVb && noVc && noFmt && (if i = 0 then rnd02 else noRnd) && noS && decide (i < 3)
  else if op = 0x1E then noVa && noVb && noVc && noFmt && noRnd && noImm
  else if op = 0x1F then noVd && noVb && noVc && noFmt && noRnd && decide (i < 64)
  else if op = 0x20 then noVa && noVb && noVc && noRnd && vMemFmt t.fmt.toNat
  else if op = 0x21 then noVd && noVb && noVc && rnd012 && vMemFmt t.fmt.toNat
  else if op = 0x22 then noVc && noFmt && noRnd && noS && noImm
  else if op = 0x24 then noVa && noVb && noVc && noFmt && noRnd && noS && decide (i < 512)
  else if op = 0x25 then noVd && noVb && noVc && noFmt && noRnd && noS && decide (i < 512)
  else if op = 0x26 then noVa && noVb && noVc && noFmt && noRnd && noS && decide (i < 4)
  else false

/-- The matrix mode an M slot names, if both format codes name formats (R46, R48). -/
def mMode (t : MSlot) : Option MmaMode :=
  match elemFmtOf t.afmt.toNat, elemFmtOf t.bfmt.toNat with
  | some a, some b =>
    some { afmt := a, bfmt := b, sparse := t.sparse, spmode := t.spmode, zero := t.zero, scale := t.scale.toNat }
  | _, _ => none

/-- The M slot is NOP or an MMA the matrix unit allows (R46, R64, R108). -/
def mLegal (t : MSlot) : Bool :=
  if t.op = 0 then t == {}
  else if t.op = 1 then (match mMode t with | some m => m.ok | none => false)
  else false

/-- X-slot FLAGS: V, W, C, P (R47). -/
def xFlagV (f : BitVec 5) : Bool := f.getLsbD 4
/-- W: weight stream. -/
def xFlagW (f : BitVec 5) : Bool := f.getLsbD 3
/-- C: count bytes. -/
def xFlagC (f : BitVec 5) : Bool := f.getLsbD 2
/-- P: count packets. -/
def xFlagP (f : BitVec 5) : Bool := f.getLsbD 1

/-- The X slot uses only the fields of its operation (R50, R69, R70). DESIGN CHOICE (log entry 67): DMA.IX takes no W flag. -/
def xLegal (t : XSlot) : Bool :=
  let op := t.op.toNat
  let noSa := t.sa == 0; let noSb := t.sb == 0; let noSl := t.sl == 0
  let noCnt := t.cnt == 0; let noDq := t.dq == 0; let noFl := t.flags == 0; let noImm := t.imm == 0
  let flOk := !t.flags.getLsbD 0 && !(xFlagC t.flags && xFlagP t.flags)
  if op = 0 then t == {}
  else if op = 0x01 then flOk && noImm
  else if op = 0x02 then flOk && !xFlagW t.flags && noSb && noSl && noImm
  else if op = 0x08 then noSa && noSb && noSl && noCnt && noDq && noFl
  else if op = 0x09 then noSa && noSb && noDq && noFl && noImm
  else if op = 0x0A then noSa && noSl && noDq && noFl && noImm
  else if op = 0x0B then noSa && noSb && noDq && noFl && noImm
  else if op = 0x0C then noSl && noDq && noFl && noImm
  else if op = 0x10 ∨ op = 0x12 then noSb && noCnt && noDq && noFl && noImm
  else if op = 0x11 then noSa && noSb && noSl && noCnt && noDq && noFl && noImm
  else false

/-- A destination register, for the conflict check of R50. -/
inductive Dest where
  | scalar (r : Nat)
  | pred (r : Nat)
  | vector (r : Nat)
  | acc (r : Nat)
  deriving DecidableEq, Repr

/-- Destination of the S slot. -/
def sDest (t : SSlot) : List Dest :=
  let op := t.op.toNat
  if (0x20 ≤ op ∧ op ≤ 0x25) ∨ op = 0x33 then [.pred (t.rd.toNat % 8)]
  else if op = 0 ∨ op = 0x31 then []
  else [.scalar t.rd.toNat]

/-- Destination of the B slot. -/
def bDest (t : BSlot) : List Dest :=
  let op := t.op.toNat
  if (0x08 ≤ op ∧ op ≤ 0x0E) ∨ op = 0x14 then [.scalar t.rd.toNat] else if op = 0x05 then [.scalar 31] else []

/-- Destination of the V slot. -/
def vDest (t : VSlot) : List Dest :=
  let op := t.op.toNat
  if op = 0 ∨ op = 0x21 then []
  else if op = 0x09 then [.pred (t.vd.toNat % 8)]
  else if op = 0x1F then [.scalar t.sreg.toNat]
  else if op = 0x25 then [.acc (t.imm.toNat / 64 % 8)]
  else [.vector t.vd.toNat]

/-- Destination of the M slot. -/
def mDest (t : MSlot) : List Dest := if t.op = 1 then [.acc t.acc.toNat] else []
/-- Destination of the X slot. -/
def xDest (t : XSlot) : List Dest := if t.op.toNat = 0x0A then [.scalar t.sb.toNat] else []

/-- Destinations that count: s0 and p0 do not (R50). -/
def destsOf (b : Bundle) : List Dest :=
  (sDest b.s ++ bDest b.b ++ vDest b.v ++ mDest b.m ++ xDest b.x).filter
    (fun d => decide (d ≠ .scalar 0) && decide (d ≠ .pred 0))

/-- Two entries of a list are equal. -/
def hasDup : List Dest → Bool
  | [] => false
  | d :: t => t.any (fun e => decide (e = d)) || hasDup t

/-- The encoding checks of R50 that a bundle's bits decide. -/
def bundleLegal (b : Bundle) : Bool :=
  b.format == 1 && b.rsv == 0 && sLegal b.s && bLegal b.b && vLegal b.v && mLegal b.m && xLegal b.x && !hasDup (destsOf b)

/-- Format codes the bundle names (R76). -/
def bundleFormats (b : Bundle) : List Nat :=
  let op := b.v.op.toNat
  (if op = 0x10 then [b.v.fmt.toNat, b.v.imm.toNat % 16] else if op = 0x20 ∨ op = 0x21 then [b.v.fmt.toNat] else [])
    ++ (if b.m.op = 1 then [b.m.afmt.toNat, b.m.bfmt.toNat] else [])

-- addresses (R135-R139)

/-- A decoded address. -/
inductive Addr where
  | scratch (off : Nat)
  | cmem (off : Nat)
  | pla (a : Nat)
  | wa (vc : Nat) (core : Option Nat) (off : Nat)
  | va (a : Nat)
  deriving DecidableEq, Repr

/-- Decode an address: its kind, its zero fields and LOFF (R135-R139). `none` raises ADDRESS_RANGE. -/
def addrOf (v : Nat) : Option Addr :=
  let kind := v / 2 ^ 60 % 16
  if kind = 0 then
    let o := v % 2 ^ 23
    if bitsAt v 59 23 ≠ 0 then none
    else if o < 0x40000 then some (.scratch o)
    else if o ≥ 0x400000 then some (.cmem (o - 0x400000))
    else none
  else if kind = 1 then (if bitsAt v 59 44 ≠ 0 then none else some (.pla (v % 2 ^ 44)))
  else if kind = 2 then
    let sel := v.testBit 44
    let core := bitsAt v 43 39
    if bitsAt v 47 45 ≠ 0 ∨ bitsAt v 38 22 ≠ 0 ∨ (!sel ∧ core ≠ 0) then none
    else some (.wa (bitsAt v 59 48) (if sel then some core else none) (v % 2 ^ 22))
  else if kind = 8 then (if bitsAt v 59 57 ≠ 0 then none else some (.va (v % 2 ^ 57)))
  else none

/-- Where an access resolves: inside the issuing core's cluster (a core's scratchpad or the cluster memory), in another cluster,
in PLA space, or at a VA. -/
inductive Target where
  | inside (core : Option Nat) (off : Nat)
  | remote (cl : Nat) (core : Option Nat) (off : Nat)
  | pla (a : Nat)
  | va (a : Nat)
  deriving DecidableEq, Repr

/-- Bytes that a read-cache setting takes (R142). -/
def rcacheBytes (set : Nat) : Nat := (set % 8) * 0x40000

/-- Resolve an address of core `k` for `n` bytes (R136-R141): `none` when it lies past an extent (ADDRESS_RANGE). -/
def State.target (s : State) (k : CoreId) (h : HostCtx) (a : Addr) (n : Nat) : Option Target :=
  let top := 0x400000 - rcacheBytes h.rcache
  match a with
  | .scratch o => if o + n ≤ 0x40000 then some (.inside (some k.core) o) else none
  | .cmem o => if o + n ≤ top then some (.inside none o) else none
  | .wa vc core o =>
    let cls := (s.part h.part).pat.clusters h.vd
    if vc ≥ cls.length ∨ (core.isSome ∧ o + n > 0x40000) ∨ (core.isNone ∧ o + n > top) then none
    else
      let cl := cls.getD vc 0
      if cl = k.cl then some (.inside core o) else some (.remote cl core o)
  | .pla p =>
    let pat := (s.part h.part).pat
    if (pat.resolve p).isSome && (n = 0 || (pat.resolve (p + n - 1)).isSome) then some (.pla p) else none
  | .va v => some (.va v)

/-- An access that uses the core's cluster port (R127): inside the cluster, but not the own scratchpad. -/
def Target.onPort (k : CoreId) : Target → Bool
  | .inside none _ => true
  | .inside (some c) _ => decide (c ≠ k.core.val)
  | _ => false

/-- Latency of a load or store inside the cluster (R60, R61). -/
def Target.latency (k : CoreId) (own other : Nat) (t : Target) : Nat := if t.onPort k then other else own

/-- A scalar register: s0 reads zero (R39). -/
def CoreSt.sreg (c : CoreSt) (i : Nat) : Word := if i = 0 then 0 else tabGet 0 c.sregs i
/-- A vector register. -/
def CoreSt.vreg (c : CoreSt) (i : Nat) : VWord := tabGet 0 c.vregs i
/-- Lane `i` of a vector. -/
def vlane (v : VWord) (i : Nat) : Nat := (v.toNat / 2 ^ (32 * i)) % 2 ^ 32
/-- The 64 lanes of a vector. -/
def vlanes (v : VWord) : List Nat := (natRange 0 64).map (vlane v)
/-- A vector of lanes. -/
def ofLanes (ls : List Nat) : VWord := BitVec.ofNat 2048 (packElems 32 ls)

/-- The bits of the lanes a mask selects. -/
def laneMask (m : Word) : VWord :=
  ofLanes ((natRange 0 64).map (fun i => if m.getLsbD i then 2 ^ 32 - 1 else 0))

/-- Merge a result into a register, lane by lane (R49). -/
def laneMerge (old new : VWord) (m : Word) : VWord :=
  let x := laneMask m
  (old &&& ~~~ x) ||| (new &&& x)

/-- A signed immediate of `w` bits added to an address (R44, R61). -/
def addImm (a : Word) (w imm : Nat) : Nat := (a + BitVec.ofInt 64 (sext w imm)).toNat

/-- Word key of an accumulator element. -/
def accKey (tile row lane : Nat) : Nat := tile * 4096 + row * 64 + lane
/-- An accumulator word. -/
def CoreSt.acc (c : CoreSt) (tile w : Nat) : Nat := tabGet 0 c.accs (tile * 4096 + w)
/-- A row of an accumulator tile (R39). -/
def CoreSt.accRow (c : CoreSt) (tile row : Nat) : VWord :=
  ofLanes ((natRange 0 64).map (fun l => tabGet 0 c.accs (accKey tile row l)))

end Sys2Proof.Machine
end

