-- ==== Sys2Proof/Machine/Clock.lean ====
section
/-! DEFINITION. A cluster's CLK_CORE cycles: results and stores landing (R51-R53, R129, R130), the matrix unit's executing and
pending MMA (R65-R67), and the freeze and thaw of a core (R78, R79). -/

namespace Sys2Proof.Machine

/-- Bytes of a local destination: cluster memory, or a core's scratchpad. -/
def ClusterSt.localRead (c : ClusterSt) (dst : Option Nat) (off n : Nat) : List Byte :=
  match dst with
  | none => memRead c.cmem off n
  | some k => memRead (c.co k).scratch off n

/-- A local range has a poisoned row (R174). -/
def ClusterSt.localPoison (c : ClusterSt) (dst : Option Nat) (off n : Nat) : Bool :=
  match dst with
  | none => anyPoison c.poison off n
  | some k => anyPoison (c.co k).poison off n

/-- The rows that an MMA's operands lie in. -/
def MmaRun.rows (m : MmaRun) : List Nat :=
  (rowsOf m.aOff m.mode.aBytes ++ rowsOf m.bOff m.mode.bBytes).foldl addOnce []

/-- Refresh the bytes of an operand that lie in row `r` from a scratchpad. -/
def patchOperand (x off len r : Nat) (scratch : Mem) : Nat :=
  let lo := max off (256 * r)
  let hi := min (off + len) (256 * r + 256)
  if lo ≥ hi then x
  else
    let sh := 2 ^ (8 * (lo - off))
    let w := 2 ^ (8 * (hi - lo))
    x - ((x / sh) % w) * sh + leNat (memRead scratch lo (hi - lo)) * sh

/-- The fault an MMA that read a poisoned row leaves for the core's next boundary (R66): neither it nor a pending MMA writes. -/
def CoreSt.mmaPoison (k : CoreSt) (m : MmaRun) : CoreSt :=
  { k with mexec := some { m with poisoned := true }, mpend := none,
           pendFault := if k.pendFault.isSome then k.pendFault else some (0x8414, m.pc) }

/-- The number of execution cycles whose writes an operand row shows (R66): from none of cycles 0-47 to all of them. -/
def rowSees (ci core start r : Nat) : Nat := Config.rowCycle ci core start r % 49

/-- The executing MMA reads an operand row (R66): whole, and its poison with it. -/
def CoreSt.readOperand (k : CoreSt) (r : Nat) (v : Mem × List Nat) : CoreSt :=
  match k.mexec with
  | none => k
  | some m =>
    let m := { m with opA := patchOperand m.opA m.aOff m.mode.aBytes r v.1,
                      opB := patchOperand m.opB m.bOff m.mode.bBytes r v.1 }
    if hasNat v.2 r && !m.poisoned then k.mmaPoison m else { k with mexec := some m }

/-- A write of at most one row lands in the cluster (R53, R129, R130): bytes and poison. -/
def ClusterSt.storeNow (c : ClusterSt) (dst : Option Nat) (off : Nat) (data mask : List Byte) (poisoned : Bool) : ClusterSt :=
  let n := data.length
  let new := mergeBytes (c.localRead dst off n) data mask
  match dst with
  | none => { c with cmem := memWrite c.cmem off new, poison := poisonAfter c.poison off n mask.isEmpty poisoned }
  | some k =>
    c.updCo k (fun x => { x with scratch := memWrite x.scratch off new,
                                 poison := poisonAfter x.poison off n mask.isEmpty poisoned })

/-- A core-port store lands: it is remembered for the rest of the cycle (R129). -/
def ClusterSt.storeLands (c : ClusterSt) (dst : Option Nat) (off : Nat) (data mask : List Byte) : ClusterSt :=
  let e : LandedRow := { core := dst, off := off, old := c.localRead dst off data.length, new := data, mask := mask,
                         wasPoison := c.localPoison dst off data.length }
  let c := c.storeNow dst off data mask false
  { c with landedNow := c.landedNow ++ [e] }

/-- A fabric-port write lands: core-port writes of the same cycle stay the later ones, in their order (R129). -/
def ClusterSt.fabricNow (c : ClusterSt) (dst : Option Nat) (off : Nat) (data mask : List Byte) (poisoned : Bool) : ClusterSt :=
  c.landedNow.foldl (fun c e => if e.core = dst then c.storeNow e.core e.off e.new e.mask false else c)
    (c.storeNow dst off data mask poisoned)

/-- Replace a whole accumulator tile. -/
def setTile (accs : Tab Nat) (tile : Nat) (words : List Nat) : Tab Nat :=
  accs.filter (fun e => decide (e.1 < 4096 * tile))
    ++ (natRange (4096 * tile) words.length).zip words
    ++ accs.filter (fun e => decide (4096 * tile + 4096 ≤ e.1))

/-- Set a row of an accumulator tile under a lane mask (R49). -/
def setAccRow (k : CoreSt) (tile row : Nat) (mask : Word) (v : VWord) : CoreSt :=
  { k with accs := (natRange 0 64).foldl (fun t l =>
      if mask.getLsbD l then tabSet t (accKey tile row l) (vlane v l) else t) k.accs }

/-- What a landing entry does to its core's registers. -/
def landReg (k : CoreSt) : LandKind → CoreSt
  | .scalar r v => if r = 0 then k else { k with sregs := tabSet k.sregs r v }
  | .pred r v m => if r = 0 then k else { k with pregs := tabSet k.pregs r ((k.preg r &&& ~~~ m) ||| (v &&& m)) }
  | .vector r m v => { k with vregs := tabSet k.vregs r (laneMerge (k.vreg r) v m) }
  | .accRow tile row m v => setAccRow k tile row m v
  | .accTile tile ws => { k with accs := setTile k.accs tile ws }
  | .draw i v => { k with draws := tabSet k.draws i v }
  | .store _ _ _ _ | .counter _ _ => k

/-- A landing entry of core `i` becomes visible. -/
def ClusterSt.land (c : ClusterSt) (i : Nat) : LandKind → ClusterSt
  | .store dst off data mask => c.storeLands dst off data mask
  | .counter n v => { c with cnt := tabSet c.cnt n (cntSetTo v) }
  | w => c.updCo i (fun k => landReg k w)

/-- Everything of core `i` due by the present cycle lands, in issue order (R52). -/
def ClusterSt.landCore (c : ClusterSt) (i : Nat) : ClusterSt :=
  let k := c.co i
  let due := k.landing.filter (fun e => decide (e.due ≤ c.cycle))
  if due.isEmpty then c
  else
    let c := c.setCo i { k with landing := k.landing.filter (fun e => decide (c.cycle < e.due)) }
    due.foldl (fun c e => c.land i e.what) c

/-- Put a landing entry behind those that land no later. -/
def insertDue (e : Landing) : List Landing → List Landing
  | [] => [e]
  | x :: t => if e.due < x.due then e :: x :: t else x :: insertDue e t

/-- Landing entries in landing order, those of one cycle oldest first (R83). -/
def byDue (l : List Landing) : List Landing := l.foldl (fun a e => insertDue e a) []

/-- A frozen core's parked results that would have landed by a cycle, each with the cycle in which it would (R79). -/
def CoreSt.parkedBy (k : CoreSt) (cycle : Nat) : List Landing :=
  if k.fzDone then ((k.parked.map (fun e => { e with due := e.due + k.nextFree })).filter (fun e => decide (e.due ≤ cycle))) else []

-- the matrix unit (R65-R67)

/-- The scratchpad of core `i` and its poison as the core's matrix unit sees them: with the stores parked by a freeze that would have
landed by now, in the order in which they would have (R78, R79, R129). -/
def ClusterSt.matrixView (c : ClusterSt) (i : Nat) : Mem × List Nat :=
  (byDue (c.cores.flatMap (fun e => e.2.parkedBy c.cycle))).foldl (fun v l =>
    match l.what with
    | .store (some d) off data mask =>
      if d = i then
        (memWrite v.1 off (mergeBytes (memRead v.1 off data.length) data mask), poisonAfter v.2 off data.length mask.isEmpty false)
      else v
    | _ => v) ((c.co i).scratch, (c.co i).poison)

/-- The scratchpad an MMA that starts in this cycle sees: a row that shows no write of its execution cycles is as it stood before the
stores that landed in this one (R66). -/
def startView (ci i : Nat) (c : ClusterSt) : Mem × List Nat :=
  c.landedNow.reverse.foldl (fun v e =>
    if e.core = some i ∧ rowSees ci i c.cycle (e.off / 256) = 0 then
      (memWrite v.1 e.off e.old, if e.wasPoison then (rowsOf e.off e.old.length).foldl addOnce v.2 else v.2)
    else v) (c.matrixView i)

/-- An MMA starts executing in the present cycle: its operands are read as they stand, and the rows that show later writes are read
again when their cycle comes (R66). -/
def ClusterSt.mmaStart (ci i : Nat) (c : ClusterSt) (m : MmaRun) : ClusterSt :=
  let v := startView ci i c
  let m := { m with start := c.cycle, opA := leNat (memRead v.1 m.aOff m.mode.aBytes),
                    opB := leNat (memRead v.1 m.bOff m.mode.bBytes) }
  c.updCo i (fun k => (m.rows.filter (fun r => decide (rowSees ci i c.cycle r = 0))).foldl (fun k r => k.readOperand r v)
    { k with mexec := some m })

/-- The operand rows that core `i`'s MMA reads before the writes of the coming cycle (R66). -/
def ClusterSt.mmaReads (ci : Nat) (c : ClusterSt) (i : Nat) : ClusterSt :=
  match (c.co i).mexec with
  | none => c
  | some m =>
    if m.start + 48 ≤ c.cycle then c
    else
      let v := c.matrixView i
      c.updCo i (fun k => (m.rows.filter (fun r => decide (m.start + rowSees ci i m.start r = c.cycle + 1))).foldl
        (fun k r => k.readOperand r v) k)

/-- The accumulators of a core as its matrix unit sees them in a cycle: with the results parked by a freeze that would be visible by then
in the order in which they would (R67, R79). -/
def CoreSt.accsSeen (k : CoreSt) (cycle : Nat) : CoreSt := (byDue (k.parkedBy cycle)).foldl (fun x e => landReg x e.what) k

/-- The last execution cycle of an MMA: its product is added to the accumulator as it stands; the result lands 13 cycles later, or, of a
frozen core, goes to the landing buffer (R67, R78 step 3). Invalid TRI bytes count once (R96); DESIGN CHOICE (log entry 66): those of an
MMA that read a poisoned row, and so writes no accumulator, do not. -/
def ClusterSt.mmaLast (c : ClusterSt) (i : Nat) (m : MmaRun) : ClusterSt :=
  if m.poisoned then c
  else
    let k := c.co i
    let seen := k.accsSeen c.cycle
    let r : LandKind := .accTile m.acc (m.mode.tile m.opA m.opB (fun w => seen.acc m.acc w))
    let c := c.setCo i (
      if k.fzDone then { k with parked := k.parked ++ [{ due := m.start + 268 - k.nextFree, what := r }] }
      else { k with landing := k.landing ++ [{ due := m.start + 268, what := r }] })
    { c with triInvalid := min (c.triInvalid + m.mode.triInvalid m.opB) 0xFFFFFFFF }

/-- One cycle of a core's matrix unit (R65): the product at execution cycle 255, then the pending MMA's start. -/
def ClusterSt.mmaTick (ci : Nat) (c : ClusterSt) (i : Nat) : ClusterSt :=
  let k := c.co i
  match k.mexec with
  | none => c
  | some m =>
    if c.cycle = m.start + 255 then c.mmaLast i m
    else if c.cycle ≥ m.start + 256 then
      let c := c.setCo i { k with mexec := none, mpend := none }
      match k.mpend with
      | some q => c.mmaStart ci i q
      | none => c
    else c

/-- The cycle in which a core's matrix unit falls idle: `t` where it is idle. -/
def CoreSt.mmaIdle (k : CoreSt) (t : Nat) : Nat :=
  match k.mexec with
  | none => t
  | some m => m.start + (if k.mpend.isSome then 512 else 256)

/-- The cycle by which a core beyond its boundary has nothing under way: its matrix unit idle, its counter results landed. -/
def CoreSt.stillAt (k : CoreSt) (t : Nat) : Nat := k.landing.foldl (fun m e => max m e.due) (k.mmaIdle t)

/-- One CLK_CORE cycle of a cluster. -/
def ClusterSt.tick (ci : Nat) (c : ClusterSt) : ClusterSt :=
  let ids := c.cores.map (fun e => e.1)
  let c := ids.foldl (fun c i => c.mmaReads ci i) c
  let c := { c with cycle := c.cycle + 1, ref := nextEdge c.op c.ref, landedNow := [], fencesNow := [], readNow := false }
  let c := ids.foldl (fun c i => c.landCore i) c
  ids.foldl (fun c i => c.mmaTick ci i) c

/-- `n` cycles of a cluster. -/
def ClusterSt.ticks (ci : Nat) : Nat → ClusterSt → ClusterSt
  | 0, c => c
  | n + 1, c => ClusterSt.ticks ci n (c.tick ci)

/-- Bring a cluster to cycle `t`, if it is not there yet. -/
def ClusterSt.advance (ci : Nat) (c : ClusterSt) (t : Nat) : ClusterSt := ClusterSt.ticks ci (t - c.cycle) c

/-- The package's reference count is at least a cluster's (R522). -/
def State.caughtUp (s : State) (i : Nat) : State := { s with ticks := max s.ticks (s.cl i).ref }

/-- Bring cluster `i` to cycle `t`, if it is not there yet; its reference count goes on with it (R522). -/
def State.advance (s : State) (i t : Nat) : State :=
  if t ≤ (s.cl i).cycle then s else (s.updCl i (fun c => c.advance i t)).caughtUp i

/-- The cycle by which everything a core has in flight has landed. -/
def CoreSt.settled (k : CoreSt) (t : Nat) : Nat :=
  k.landing.foldl (fun m e => max m e.due) (if k.mexec.isSome then k.mmaIdle t + 12 else t)

/-- The data of outside reads that have arrived, written to its registers. -/
def CoreSt.takeArrived (k : CoreSt) : CoreSt := { k.arrived.foldl landReg k with arrived := [] }

/-- The results of earlier bundles land, those of the matrix unit and the data of outside reads that has arrived among them (R76). -/
def ClusterSt.settle (ci : Nat) (c : ClusterSt) : ClusterSt :=
  let c := c.advance ci (c.cores.foldl (fun t e => max t (e.2.settled c.cycle)) c.cycle)
  { c with cores := c.cores.map (fun e => (e.1, e.2.takeArrived)) }

/-- A fabric-port write lands in the present cycle, or, where a read of that cycle has been made, in the next one (R129). -/
def ClusterSt.fabricLands (ci : Nat) (c : ClusterSt) (dst : Option Nat) (off : Nat) (data mask : List Byte) (poisoned : Bool) :
    ClusterSt :=
  (if c.readNow then c.tick ci else c).fabricNow dst off data mask poisoned

/-- The first cycle from `t` on that is no gap cycle (R56, R542). -/
def ClusterSt.issueCycle (c : ClusterSt) (t : Nat) : Nat := if t % 16 < c.gap ∧ c.gap < 16 then t / 16 * 16 + c.gap else t

/-- The earliest due cycle of a core's landing entries of a kind. -/
def nextDue (k : CoreSt) (p : LandKind → Bool) : Option Nat :=
  k.landing.foldl (fun m e => if p e.what then some (match m with | some x => min x e.due | none => e.due) else m) none

/-- A store entry. -/
def isStore : LandKind → Bool
  | .store _ _ _ _ => true
  | _ => false
/-- A whole accumulator tile. -/
def isTile : LandKind → Bool
  | .accTile _ _ => true
  | _ => false
/-- A row counter's new value: a result of the X slot, which a freeze does not divert (R78 step 2). -/
def isCounter : LandKind → Bool
  | .counter _ _ => true
  | _ => false
/-- A register, predicate, accumulator row, draw counter or row counter result. -/
def isResult : LandKind → Bool
  | .store _ _ _ _ | .accTile _ _ => false
  | _ => true

-- freeze and thaw (R78, R79)

/-- A core passes its freeze boundary at the cycle in which its first unissued bundle would issue: what is due later is parked with its
RESIDUAL (R78 steps 1 and 2, R79). DESIGN CHOICE (log entry 15): for a bundle that is held under R54 that is the boundary's cycle. -/
def ClusterSt.freezeCore (ci : Nat) (c : ClusterSt) (i : Nat) : ClusterSt :=
  let t := c.issueCycle (max c.cycle (c.co i).nextFree)
  let c := c.advance ci t
  c.updCo i (fun k => { k.takeArrived with
    fzDone := true, frozen := true, sampleMs := 0, nextFree := t, resuming := false, landing := k.landing.filter (fun e => isCounter e.what),
    parked := (if k.resuming then k.parked else [])
      ++ (k.landing.filter (fun e => !isCounter e.what)).map (fun e => { e with due := e.due - t }) })

/-- Parked results count from cycle `t` (R79). -/
def CoreSt.unpark (k : CoreSt) (t : Nat) : CoreSt :=
  { k with resuming := false, parked := [], landing := k.landing ++ k.parked.map (fun e => { e with due := e.due + t }) }

/-- A frozen core resumes, its matrix unit idle (R78 step 3): the residuals of a core that runs count from its first bundle (R79). -/
def ClusterSt.thawCore (ci : Nat) (c : ClusterSt) (i : Nat) : ClusterSt :=
  let c := if (c.co i).fzDone then c.advance ci ((c.co i).stillAt c.cycle) else c
  c.updCo i (fun k =>
    let k := { k with frozen := false }
    if k.fzDone then
      let t := max c.cycle k.nextFree
      if k.run = .running then { k with fzDone := false, nextFree := t, resuming := true } else { k.unpark t with fzDone := false }
    else k)

/-- Every core of a cluster is frozen at its next boundary (R78); the read cache is emptied (R145). -/
def ClusterSt.freezeAll (c : ClusterSt) : ClusterSt :=
  { c with cache := [], cores := c.cores.map (fun e => (e.1, { e.2 with frozen := true })) }

/-- Every core of a cluster resumes, with an empty read cache (R145). -/
def ClusterSt.thawAll (ci : Nat) (c : ClusterSt) : ClusterSt :=
  { (c.cores.map (fun e => e.1)).foldl (fun c i => c.thawCore ci i) c with cache := [] }

/-- What a core's DMA engines have still to send enters the mesh under a revision (R254): after a freeze, that of the resumption. -/
def CoreSt.renew (rev : Nat) (k : CoreSt) : CoreSt :=
  { k with dmaq := k.dmaq.map (fun q => (q.1, q.2.map (fun e => { e with rev := rev }))) }

/-- The same, for every core of a cluster. -/
def ClusterSt.renew (rev : Nat) (c : ClusterSt) : ClusterSt := { c with cores := c.cores.map (fun e => (e.1, e.2.renew rev)) }

/-- A core has passed its boundary, its matrix unit is idle and its counter results have landed, or it has nothing to stop and nothing in
flight (R78). -/
def CoreSt.stillDone (k : CoreSt) : Bool :=
  k.mexec.isNone && k.pendFault.isNone && k.landing.isEmpty &&
    (k.fzDone || (match k.run with | .running | .halting => false | _ => true))

/-- Every core of a cluster has passed its boundary. -/
def ClusterSt.frozenAll (c : ClusterSt) : Bool := c.cores.all (fun e => e.2.stillDone)

/-- Every cluster of a context has frozen. -/
def State.ctxFrozen (s : State) (p c : Nat) : Bool := (s.runClusters p c).all (fun i => (s.cl i).frozenAll)

end Sys2Proof.Machine
end

