-- ==== Sys2Proof/Machine/GenEnd.lean ====
section
/-! DEFINITION. Sequence entries and output records of a GENERATE (R202-R204, R223), and what a fault that ends it leaves in them
(R221, R227). -/

namespace Sys2Proof.Machine

/-- A field of the GENERATE payload (R200). -/
def GenSt.fld (g : GenSt) (off size : Nat) : Nat := fieldAt g.payload off size
/-- STATE of an entry. -/
def seqState (e : List Byte) : Nat := fieldAt e 0 1
/-- POSITION. -/
def seqPos (e : List Byte) : Nat := fieldAt e 0x1C 4
/-- KV_LIMIT. -/
def seqLimit (e : List Byte) : Nat := fieldAt e 0x30 4
/-- A slot is active: PREFILL or DECODE. -/
def seqActive (e : List Byte) : Bool := seqState e == 1 || seqState e == 2

/-- An entry ended (R203): DONE with its STOP byte and REASON. -/
def seqEnd (e : List Byte) (stop reason : Nat) : List Byte :=
  patchAt (patchAt e 0 [3#8]) 2 (leBytes 1 stop ++ zeros 1 ++ leBytes 2 reason)

/-- An output record (R223). -/
def outRecord (tok tag pos slot flags stop : Nat) : List Byte :=
  leBytes 4 tok ++ leBytes 4 tag ++ leBytes 4 pos ++ leBytes 2 slot ++ leBytes 1 flags ++ leBytes 1 stop

/-- The fields of an entry that the device writes (R204): STATE, STOP and REASON, POSITION and GENERATED. -/
def entryPieces (base i : Nat) (e : List Byte) : List (Nat × List Byte) :=
  let a := base + 64 * i
  [(a, e.take 1), (a + 2, (e.drop 2).take 4), (a + 0x1C, (e.drop 0x1C).take 8)]

/-- A write that is not answered for: what cannot be reached is lost. -/
def tryWrites (p c : Nat) (ws : List (Nat × List Byte)) (s : State) : State :=
  ws.foldl (fun s w => (s.agentWrite p c w.1 w.2 false).1) s

/-- Records fit the ring (R224): its tail, if it can be read, leaves room. -/
def State.ringRoom (s : State) (p c : Nat) (g : GenSt) (n : Nat) : Bool :=
  match s.agentRead p c (g.fld 0x50 8) 8 with
  | (_, .ok (tb, false)) => decide (g.head + n ≤ leNat tb + g.fld 0x40 4)
  | _ => false

/-- A fault ends a GENERATE (R221, R223, R227): every active slot ends with ERROR and the code, and writes its last record. The head is
left: it counts records of completed steps only. What the fault puts out of reach is not written (log entry 71). -/
def State.genFaults (s : State) (p c code : Nat) : State :=
  match (s.ctx p c).genr with
  | none => s
  | some g =>
    let live := g.seqs.filter (fun e => seqActive e.2)
    let records := g.records ++ live.map (fun e => outRecord 0xFFFFFFFF (fieldAt e.2 8 4) (seqPos e.2) e.1 2 6)
    let n := records.length
    let recs := ((natRange 0 n).zip records).map (fun x => (g.fld 0x38 8 + 16 * ((g.head + x.1) % g.fld 0x40 4), x.2))
    let changed := g.seqs.filter (fun e => hasNat g.ended e.1) ++ live.map (fun e => (e.1, seqEnd e.2 6 code))
    let seqs := changed.flatMap (fun e => entryPieces (g.fld 0x28 8) e.1 e.2)
    tryWrites p c ((if s.ringRoom p c g n then recs else []) ++ seqs) s

end Sys2Proof.Machine
end

