-- ==== Sys2Proof/Machine/Events.lean ====
section
/-! DEFINITION. What the device reports: log entries (R500, R501), management interrupts (R498), MSI-X messages (R318), event
records and their queues (R404-R410), the port event queues (R319), fences (R398-R403), references (R411-R413), fault batches
(R337-R342), and the end of packets and of a context's run (R392, R76). -/

namespace Sys2Proof.Machine

-- management interrupts (R498)

/-- Pending sources of a class that target core `mc`. -/
def IrqSt.pendingFor (q : IrqSt) (mc : Nat) (fast : Bool) : List Nat :=
  q.pending.filter (fun x => let f := tabGet 0 q.cfg x; decide (f.testBit 4 = fast) && f.testBit mc)

/-- The lines that rise between two states of the controller: of a core and a class whose count of pending sources leaves 0 (R498). -/
def IrqSt.rises (old new : IrqSt) : List (Nat × Bool) :=
  [false, true].flatMap (fun fast => ((natRange 0 4).filter (fun mc =>
    (old.pendingFor mc fast).isEmpty && !(new.pendingFor mc fast).isEmpty)).map (fun mc => (mc, fast)))

/-- Raise a source: pending if enabled; again pending after its completion if claimed. A core's line of the class is raised
when its count of pending sources rises from 0 (R498). -/
def State.irqRaise (s : State) (src : Nat) : State :=
  let q := s.irq
  let cfg := tabGet 0 q.cfg src
  if src ≥ 20 ∨ !cfg.testBit 8 then s
  else if q.claimed.any (fun x => decide (x.1 = src)) then { s with irq := { q with again := addOnce q.again src } }
  else if hasNat q.pending src then s
  else
    let fast := cfg.testBit 4
    let rise := (natRange 0 4).filter (fun mc => cfg.testBit mc && (q.pendingFor mc fast).isEmpty)
    { s with irq := { q with pending := q.pending ++ [src], lines := q.lines ++ rise.map (fun mc => (mc, fast)) } }

-- the event log (R500, R501)

/-- The 64 bytes of a log entry. -/
def logBytes (seq boot source sev code part kind stamp : Nat) (data : List Byte) : List Byte :=
  leBytes 8 seq ++ leBytes 4 boot ++ leBytes 1 source ++ leBytes 1 sev ++ leBytes 2 code ++ leBytes 1 part ++ zeros 1
    ++ leBytes 2 kind ++ zeros 4 ++ leBytes 8 stamp ++ padTo 32 data

/-- Log an entry: at most 16,384 in a second, the rest counted; the ring holds the latest 32,768 (R501). -/
def State.logEntry (s : State) (source sev code part kind : Nat) (data : List Byte) : State :=
  let g := s.log
  if g.second ≥ 16384 then { s with log := { g with suppressed := g.suppressed + 1 } }
  else
    let e := logBytes g.next g.boot source sev code part kind s.hubCycles data
    let ring := g.ring ++ [e]
    let s := { s with log := { g with ring := ring.drop (ring.length - 32768), next := g.next + 1, second := g.second + 1,
                                      uncopied := g.uncopied + 1 } }
    if s.log.uncopied = 1024 then s.irqRaise 11 else s

/-- A condition of the hub that concerns no partition and no context is logged (R500 KIND 1): its 14 DATA bytes, then CTX for none. -/
def State.logCondition (s : State) (source sev code : Nat) (data : List Byte) : State :=
  s.logEntry source sev code 0xFF 1 (padTo 14 data ++ leBytes 2 0xFFFF)

/-- The severity of a posted condition: a refusal is a notice, a fault an error (log entry 13). -/
def codeSeverity (code : Nat) : Nat := if code ≥ 0x8000 then 2 else 1

-- event records (R405-R408)

/-- An event record's 32 bytes, with its sequence number and LOST_BEFORE. -/
def recordBytes (s : State) (r : EvRecord) (seq : Nat) (lostBefore : Bool) : List Byte :=
  let stamp := (if r.source ≤ 3 then s.dieCycles r.source else s.hubCycles) % 2 ^ 48
  leBytes 1 r.typ ++ leBytes 1 r.source ++ leBytes 2 r.code ++ leBytes 2 r.ctx ++ leBytes 2 (bnat lostBefore)
    ++ leBytes 4 seq ++ leBytes 6 stamp ++ padTo 14 r.data

/-- Absolute records of a queue that are neither claimed nor completed, oldest first (R408, R410). -/
def EvqSt.unclaimed (q : EvqSt) : List Nat :=
  ((natRange 0 ((q.producer + 2 ^ 32 - q.consumer) % 2 ^ 32)).map (fun i => (q.consumer + i) % 2 ^ 32)).filter
    (fun n => !hasNat q.claimed n && !hasNat q.completed n)

-- MSI-X (R313, R314, R318)

/-- The place of a vector's entry among the tables of the part: 65 functions to a port, at most 128 vectors to a function. -/
def Msix.key (v : Msix) : Nat := (v.port * 65 + v.fn) * 128 + v.vector

/-- The table entry of a vector. -/
def MsiSt.entry (m : MsiSt) (v : Msix) : MsiEntry := tabGet {} m.tab v.key

/-- Send a vector's message, and clear its pending bit. -/
def MsiSt.send (m : MsiSt) (v : Msix) : MsiSt :=
  { m with pend := m.pend.filter (fun x => decide (x ≠ v)), sent := m.sent ++ [{ port := v.port, addr := (m.entry v).addr, data := (m.entry v).data }] }

/-- Raise a vector: a masked one becomes pending, another sends its message. -/
def MsiSt.raise (m : MsiSt) (v : Msix) : MsiSt :=
  if (m.entry v).mask then (if m.pend.any (fun x => decide (x = v)) then m else { m with pend := m.pend ++ [v] }) else m.send v

/-- Raise a vector of a port's function. -/
def State.raise (s : State) (v : Msix) : State := { s with msix := s.msix ++ [v], msi := s.msi.raise v }

/-- The 16 bytes of a table entry: message address, message data, vector control with Mask in bit 0. -/
def MsiEntry.bytes (e : MsiEntry) : List Byte := leBytes 8 e.addr ++ leBytes 4 e.data ++ leBytes 4 (bnat e.mask)

/-- A table entry of 16 bytes: the low two bits of the address read zero. -/
def msiEntryOf (bs : List Byte) : MsiEntry :=
  { addr := fieldAt bs 0 8 / 4 * 4, data := fieldAt bs 8 4, mask := (fieldAt bs 12 4).testBit 0 }

/-- A write to the table of a function with `n` vectors, an aligned access of 4 or 8 bytes: a pending vector that it unmasks is sent. -/
def MsiSt.write (m : MsiSt) (port fn n off : Nat) (data : List Byte) : MsiSt :=
  let v : Msix := { port := port, fn := fn, vector := off / 16 }
  if off / 16 ≥ n ∨ (data.length ≠ 4 ∧ data.length ≠ 8) ∨ off % data.length ≠ 0 then m
  else
    let m := { m with tab := tabSet m.tab v.key (msiEntryOf (patchAt (m.entry v).bytes (off % 16) data)) }
    if !(m.entry v).mask && m.pend.any (fun x => decide (x = v)) then m.send v else m

/-- A read of `k` bytes of a function's table at `off`. -/
def MsiSt.read (m : MsiSt) (port fn n off k : Nat) : List Byte :=
  if off / 16 ≥ n ∨ (k ≠ 4 ∧ k ≠ 8) ∨ off % k ≠ 0 then zeros k
  else ((m.entry { port := port, fn := fn, vector := off / 16 }).bytes.drop (off % 16)).take k

/-- Bits 64i to 64i + 63 of a function's pending-bit array. -/
def MsiSt.pba (m : MsiSt) (port fn i : Nat) : Nat :=
  (natRange 0 64).foldl (fun a b =>
    if m.pend.any (fun x => decide (x = { port := port, fn := fn, vector := 64 * i + b })) then a + 2 ^ b else a) 0

/-- A function-level reset: the function's table has its reset values and nothing of it is pending. -/
def MsiSt.resetFn (m : MsiSt) (port fn : Nat) : MsiSt :=
  { m with tab := m.tab.filter (fun e => decide (e.1 / 128 ≠ port * 65 + fn)),
           pend := m.pend.filter (fun x => !(decide (x.port = port) && decide (x.fn = fn))) }

/-- The function's registers in a function-level reset. -/
def State.msiReset (s : State) (port fn : Nat) : State := { s with msi := s.msi.resetFn port fn }

/-- Raise the targets of an event queue (R408, R318). -/
def State.evqSignal (s : State) (p q : Nat) : State :=
  let e := (s.part p).evq q
  let port := (s.part p).desc.ownerPort
  let vs := ((natRange 0 64).filter (fun i => e.targets.testBit i)).map (fun i =>
    ({ port := port, fn := p + 1, vector := if e.fast then 64 + i else i } : Msix))
  vs.foldl State.raise s

/-- The ring is full (R407). -/
def EvqSt.full (q : EvqSt) : Bool := decide ((q.producer + 2 ^ 32 - q.consumer) % 2 ^ 32 ≥ q.entries)

/-- Write one 32-byte record into a queue's ring, count it in PRODUCER, and signal on a rise from 0 (R407, R408). `none` when
the ring cannot be reached now. -/
def State.evqWrite (s : State) (p q : Nat) (mk : Nat → Bool → List Byte) : Option State :=
  let e := (s.part p).evq q
  let n := e.producer
  match s.agentWrite p e.ctx (e.ring + 32 * (n % e.entries)) (mk n e.lostBefore) false true (some 0) with
  | (_, .error _) => none
  | (s, .ok _) =>
    let rise := e.unclaimed.isEmpty
    let s := s.updEvq p q (fun e => { e with producer := (e.producer + 1) % 2 ^ 32, lostBefore := false })
    some (if rise then s.evqSignal p q else s)

/-- Count a dropped record (R407). -/
def State.evqLose (s : State) (p q : Nat) : State :=
  s.updEvq p q (fun e => { e with lost := satInc32 e.lost, lostBefore := true })

/-- Post an event record to its queue (R407): dropped and counted while the queue is not enabled; held on the hub, at most 64
per partition, while the ring is full; written otherwise; dropped and counted where a FIFO word of it failed its parity (R396). A
condition's code is also logged (R500). -/
def State.post (s : State) (p : Nat) (r : EvRecord) : State :=
  let s := if r.code = 0 then s else
    s.logEntry r.source (codeSeverity r.code) r.code p 1 (padTo 14 r.data ++ leBytes 2 r.ctx)
  let e := (s.part p).evq r.evq
  if (s.part p).badEvent then (s.updPart p (fun x => { x with badEvent := false })).evqLose p r.evq
  else if !e.enabled then s.evqLose p r.evq
  else
    let hold (s : State) : State :=
      if (s.part p).held.length < 64 then
        let s := s.updPart p (fun x => { x with held := x.held ++ [r] })
        if (s.part p).held.length = 63 then s.irqRaise 15 else s
      else s.evqLose p r.evq
    if (s.part p).held.any (fun h => decide (h.evq = r.evq)) || e.full then hold s
    else
      match s.evqWrite p r.evq (recordBytes s r) with
      | some s => s
      | none => hold s

/-- Write the held records of a queue, in order, as far as its ring has space (R407). -/
def drainHeld (p q : Nat) : Nat → State → State
  | 0, s => s
  | fuel + 1, s =>
    match (s.part p).held.find? (fun h => decide (h.evq = q)) with
    | none => s
    | some r =>
      let e := (s.part p).evq q
      if !e.enabled || e.full then s
      else
        match s.evqWrite p q (recordBytes s r) with
        | none => s
        | some s =>
          let i := (s.part p).held.findIdx (fun h => decide (h.evq = q))
          drainHeld p q fuel (s.updPart p (fun x => { x with held := x.held.eraseIdx i }))

/-- A NOTICE to event queue 0 of a partition (R406). -/
def State.notice (s : State) (p evq code ctx : Nat) (data : List Byte) : State :=
  s.post p { evq := evq, typ := 7, source := 4, code := code, ctx := ctx, data := data }

-- the port event queue (R319)

/-- Post a NOTICE to a port's event queue: dropped without count while it is disabled, counted in LOST while its ring is full. A record whose
write ends HOST_PORT_LOST, for the port has failed (R478), is not performed, so PRODUCER does not count it. DESIGN CHOICE (log entry 79): LOST
counts it, as one that found no room. -/
def State.peqPost (s : State) (port code : Nat) (data : List Byte) : State :=
  let h := s.port port
  if !h.peqEnable then s
  else if h.failed || decide ((h.peqProducer + 2 ^ 32 - h.peqConsumer) % 2 ^ 32 ≥ 2 ^ h.peqLog2) then
    s.updPort port (fun h => { h with peqLost := satInc32 h.peqLost, peqLostBefore := true })
  else
    let r : EvRecord := { evq := 0, typ := 7, source := 4, code := code, ctx := 0xFFFF, data := data }
    let bs := recordBytes s r h.peqProducer h.peqLostBefore
    let s := s.writeLoc (.host port (h.peqRing + 32 * (h.peqProducer % 2 ^ h.peqLog2))) bs [] false
    let rise := decide (h.peqProducer = h.peqConsumer)
    let s := s.updPort port (fun h => { h with peqProducer := (h.peqProducer + 1) % 2 ^ 32, peqLostBefore := false })
    if rise then s.raise { port := port, fn := 0, vector := 1 } else s

/-- PM_PORTS of the protection set-up (R285): the pool-manager ports. -/
def PrsSt.pmPorts (r : PrsSt) : Nat := fieldAt r.regs 0x04 1 % 16

/-- Post to the pool manager: the port event queue of every port in PM_PORTS (R319). -/
def State.pmPost (s : State) (code : Nat) (data : List Byte) : State :=
  let s := if code = 0 then s else s.logCondition 4 (codeSeverity code) code data
  ((natRange 0 4).filter (fun i => s.prs.pmPorts.testBit i)).foldl (fun s i => s.peqPost i code data) s

/-- The notice of a retired unit (R319, R28). -/
def State.noticeRetired (s : State) (kind index cause : Nat) : State :=
  s.pmPost 0 (zeros 4 ++ leBytes 1 4 ++ leBytes 1 kind ++ leBytes 2 index ++ leBytes 1 cause)

-- handles and generations (R377, R378, R390)

/-- The current generation of an index of a kind. -/
def PartSt.gen (p : PartSt) (kind idx : Nat) : Nat := tabGet 1 p.gens (kind * 65536 + idx)
/-- Advance the generation of an index (R378). -/
def State.genAdvance (s : State) (p kind idx : Nat) : State :=
  s.updPart p (fun x => { x with gens := tabSet x.gens (kind * 65536 + idx) (x.gen kind idx + 1) })
/-- The handle of an index in its current generation (R377). -/
def PartSt.handle (p : PartSt) (kind idx : Nat) : Nat := kind * 2 ^ 28 + (p.gen kind idx % 4096) * 2 ^ 16 + idx

/-- PLA of a fence record (R380). -/
def DirSt.fence (d : DirSt) (i : Nat) : Nat := d.base + 0x150000 + 32 * i
/-- PLA of a memory-object record (R380). -/
def DirSt.memobj (d : DirSt) (i : Nat) : Nat := d.base + 0x150000 + 32 * d.fences + 32 * i

/-- A fence record as memory holds it (R398, R381). -/
def State.fenceRec (s : State) (p i : Nat) : List Byte :=
  match (s.part p).dir with | some d => s.plaRead p (d.fence i) 32 | none => zeros 32
/-- A memory-object record as memory holds it (R411, R381). -/
def State.memRec (s : State) (p i : Nat) : List Byte :=
  match (s.part p).dir with | some d => s.plaRead p (d.memobj i) 32 | none => zeros 32
/-- A fence record is read out of the host's caches, before what it says is acted on (R322). -/
def State.fenceSync (s : State) (p i : Nat) : State := match (s.part p).dir with | some d => s.plaSync p (d.fence i) 32 | none => s
/-- The same of a memory-object record. -/
def State.memSync (s : State) (p i : Nat) : State := match (s.part p).dir with | some d => s.plaSync p (d.memobj i) 32 | none => s
/-- Overwrite part of a fence record. -/
def State.fencePut (s : State) (p i off : Nat) (bs : List Byte) : State :=
  match (s.part p).dir with | some d => s.plaWrite p (d.fence i + off) bs | none => s
/-- Overwrite part of a memory-object record. -/
def State.memPut (s : State) (p i off : Nat) (bs : List Byte) : State :=
  match (s.part p).dir with | some d => s.plaWrite p (d.memobj i + off) bs | none => s

/-- Check a handle of a kind against its table (R390): the index, or HANDLE_INVALID / HANDLE_STALE. -/
def State.handleIdx (s : State) (p kind h : Nat) : Except Nat Nat :=
  match (s.part p).dir with
  | none => .error 0x0403
  | some d =>
    let idx := h % 65536
    let top := if kind = 3 then d.fences else d.memobjs
    if h / 2 ^ 28 ≠ kind ∨ idx ≥ top then .error 0x0403
    else
      let live := if kind = 3 then bitAt (fieldAt (s.fenceRec p idx) 0x15 1) 0 else bitAt (fieldAt (s.memRec p idx) 0x18 1) 0
      if bitsAt h 27 16 ≠ (s.part p).gen kind idx ∨ !live then .error 0x0404 else .ok idx

-- fences (R399-R402)

/-- Set a fence's VALUE and post its event (R402). -/
def State.fenceSet (s : State) (p i v code ctx : Nat) : State :=
  let rec_ := s.fenceRec p i
  let s := s.fencePut p i 0 (leBytes 8 v)
  let evq := fieldAt rec_ 0x14 1
  if evq = 0xFF then s
  else s.post p { evq := evq % 64, typ := 1, source := 4, code := code, ctx := ctx,
                  data := rec_.drop 0x10 |>.take 4 |> (· ++ (rec_.drop 8).take 8) }

/-- A fence update crosses the FIFOs: one with a poisoned word is dropped and counted in LOST of the fence's event queue, of queue 0
where it names none (R396; DESIGN CHOICE, log entry 73). -/
def State.fenceCross (s : State) (p i : Nat) (update : State → State) : State :=
  let s := s.fenceSync p i
  if (s.part p).badFence then
    let q := fieldAt (s.fenceRec p i) 0x14 1
    (s.updPart p (fun x => { x with badFence := false })).evqLose p (if q = 0xFF then 0 else q % 64)
  else update s

/-- Count an ignored signal (R399, R400). -/
def State.fenceIgnore (s : State) (p i : Nat) : State :=
  s.fencePut p i 0x18 (leBytes 4 (satInc32 (fieldAt (s.fenceRec p i) 0x18 4)))

/-- Signal a fence with `v` (R399): above VALUE sets it, below is ignored and counted, equal changes nothing; a fence that
holds an error ignores it (R400). -/
def State.fenceSignal (s : State) (p h v ctx : Nat) : State :=
  match s.handleIdx p 3 h with
  | .error _ => s
  | .ok i =>
    s.fenceCross p i (fun s =>
      let old := fieldAt (s.fenceRec p i) 0 8
      if old.testBit 63 then s.fenceIgnore p i
      else if old < v then s.fenceSet p i v 0 ctx
      else if v < old then s.fenceIgnore p i
      else s)

/-- Give a fence the error value of a code (R400): the first error stays, later ones are counted. -/
def State.fenceErrorIdx (s : State) (p i code ctx : Nat) : State :=
  s.fenceCross p i (fun s =>
    if (fieldAt (s.fenceRec p i) 0 8).testBit 63 then s.fenceIgnore p i else s.fenceSet p i (2 ^ 63 + code) code ctx)

/-- Give the fence of a handle an error, where the handle is live. -/
def State.fenceError (s : State) (p h code ctx : Nat) : State :=
  match s.handleIdx p 3 h with
  | .error _ => s
  | .ok i => s.fenceErrorIdx p i code ctx

-- memory objects (R412, R413)

/-- An object whose REFS is 0 with FREE_PENDING starts zeroing: the range reads zero from the NOTICE on, which
MEMOBJ_ZEROING_COMPLETE posts; `ctx` is kept for it in the record's last word until then. -/
def State.memMaybeFree (s : State) (p i ctx : Nat) : State :=
  let s := s.memSync p i
  let r := s.memRec p i
  let fl := fieldAt r 0x18 1
  if fieldAt r 0x10 4 = 0 ∧ fl.testBit 1 ∧ !fl.testBit 2 then
    (s.memPut p i 0x18 (leBytes 1 (setBit fl 2 true))).updPart p (fun x =>
      { x with zeroing := tabSet x.zeroing i ctx })
  else s

/-- Drop `n` from REFS of an object, and free it when it falls to 0 with FREE_PENDING set (R412, R413). The context whose drop
brought REFS to 0 is kept for the notice. -/
def State.memDrop (s : State) (p i n ctx : Nat) : State :=
  let s := s.memSync p i
  let r := s.memRec p i
  let left := fieldAt r 0x10 4 - n
  let s := s.memPut p i 0x10 (leBytes 4 left)
  let s := if left = 0 then s.updPart p (fun x => { x with lastDrop := tabSet x.lastDrop i ctx }) else s
  s.memMaybeFree p i ctx

/-- Add to REFS of an object. -/
def State.memAdd (s : State) (p i n : Nat) : State :=
  let s := s.memSync p i
  s.memPut p i 0x10 (leBytes 4 ((fieldAt (s.memRec p i) 0x10 4 + n) % 2 ^ 32))

-- statistics (R384, R432)

/-- The clusters of a context's run as they stand, or as its saved state holds them. -/
def State.runState (s : State) (p c : Nat) : List ClusterSt :=
  if (s.ctx p c).saved then (s.ctx p c).savedCls else (s.runClusters p c).map s.cl

/-- Invalid TRI bytes and NaN logits counted for a context's run and not yet in its statistics. -/
def State.liveCounts (s : State) (p c : Nat) : Nat × Nat :=
  (s.runState p c).foldl (fun a k => (a.1 + k.triInvalid, a.2 + k.nanLogits)) (0, 0)

/-- Nanoseconds of a count of ticks. -/
def ticksNs (t : Nat) : Nat := t * 10 / 17

/-- Write the statistics block of a context into the directory (R384). -/
def State.statsWrite (s : State) (p c : Nat) : State :=
  match (s.part p).dir with
  | none => s
  | some d =>
    let st := (s.ctx p c).stats
    let n := s.liveCounts p c
    let cap (v : Nat) : Nat := min v 0xFFFFFFFF
    s.plaWrite p (d.base + 0x4000 + 64 * c)
      (leBytes 8 st.done ++ leBytes 4 (cap (st.tri + n.1)) ++ leBytes 4 (cap (st.nan + n.2)) ++ leBytes 4 st.draftIgnored
        ++ zeros 4 ++ leBytes 8 (ticksNs st.slow.measured) ++ leBytes 8 st.slow.tension ++ leBytes 8 st.slow.fabric
        ++ leBytes 8 st.slow.kv ++ leBytes 4 st.slow.ratio ++ leBytes 4 st.slow.events)

/-- The FP32 ratio of R433 over increments of measured time and stall time. -/
def slowRatio (measured stall : Nat) : Nat :=
  fp32Div (fp32Of .nearestEven (.fin false measured 0)) (fp32Of .nearestEven (.fin false (measured - stall) 0))

/-- Evaluate a context's slow-down once 1 ms of measured time has gathered (R433), and post its event. -/
def State.slowdown (s : State) (p c : Nat) : State :=
  let w := (s.ctx p c).stats.slow
  let dm := ticksNs w.measured - ticksNs w.mMeasured
  if dm < 1000000 then s
  else
    let ds := (w.tension - w.mTension) + (w.fabric - w.mFabric) + (w.kv - w.mKv)
    let ratio := slowRatio dm ds
    let thr := (s.part p).desc.slowdown
    let post := decide (thr ≠ 0) && fp32Lt thr ratio &&
      (match w.lastEvent with | some t => decide (s.ticks ≥ t + 170000000) | none => true)
    let s := s.updCtx p c (fun x => { x with stats := { x.stats with slow :=
      { w with mMeasured := w.measured, mTension := w.tension, mFabric := w.fabric, mKv := w.kv, ratio := ratio,
               events := if post then satInc32 w.events else w.events,
               lastEvent := if post then some s.ticks else w.lastEvent } } })
    if post then s.notice p 0 0 c (zeros 4 ++ leBytes 1 1 ++ zeros 1 ++ leBytes 4 ratio) else s

-- blocked and runnable contexts (R418, R421)

/-- A batch in switch-out mode holds a record of the context (R339), posted or open. -/
def FaultBatch.blocks (b : FaultBatch) (c : Nat) : Bool := !b.batched && b.recs.any (fun r => decide (r.ctx = c))

/-- A fault batch of the context is posted and unanswered in switch-out mode (R339, R421). -/
def PartSt.batchBlocks (x : PartSt) (c : Nat) : Bool := x.batches.any (fun b => b.number.isSome && b.blocks c)

/-- A fault batch of the context is posted and unanswered in switch-out mode (R339, R421). -/
def State.batchBlocks (s : State) (p c : Nat) : Bool := (s.part p).batchBlocks c

/-- The packets of a context in progress. -/
def CtxSt.packets (x : CtxSt) : List PacketRun := x.qs.filterMap (fun q => q.2.cur)

/-- A packet waits for a cause of R421: a program for its context's fault batch, another packet for the batch with an access of its own. -/
def PartSt.packetWaits (x : PartSt) (c : Nat) (r : PacketRun) : Bool :=
  r.waiting || (if r.typ == 1 || r.typ == 2 then x.batchBlocks c
    else x.batches.any (fun b => b.number.isSome && !b.batched && decide (b.serial = r.batch)))

/-- The context is blocked (R421): a packet of it is in progress, and each of them waits. -/
def State.ctxBlocked (s : State) (p c : Nat) : Bool :=
  let ps := (s.ctx p c).packets
  !ps.isEmpty && ps.all ((s.part p).packetWaits c)

/-- A switched-out context is runnable, at the end of the order, from when its cause has cleared until it is blocked again (R418, R419). -/
def State.wake (s : State) (p c : Nat) : State :=
  let x := s.ctx p c
  if x.saved && !x.resident then
    s.updPart p (fun y => { y with runnable := if s.ctxBlocked p c then dropAll y.runnable c else addOnce y.runnable c })
  else s

-- the end of a packet (R391, R392)

/-- The packet at a work queue's HEAD has reached it now: when the packet before it ends, or at the TAIL that finds the queue empty (R391,
log entry 74). -/
def State.stampHead (s : State) (p c q : Nat) : State :=
  let n := (s.part p).startOrder
  (s.updPart p (fun x => { x with startOrder := n + 1 })).updQueue p c q (fun x => { x with headAt := n })

/-- Forget a work queue's current packet: its OBJ_REF is dropped (R412), the statistics are updated (R384), and the slow-down of a packet
that R431 names is evaluated (R433). -/
def State.packetEnd (s : State) (p c q : Nat) : State :=
  match (s.queue p c q).cur with
  | none => s
  | some r =>
    let s := (s.updQueue p c q (fun x => { x with cur := none })).stampHead p c q
    let s := match s.handleIdx p 4 r.objRef with
      | .ok i => s.memDrop p i 1 0xFFFF
      | .error _ => s
    let s := s.updCtx p c (fun x => { x with stats := { x.stats with done := x.stats.done + 1 } })
    ((if hasNat [1, 2, 0x0B, 0x0C] r.typ then s.slowdown p c else s).statsWrite p c).wake p c

/-- Complete a packet: DONE_FENCE is signalled with DONE_VALUE (R391). -/
def State.packetDone (s : State) (p c q : Nat) : State :=
  match (s.queue p c q).cur with
  | none => s
  | some r => (s.packetEnd p c q).fenceSignal p r.doneFence r.doneValue c

/-- Stop a work queue at a packet that is refused or failed (R392). -/
def State.queueStop (s : State) (p c q code slot : Nat) : State :=
  (s.updQueue p c q (fun x => { x with stopped := true, reason := code, stopAt := slot })).updCtx p c
    (fun x => { x with reason := code })

/-- The PACKET record of R392. -/
def State.packetRecord (s : State) (p ctx queue typ slot fence code : Nat) : State :=
  s.post p { evq := 0, typ := 6, source := 4, code := code, ctx := ctx,
             data := leBytes 1 queue ++ leBytes 1 typ ++ leBytes 4 slot ++ leBytes 4 fence }

/-- A work packet that started fails with a fault: fence, queue, event record (R392). -/
def State.packetFail (s : State) (p c q code : Nat) : State :=
  match (s.queue p c q).cur with
  | none => s
  | some r =>
    let s := s.fenceError p r.doneFence code c
    let s := s.queueStop p c q code r.slot
    (s.packetRecord p c q r.typ r.slot r.doneFence code).packetEnd p c q

/-- A packet that was in progress is abandoned: its fence takes an error and its queue does not stop (R414, R299). -/
def State.packetAbandon (s : State) (p c q code : Nat) : State :=
  match (s.queue p c q).cur with
  | none => s
  | some r => (s.fenceError p r.doneFence code c).packetEnd p c q

-- the end of a context's run (R76, R468, R479)

/-- Key of a core's kept values: virtual cluster and core, and for draw counters the stream (R566). -/
def keepKey (vc core : Nat) : Nat := vc * 32 + core

/-- Keep the draw counters and ISSUED counts of a cluster's cores for the context (R566). -/
def keepCounts (x : CtxSt) (vc : Nat) (cl : ClusterSt) : CtxSt :=
  cl.cores.foldl (fun x e =>
    let k := e.2
    { x with issuedKeep := tabSet x.issuedKeep (keepKey vc e.1) k.issued,
             draws := (natRange 0 4).foldl (fun d i => tabSet d (4 * keepKey vc e.1 + i) (tabGet 0#64 k.draws i)) x.draws })
    x

/-- A core that no longer runs a context: nothing of it is in progress. -/
def CoreSt.quiet (k : CoreSt) : CoreSt :=
  { k with run := (match k.run with | .faulted c => .faulted c | _ => .stopped),
           frozen := false, fzDone := false, resuming := false, arrived := [], held := none, wait := [], dmaq := [], mexec := none, mpend := none,
           parked := [], pendFault := none, epoch := 0, released := 0, globalEpoch := 0 }

/-- A cluster that hosts no context any longer: its cache is empty (R145). -/
def ClusterSt.quiet (c : ClusterSt) : ClusterSt :=
  { c with ctx := none, cache := [], cores := c.cores.map (fun e => (e.1, e.2.quiet)) }

/-- Writes that left clusters whose run ends are performed in the order their fences gave them, or end in error where they wait behind a
DMA entry that is discarded (R152, R414). -/
def State.orphanWrites (s : State) (cls : List Nat) : State :=
  let behind (w : FabWrite) : Bool := (s.core w.k).dmaq.any (fun q => q.2.any (fun d => decide (d.epoch < w.epoch)))
  let off (w : FabWrite) : FabWrite :=
    if hasNat cls w.k.cl && !w.orphan then
      { w with orphan := true, sent := true, rev := if w.sent then w.rev else (s.part w.part).revision } else w
  { s with writes := (s.writes.filter (fun w => !hasNat cls w.k.cl || w.orphan || !behind w)).map off }

/-- Add the counts of R96 and R213 that a context's clusters, or its saved state, hold to its statistics. -/
def State.gatherCounts (s : State) (p c : Nat) : State :=
  let n := s.liveCounts p c
  s.updCtx p c (fun x => { x with stats :=
    { x.stats with tri := min (x.stats.tri + n.1) 0xFFFFFFFF, nan := min (x.stats.nan + n.2) 0xFFFFFFFF } })

/-- A run whose state is saved ends: its counts go to the context's statistics, its draw counters and ISSUED counts are kept (R566). -/
def State.keepSaved (s : State) (p c : Nat) : State :=
  if (s.ctx p c).saved then
    (s.gatherCounts p c).updCtx p c (fun x =>
      { (((natRange 0 ((s.part p).pat.size x.vd)).zip x.savedCls).foldl (fun x e => keepCounts x e.1 e.2) x) with savedCls := [] })
  else s

/-- The clusters of a run that ends: what is in flight lands, its counts are gathered, and those for which `keep` holds leave their draw
counters and ISSUED counts to the context (R76, R384, R566). -/
def State.releaseClusters (s : State) (p c : Nat) (keep : Nat → Bool) : State :=
  let cls := s.runClusters p c
  let s := s.orphanWrites cls
  let s := cls.foldl (fun s i => (s.updCl i (fun k => k.settle i)).caughtUp i) s
  let s := s.gatherCounts p c
  (cls.zip (natRange 0 cls.length)).foldl (fun s e =>
    let s := if keep e.1 && decide (e.2 < (s.part p).pat.size (s.ctx p c).vd) then s.updCtx p c (fun x => keepCounts x e.2 (s.cl e.1)) else s
    s.updCl e.1 (fun k => { k.quiet with triInvalid := 0, nanLogits := 0 })) s

/-- End the run of a context on its clusters. Clusters for which `keep` fails return their draw counters and ISSUED counts to
the packet's start (R566). A context whose saved state has not been read yet leaves nothing on its clusters. -/
def State.endRun (s : State) (p c : Nat) (keep : Nat → Bool) : State :=
  let s := if (s.ctx p c).switching = 2 then s.keepSaved p c else s.releaseClusters p c keep
  s.updCtx p c (fun x => { x with resident := false, residentVd := [], frozen := false, switching := 0, saved := false,
                                  faulted := none, genr := none })

/-- Fail a context's running LAUNCH or GENERATE with a code and end its run (R76, R227, R392). -/
def State.runFail (s : State) (p c code : Nat) (keep : Nat → Bool) : State :=
  let s := s.genFaults p c code
  match (s.ctx p c).running with
  | none => s.endRun p c keep
  | some (q, _) => (s.endRun p c keep).packetFail p c q code

/-- The VD of a partition is affected by a domain (R467): a cluster, a channel of the PLA map, or the route. -/
def State.vdAffected (s : State) (d : Domain) (p node : Nat) : Bool :=
  let pat := (s.part p).pat
  let cls := pat.clusters node
  let chs := pat.map.flatMap (fun i => i.chans)
  let v := (pat.vd node).getD { node := node }
  let dies := vdDies cls ++ (natRange 0 4).filter (fun x => chs.any (fun c => decide (chDie c = x)))
  cls.any (domHasCluster d) || chs.any (domHasChannel d) ||
    (vdDies cls).any (fun a => dies.any (fun b => (s.routeDies v.route03 v.route12 a b).any (domIsDie d)))

/-- The code a fault of a running packet leaves in its fence: DOMAIN_LOST while a domain its VD uses is taped off and not yet
notified (R469). -/
def State.faultFence (s : State) (p c code : Nat) : Nat :=
  if s.recov.domains.any (fun r => decide (r.step ≤ 1) && s.vdAffected r.dom p (s.ctx p c).vd) then 0x8020 else code

/-- A core fault (R76): the core is marked, a CORE record names the core and the PC, and the VD stops with the packet's fence
at the code; of a core that has passed its freeze boundary the context is marked, and does not resume (R81). -/
def State.coreFault (s : State) (k : CoreId) (code pc : Nat) : State :=
  match (s.cl k.cl).ctx with
  | none => s
  | some h =>
    let s := s.updCore k (fun x => { x with run := .faulted code, pendFault := none })
    let s := s.post h.part { evq := 0, typ := 2, source := clDie k.cl, code := code, ctx := h.ctx,
                             data := leBytes 2 h.vc ++ leBytes 1 k.core ++ zeros 1 ++ leBytes 2 pc ++ leBytes 1 h.queue }
    if (s.core k).fzDone then
      s.updCtx h.part h.ctx (fun x => { x with faulted := if x.faulted.isSome then x.faulted else some code })
    else s.runFail h.part h.ctx (s.faultFence h.part h.ctx code) (fun _ => true)

-- freeze and thaw of a context (R78, R81)

/-- Freeze the clusters a context holds (R78). -/
def State.freezeCtx (s : State) (p c : Nat) : State :=
  ((s.runClusters p c).foldl (fun s i => s.updCl i ClusterSt.freezeAll) s).updCtx p c (fun x => { x with frozen := true })

/-- Thaw the clusters of a context in place (R438, R253 step 7); one that a fault met while it froze does not resume (R81). -/
def State.thawCtx (s : State) (p c : Nat) : State :=
  match (s.ctx p c).faulted with
  | some code => s.runFail p c (s.faultFence p c code) (fun _ => true)
  | none =>
    let rev := (s.part p).revision
    ((s.runClusters p c).foldl (fun s i => (s.updCl i (fun k => (k.thawAll i).renew rev)).caughtUp i) s).updCtx p c
      (fun x => { x with frozen := false, sliceFrom := s.ticks })

-- translation fault batches (R337-R342)

/-- The threshold of a context's running packet: 0 selects 24, 255 switch-out at every size (R337). -/
def CtxSt.policy (x : CtxSt) : Nat :=
  match x.running with
  | some (_, r) => let v := fieldAt r.bytes 2 1; if v = 0 then 24 else v
  | none => 24

/-- A context uses batches when its VD is at least the threshold (R337). -/
def State.batchMode (s : State) (p c : Nat) : Bool :=
  let x := s.ctx p c
  decide ((s.part p).pat.size x.vd ≥ x.policy) && decide (x.policy ≠ 255)

/-- The 32 bytes of a fault record (R341). -/
def faultBytes (batch count index : Nat) (batched : Bool) (r : FaultRec) : List Byte :=
  leBytes 4 batch ++ leBytes 1 count ++ leBytes 1 index ++ leBytes 1 r.cause ++ leBytes 1 (bnat batched + r.flags)
    ++ leBytes 8 (vaSext r.vaddr) ++ leBytes 8 r.gpa ++ leBytes 2 r.ctx ++ leBytes 2 r.vc ++ leBytes 1 r.core
    ++ leBytes 1 r.source ++ leBytes 2 r.code

/-- Write the fault records that wait, as far as the fault queue has space (R341). -/
def drainFaults (p : Nat) : Nat → State → State
  | 0, s => s
  | fuel + 1, s =>
    match (s.part p).faultHeld with
    | [] => s
    | r :: t =>
      let e := (s.part p).evq 1
      if !e.enabled || e.full then s
      else
        match s.evqWrite p 1 (fun _ _ => r) with
        | none => s
        | some s => drainFaults p fuel (s.updPart p (fun x => { x with faultHeld := t }))

/-- The open batch that a context's fault joins: in batch mode that of its VD (R340), in switch-out mode its own (R339). -/
def State.opens (s : State) (p c : Nat) (batched : Bool) (b : FaultBatch) : Bool :=
  b.number.isNone && b.batched == batched &&
    (if batched then decide ((s.ctx p b.ctx).vd = (s.ctx p c).vd) else decide (b.ctx = c))

/-- Post the open batch that a context's faults of a mode are in: it takes the next BATCH number and its records go to the fault queue
(R341). -/
def State.batchPost (s : State) (p c : Nat) (batched : Bool) : State :=
  match (s.part p).batches.find? (s.opens p c batched) with
  | none => s
  | some b =>
    let n := (s.part p).nextBatch
    let recs := (b.recs.zip (natRange 0 b.recs.length)).map (fun e => faultBytes n b.recs.length e.2 b.batched e.1)
    let s := s.updPart p (fun x =>
      { x with nextBatch := (n + 1) % 2 ^ 32, faultHeld := x.faultHeld ++ recs,
               batches := x.batches.map (fun d => if d = b then { d with number := some n } else d) })
    let s := b.recs.foldl (fun s r => (s.updCtx p r.ctx (fun x => { x with faultWait := true })).wake p r.ctx) s
    drainFaults p recs.length s

/-- The same fault as a record's: page, cause and context (R340). -/
def FaultRec.sameAs (x r : FaultRec) : Bool :=
  decide (x.vaddr / 4096 = r.vaddr / 4096) && decide (x.cause = r.cause) && decide (x.ctx = r.ctx)

/-- Record a translation fault of a context (R339, R340): it joins or opens the batch; the same page and cause add nothing in
batch mode; the 64th record closes the batch. With 64 batches unanswered it is not recorded and its access waits. In
switch-out mode the context freezes. -/
def State.recordFault (s : State) (p c : Nat) (r : FaultRec) : State :=
  let batched := s.batchMode p c
  match (s.part p).batches.find? (s.opens p c batched) with
  | some b =>
    if batched && b.recs.any (fun x => x.sameAs r) then s
    else
      let s := s.updPart p (fun x => { x with batches := x.batches.map (fun d =>
        if d = b then { d with recs := d.recs ++ [r] } else d) })
      if b.recs.length + 1 ≥ 64 then s.batchPost p c batched else s
  | none =>
    if (s.part p).batches.length ≥ 64 then s
    else
      let s := s.updPart p (fun x => { x with batches := x.batches ++
        [{ serial := (s.part p).nextSerial, number := none, ctx := c, batched := batched, openedAt := s.ticks, recs := [r] }], nextSerial := x.nextSerial + 1 })
      if batched then s
      else
        let s := s.updCtx p c (fun x => { x with faultWait := true })
        -- a context with nothing on clusters has nothing to freeze: the batch is posted at once
        if (s.runClusters p c).isEmpty then s.batchPost p c false else s.freezeCtx p c

/-- The serial of the batch that `recordFault` puts a fault into; 0 where the limit of R341 keeps it out. -/
def State.faultSerial (s : State) (p c : Nat) : Nat :=
  match (s.part p).batches.find? (s.opens p c (s.batchMode p c)) with
  | some b => b.serial
  | none => if (s.part p).batches.length ≥ 64 then 0 else (s.part p).nextSerial

/-- A fault record of an access (R341). -/
def mkFault (e : XErr) (va ctx vc core source : Nat) : FaultRec :=
  { cause := e.cause, flags := e.flags, vaddr := va, gpa := e.gpa, ctx := ctx, vc := vc, core := core, source := source,
    code := e.code }

/-- The record of a translation fault of a sequencer's (2) or a hub agent's (3) access. -/
def agentRecord (c va source : Nat) (e : XErr) : FaultRec := mkFault e (va % 2 ^ 57) c 0xFFFF 0xFF source

/-- The batch that holds an agent's access already. -/
def State.agentHeld (s : State) (p : Nat) (r : FaultRec) : Option FaultBatch :=
  (s.part p).batches.find? (fun b => b.recs.any (fun x => decide (x.source = r.source) && x.sameAs r))

/-- A translation fault of a sequencer (2) or a hub agent (3): an access that a batch holds already adds nothing, and one that waits for a
walker is no fault. -/
def State.agentFault (s : State) (p c va source : Nat) (e : XErr) : State :=
  let r := agentRecord c va source e
  if e = walkerWait ∨ (s.agentHeld p r).isSome then s else s.recordFault p c r

/-- The same of the packet in progress on a queue, which remembers the batch that its access is in (R421). -/
def State.packetFault (s : State) (p c q va source : Nat) (e : XErr) : State :=
  if e = walkerWait then s
  else
    let n := match s.agentHeld p (agentRecord c va source e) with | some b => b.serial | none => s.faultSerial p c
    ((s.updQueue p c q (fun x => { x with cur := x.cur.map (fun r => { r with batch := n }) })).agentFault p c va source e).wake p c

/-- Write the records that wait for a queue as far as its ring takes them; a translation fault of the ring's writer, a hub agent, is
recorded (R341). -/
def State.evqPush (s : State) (p q : Nat) : State :=
  let s := drainHeld p q 64 s
  let e := (s.part p).evq q
  let a := e.ring + 32 * (e.producer % e.entries)
  if e.enabled && !e.full && (s.part p).held.any (fun r => decide (r.evq = q)) then
    match s.agentLoc p e.ctx a true true with
    | (t, .error (.xlate x)) => t.agentFault p e.ctx a 3 x
    | _ => s
  else s

/-- Every queue of a partition for which records wait. -/
def State.evqPushAll (s : State) (p : Nat) : State :=
  (((s.part p).held.map (fun r => r.evq)).foldl addOnce []).foldl (fun s q => s.evqPush p q) s

end Sys2Proof.Machine
end

