-- ==== Sys2Proof/Machine/Transfers.lean ====
section
/-! DEFINITION. A core's DMA queues and what their entries have moved (R70-R74): flags, indexed descriptors, the transactions of an entry,
which of them are complete, and which are on their way. -/

namespace Sys2Proof.Machine

/-- FLAGS of an entry: V volatile, W weight stream, C count bytes, P count packets (R47, R70). -/
def DmaEntry.isV (e : DmaEntry) : Bool := e.flags.testBit 4
/-- W. -/
def DmaEntry.isW (e : DmaEntry) : Bool := e.flags.testBit 3
/-- C. -/
def DmaEntry.isC (e : DmaEntry) : Bool := e.flags.testBit 2
/-- P. -/
def DmaEntry.isP (e : DmaEntry) : Bool := e.flags.testBit 1

/-- A core's DMA queue. -/
def CoreSt.dma (c : CoreSt) (q : Nat) : List DmaEntry := tabGet [] c.dmaq q
/-- Replace a DMA queue. -/
def CoreSt.setDma (c : CoreSt) (q : Nat) (l : List DmaEntry) : CoreSt := { c with dmaq := tabSet c.dmaq q l }
/-- Change entry `i` of a DMA queue. -/
def CoreSt.updEntry (c : CoreSt) (q i : Nat) (f : DmaEntry → DmaEntry) : CoreSt := c.setDma q ((c.dma q).modify i f)
/-- Remove entry `i` of a DMA queue. -/
def CoreSt.dropEntry (c : CoreSt) (q i : Nat) : CoreSt := c.setDma q ((c.dma q).eraseIdx i)

-- indexed descriptors (R72)

/-- Fields of an indexed descriptor. -/
structure IxDesc where
  src : Nat
  dst : Nat
  index : Nat
  count : Nat
  row : Nat
  scatter : Bool
  xvc : Bool
  stride : Nat
  deriving DecidableEq, Repr

/-- Read the 32 bytes of a descriptor. -/
def ixDescOf (bs : List Byte) : IxDesc :=
  { src := fieldAt bs 0 8, dst := fieldAt bs 8 8, index := fieldAt bs 0x10 4, count := fieldAt bs 0x14 4,
    row := fieldAt bs 0x18 2, scatter := (fieldAt bs 0x1A 1).testBit 0, xvc := (fieldAt bs 0x1A 1).testBit 1,
    stride := fieldAt bs 0x1C 4 }

/-- The descriptor meets R72. -/
def ixDescOk (bs : List Byte) : Bool :=
  let d := ixDescOf bs
  decide (1 ≤ d.count) && decide (d.count ≤ 65536) && decide (16 ≤ d.row) && decide (d.row ≤ 4096) && d.row % 16 == 0
    && decide (fieldAt bs 0x1A 1 < 4) && (!d.xvc || (d.scatter && decide (d.dst / 2 ^ 60 = 2))) && fieldAt bs 0x1B 1 == 0
    && d.index % 4 == 0

/-- The descriptor of an entry, read from the issuing core's scratchpad. DESIGN CHOICE (log entry 68): it is read again for each of the
entry's transactions, as the index list is. -/
def entryDesc (c : CoreSt) (e : DmaEntry) : IxDesc := ixDescOf (memRead c.scratch e.src 32)

/-- Index `i` of an entry's list. -/
def entryIndex (c : CoreSt) (d : IxDesc) (i : Nat) : Nat := leNat (memRead c.scratch (d.index + 4 * i) 4)

/-- Source and destination of the row at list position `i` with index value `x` (R73). -/
def rowAddrs (d : IxDesc) (i x : Nat) : Nat × Nat :=
  let m (v : Nat) : Nat := v % 2 ^ 64
  if d.xvc then
    (m (d.src + i * d.row), m ((d.dst - bitsAt d.dst 59 48 * 2 ^ 48 + bitsAt x 31 20 * 2 ^ 48) + (x % 2 ^ 20) * d.stride))
  else if d.scatter then (m (d.src + i * d.row), m (d.dst + x * d.stride))
  else (m (d.src + x * d.stride), m (d.dst + i * d.row))

/-- Chunks of a row. -/
def rowChunks (d : IxDesc) : Nat := ceilDiv d.row 256

/-- The transactions of a started entry: chunk numbers, or 16 times the list position plus the chunk of the row. -/
def DmaEntry.txs (c : CoreSt) (e : DmaEntry) : List Nat :=
  if e.ix then (natRange 0 (entryDesc c e).count).flatMap (fun i => natRange (16 * i) (rowChunks (entryDesc c e))) else natRange 0 e.total

/-- Source, destination and length of a transaction; none for a chunk that does not exist and a row that is skipped (R71, R73). -/
def DmaEntry.sides (c : CoreSt) (e : DmaEntry) (t : Nat) : Option (Nat × Nat × Nat) :=
  if e.ix then
    let d := entryDesc c e
    let x := entryIndex c d (t / 16)
    let o := 256 * (t % 16)
    if t / 16 ≥ d.count ∨ t % 16 ≥ rowChunks d ∨ x = 0xFFFFFFFF then none
    else let a := rowAddrs d (t / 16) x; some (a.1 + o, a.2 + o, min 256 (d.row - o))
  else if 256 * t < e.len then some (e.src + 256 * t, e.dst + 256 * t, min 256 (e.len - 256 * t)) else none

/-- A transaction is complete, or its row skipped. -/
def DmaEntry.isDone (e : DmaEntry) (t : Nat) : Bool := hasNat e.done t || (e.ix && hasNat e.skipped (t / 16))

/-- The accesses of a transaction whose translation faulted (R338). -/
def DmaEntry.faultsOf (e : DmaEntry) (t : Nat) : List DmaFault := e.faulted.filter (fun f => decide (f.tx = t))

/-- The number before which every transaction of a started entry has been issued: they are issued in their order, so all before one that
has gone. -/
def DmaEntry.issuedTo (e : DmaEntry) : Nat :=
  (e.done ++ e.skipped.map (fun i => 16 * i + 15) ++ e.faulted.map DmaFault.tx).foldl max 0

/-- A transaction of an entry holds a tracker entry (R178): it has been issued and is not complete. One whose translation faulted is not. -/
def DmaEntry.inFlight (e : DmaEntry) (t : Nat) : Bool :=
  e.started && (!(e.faultsOf t).isEmpty || (decide (t < e.issuedTo) && !e.isDone t))

/-- Tracker entries that the transactions of a core's queues hold. -/
def CoreSt.dmaInFlight (c : CoreSt) : Nat :=
  c.dmaq.foldl (fun a q => q.2.foldl (fun a e => a + ((e.txs c).filter e.inFlight).length) a) 0

/-- Tracker entries that transaction `t` of an entry still needs: its own, and those of the transactions issued before it. -/
def DmaEntry.needs (c : CoreSt) (e : DmaEntry) (t : Nat) : Nat :=
  ((e.txs c).filter (fun u => decide (u ≤ t) && !e.isDone u && !e.inFlight u)).length

/-- Addresses of the transactions of a DMA entry that are on their way: neither complete nor waiting for a fault's answer. -/
def DmaEntry.openAddrs (c : CoreSt) (e : DmaEntry) : List Nat :=
  if !e.started then []
  else (e.txs c).flatMap (fun t =>
    if e.isDone t || !(e.faultsOf t).isEmpty then [] else match e.sides c t with | some (a, b, _) => [a, b] | none => [])

/-- The entries of a core's queues that meet a condition, as queue and place, later ones of a queue first. -/
def CoreSt.entriesWhere (c : CoreSt) (f : DmaEntry → Bool) : List (Nat × Nat) :=
  c.dmaq.flatMap (fun q => (((natRange 0 q.2.length).zip q.2).filter (fun e => f e.2)).map (fun e => (q.1, e.1)) |>.reverse)

end Sys2Proof.Machine
end

