-- ==== Sys2Proof/Machine/Fabric.lean ====
section
/-! DEFINITION. What leaves a cluster: the answer of a target by pattern revision (R254-R258, R466), stores, MSGs and reads
outside the cluster (R148-R152), the cluster read cache (R142-R146), and counted arrivals (R159, R160). -/

namespace Sys2Proof.Machine

/-- A target's answer (R255): served, MOVED, or refused with a code. -/
inductive Answer where
  | serve (a b : Nat)
  | moved
  | refuse (code : Nat)
  deriving DecidableEq, Repr

/-- The revision before the current one (R254). -/
def PartSt.prevRevision (p : PartSt) : Nat := (p.revision + 65535) % 65536

/-- The answer of the cluster a WA names: its index, and 0 (R255, R466). DESIGN CHOICE (log entry 82): the target of a request whose revision's
pattern is no longer kept is the one that the live pattern names, for TAPED_OFF comes before a revision that has expired. -/
def State.waAnswer (s : State) (p vd rev vc : Nat) : Answer :=
  let x := s.part p
  let ok (cl : Nat) : Answer :=
    if s.clTaped cl then .refuse 0x8012 else if (s.clEntry cl).state = .stripping then .refuse 0x8201 else .serve cl 0
  if rev = x.revision then
    match (x.pat.clusters vd)[vc]? with
    | some cl => ok cl
    | none => .refuse 0x8412
  else
    let expired : Answer := match (x.pat.clusters vd)[vc]? with
      | some cl => .refuse (if s.clTaped cl then 0x8012 else 0x8201)
      | none => .refuse 0x8201
    match x.prev with
    | some old =>
      if rev = x.prevRevision then
        match (old.clusters vd)[vc]? with
        | some cl => if s.clTaped cl then .refuse 0x8012 else if old.holder cl = x.pat.holder cl then ok cl else .moved
        | none => .refuse 0x8412
      else expired
    | none => expired

/-- The answer of the channel a PLA names: the channel and the channel offset (R255, R466, R199). -/
def State.plaAnswer (s : State) (p rev pla : Nat) : Answer :=
  let x := s.part p
  let ok (ch off : Nat) : Answer := match s.plaRefuses x.pat pla ch with | some c => .refuse c | none => .serve ch off
  if rev = x.revision then
    match x.pat.resolve pla with
    | some (ch, off) => ok ch off
    | none => .refuse 0x8412
  else
    let expired : Answer := match x.pat.resolve pla with
      | some (ch, _) => .refuse (if s.chTaped ch then 0x8012 else 0x8201)
      | none => .refuse 0x8201
    match x.prev with
    | some old =>
      if rev = x.prevRevision then
        match old.resolve pla with
        | some (ch, off) =>
          if s.chTaped ch then .refuse 0x8012 else if x.pat.plaOf ch off = some pla then ok ch off else .moved
        | none => .refuse 0x8412
      else expired
    | none => expired

/-- Count a refusal of R255 in REFUSED_LAST, and a MOVED in MOVED_LAST (R256, R257). -/
def State.countAnswer (s : State) (p : Nat) : Answer → State
  | .moved => s.updPart p (fun x => { x with movedLast := satInc32 x.movedLast })
  | .refuse 0x8201 => s.updPart p (fun x => { x with refusedLast := satInc32 x.refusedLast })
  | _ => s

-- the cluster read cache

/-- The cache line tag of an address: its kind and its aligned value. -/
def lineTag (addr : Nat) : Nat := addr / 256 * 256

/-- Whether a read of the address may be cached under the setting: VA_EN, or PLA_EN and another die's channel (R144). -/
def State.cacheable (s : State) (k : CoreId) (h : HostCtx) (addr : Nat) : Bool :=
  rcacheBytes h.rcache != 0 &&
  match addrOf addr with
  | some (.va _) => h.rcache.testBit 5
  | some (.pla a) => h.rcache.testBit 4 &&
      (match (s.part h.part).pat.resolve a with | some (ch, _) => decide (chDie ch ≠ clDie k.cl) | none => false)
  | _ => false

/-- The line of a tag. -/
def findLine (c : List CacheLine) (tag : Nat) : Option CacheLine := c.find? (fun l => decide (l.tag = tag))

/-- Put a line into a cache of a size, the oldest line leaving a full one (R144). -/
def putLine (size : Nat) (c : List CacheLine) (l : CacheLine) : List CacheLine :=
  let c' := c.filter (fun x => decide (x.tag ≠ l.tag)) ++ [l]
  c'.drop (c'.length - size / 256)

/-- A write of the cluster updates a present line as it issues (R146), its poison mark with it (R174). -/
def updateLine (c : List CacheLine) (addr : Nat) (data mask : List Byte) (poisoned : Bool) : List CacheLine :=
  c.map (fun l => if l.tag = lineTag addr then
      let o := addr % 256
      { l with data := patchAt l.data o (mergeBytes ((l.data.drop o).take data.length) data mask),
               poison := poisoned || (l.poison && !(decide (data.length = 256) && mask.isEmpty)) }
    else l)

/-- A fence's range overlaps bytes from `lo` to before `hi` (R154): all of them for a length of all ones; none for a length of 0, or a
range in LOCAL or WA space. DESIGN CHOICE (log entry 77): a length of all ones covers the whole cache whatever the start. -/
def fenceOver (start len lo hi : Nat) : Bool :=
  len == 2 ^ 64 - 1 ||
    (decide (len ≠ 0) && (start / 2 ^ 60 == 1 || start / 2 ^ 60 == 8) && decide (lo < start + len) && decide (start < hi))

/-- Remove the lines that a fence covers (R154). -/
def dropLines (c : List CacheLine) (start len : Nat) : List CacheLine :=
  c.filter (fun l => !fenceOver start len l.tag (l.tag + 256))

/-- A fence over a range covers a line of an outstanding read (R154). -/
def fenceCovers (start len : Nat) (r : OutRead) : Bool := fenceOver start len (lineTag r.addr) (lineTag (r.addr + r.len - 1) + 256)

-- what crosses regulated instances (R444, R454)

/-- The instances that an access of core `k` for a context at an address crosses, as far as its cluster can tell. -/
def State.accCrossings (s : State) (cl p c vd addr : Nat) (w : Bool) : List Crossing :=
  match addrOf addr with
  | some (.wa vc _ _) =>
    (match s.waAnswer p vd (s.part p).revision vc with
     | .serve t _ => s.crossingsTo p vd cl t w
     | _ => [])
  | _ => s.crossingsAt { src := clSource cl, label := 0, node := vd } p c addr w

/-- Those of a write. -/
def State.writeCrossings (s : State) (w : FabWrite) : List Crossing := s.accCrossings w.k.cl w.part w.ctx w.vd w.addr true

-- the transaction trackers (R178, R179)

/-- The tracker of a die. -/
def State.tracker (s : State) (d : Nat) : TrackSt := tabGet {} s.trackers d

/-- Entries of its die's tracker that a cluster stop holds: one for each 256-byte transaction that has been sent and is not complete. -/
def State.trackUsed (s : State) (cl : Nat) : Nat :=
  (s.writes.filter (fun w => decide (w.k.cl = cl) && w.sent)).length +
  (s.cl cl).cores.foldl (fun a e =>
    (e.2.wait.filter (fun r => r.sent)).foldl (fun a r => a + (rowsOf r.addr r.len).length) (a + e.2.dmaInFlight)) 0

/-- Entries of a die's pool that its cluster stops hold: those beyond the 128 reserved for each. -/
def State.poolUsed (s : State) (die : Nat) : Nat :=
  (natRange (48 * die) 48).foldl (fun a cl => a + (s.trackUsed cl - 128)) 0

/-- A cluster stop finds `n` free entries: of its own, and then of the pool of 8,704 (R179). -/
def State.trackRoom (s : State) (cl n : Nat) : Bool :=
  let own := s.trackUsed cl
  decide (own + n ≤ 128) || decide (s.poolUsed (clDie cl) + (own + n - 128) ≤ 8704 + (own - 128))

/-- A transaction of the unravel unit or of another stop than a cluster's finds a free entry of the pool of its die (R178, R192). -/
def State.poolRoom (s : State) (die : Nat) : Bool := decide (s.poolUsed die < 8704)

/-- A write may be sent: no fence holds it at the port (R152), and an entry is free. -/
def State.canSend (s : State) (w : FabWrite) : Bool :=
  !w.sent && (w.orphan || decide (w.epoch ≤ (s.core w.k).released)) && s.trackRoom w.k.cl 1

/-- A write enters the mesh, under its partition's present revision (R178, R254). -/
def State.sendId (s : State) (w : FabWrite) : State :=
  { s with writes := s.writes.map (fun v => if v.id = w.id then { v with sent := true, rev := (s.part v.part).revision } else v) }

/-- A write that may be sent goes, unless tension holds or paces it at this chance (R454): a held one has not entered the mesh, and R257's
time-out does not run for it. -/
def State.trySend (s : State) (w : FabWrite) : State :=
  if !s.canSend w then s
  else
    match s.tensionGate (clSource w.k.cl) w.part (s.ctx w.part w.ctx).label (s.writeCrossings w) with
    | (t, true) => t.sendId w
    | (t, false) => t

/-- A read may be sent: every write it waits for is performed (R156), and its entries are free. -/
def State.canSendRead (s : State) (k : CoreId) (r : OutRead) : Bool :=
  !r.sent && decide (r.epoch ≤ (s.core k).released) && s.trackRoom k.cl (rowsOf r.addr r.len).length

/-- The reads of a core that can be sent enter the mesh, unless tension holds or paces them (R454). -/
def State.sendReads (s : State) (k : CoreId) : State :=
  (s.core k).wait.foldl (fun s r =>
    if s.canSendRead k r then
      match (s.cl k.cl).ctx with
      | some h =>
        (match s.tensionGate (clSource k.cl) h.part (s.ctx h.part h.ctx).label (s.accCrossings k.cl h.part h.ctx h.vd r.addr false) with
         | (t, true) => t.updCore k (fun c => { c with wait := c.wait.map (fun x =>
             if x = r then { x with sent := true, rev := (s.part h.part).revision } else x) })
         | (t, false) => t)
      | none => s
    else s) s

/-- Every transaction that waits at a cluster's stop is sent, as far as entries are free. -/
def State.sendHeld (s : State) (cl : Nat) : State :=
  let s := (s.writes.filter (fun w => decide (w.k.cl = cl))).foldl State.trySend s
  ((s.cl cl).cores.map (fun e => e.1)).foldl (fun s i => match coreIdOf cl i with | some k => s.sendReads k | none => s) s

/-- Every transaction that waits at a cluster's stop has a chance to be sent. -/
def State.sendAll (s : State) : State := (s.clusters.map (fun e => e.1)).foldl State.sendHeld s

/-- Faulted accesses that a cluster holds: reads, DMA transactions and stores (R338, R427). -/
def State.faultsHeld (s : State) (cl : Nat) : Nat :=
  (s.cl cl).cores.foldl (fun a e =>
    e.2.dmaq.foldl (fun a q => q.2.foldl (fun a d => a + d.faulted.length) a) (a + (e.2.wait.filter (fun r => r.faulted)).length)) 0
    + (s.writes.filter (fun w => decide (w.k.cl = cl) && w.faulted)).length

/-- A VA access of a context that could become a cluster's 257th faulted one waits at the cluster stop, unwalked (R427): a read comes to one,
a write to one for each of its pages. -/
def State.vaWaits (s : State) (p c cl addr n : Nat) (write : Bool) : Bool :=
  let x := s.ctx p c
  let unknown (a : Nat) : Nat := bnat (tlbHit (s.part p).tlb x.xs1 x.xg (a % 2 ^ 57) write).isNone
  let may := unknown addr + (if addr / 4096 = (addr + n - 1) / 4096 then 0 else unknown (addr + n - 1))
  let new := if write then may else min may 1
  decide (addr / 2 ^ 60 = 8) && decide (0 < new) && decide (256 < s.faultsHeld cl + new)

-- issuing writes (R149, R152)

/-- A write reaches its core's fabric port, and the mesh at once where nothing holds it. -/
def State.sendWrite (s : State) (w : FabWrite) : State :=
  let w := { w with id := s.nextWrite, sent := false }
  let s := { s with writes := s.writes ++ [w], nextWrite := s.nextWrite + 1 }
  s.trySend w

/-- Cut a write at the row boundaries (R130): pieces of address offset, data and mask. -/
def cutRows : Nat → Nat → List Byte → List Byte → List (Nat × List Byte × List Byte)
  | 0, _, _, _ => []
  | fuel + 1, off, data, mask =>
    if data.isEmpty then []
    else
      let m := min data.length (256 - off % 256)
      (off, data.take m, mask.take m) :: cutRows fuel (off + m) (data.drop m) (mask.drop m)

/-- A store of a core that leaves the cluster: one write for each row it touches, and the cache lines it updates. -/
def State.storeOut (s : State) (k : CoreId) (h : HostCtx) (addr : Nat) (data mask : List Byte) (pc : Nat) : State :=
  let p := s.part h.part
  (cutRows 3 addr data mask).foldl (fun s e =>
    let s := s.updCl k.cl (fun c => { c with cache := updateLine c.cache e.1 e.2.1 e.2.2 false })
    s.sendWrite { id := 0, k := k, part := h.part, ctx := h.ctx, vd := h.vd, vc := h.vc, rev := p.revision, gen := p.generation, msg := false, addr := e.1,
                  data := e.2.1, mask := e.2.2, pc := pc, epoch := (s.core k).epoch }) s

-- performing writes

/-- A write of a cluster to a row whose bytes a cached read has returned, and that is not performed yet (R147). -/
def State.seenWaits (s : State) (cl tag : Nat) : Bool :=
  s.writes.any (fun w => decide (w.k.cl = cl) && decide (lineTag w.addr = tag) && w.seen)

/-- The write may be performed (R149, R152, R338): sent, no earlier store or MSG of its core to the same row outstanding, none before a
fence that precedes it, none of its cluster to the row whose bytes a cached read has returned (R147), and no translation fault waiting. -/
def State.writeReady (s : State) (w : FabWrite) : Bool :=
  w.sent && !w.faulted &&
  s.writes.all (fun v => !(decide (v.id < w.id) &&
    ((decide (v.k = w.k) && (decide (v.addr / 256 = w.addr / 256) || (w.orphan && v.orphan && decide (v.epoch < w.epoch))))
      || (v.seen && decide (v.k.cl = w.k.cl) && decide (v.addr / 256 = w.addr / 256)))))

/-- Forget a write. -/
def State.dropWrite (s : State) (id : Nat) : State := { s with writes := s.writes.filter (fun v => decide (v.id ≠ id)) }

/-- Change a write. -/
def State.updWrite (s : State) (id : Nat) (f : FabWrite → FabWrite) : State :=
  { s with writes := s.writes.map (fun v => if v.id = id then f v else v) }

/-- The write of an id. -/
def State.findWrite (s : State) (id : Nat) : Option FabWrite := s.writes.find? (fun v => decide (v.id = id))

/-- A cluster hosts a context. -/
def State.hosts (s : State) (cl p c : Nat) : Bool :=
  match (s.cl cl).ctx with | some h => decide (h.part = p ∧ h.ctx = c) | none => false

/-- A write that its target refuses faults its core as a core fault does (R257, R469); where the run that issued it has ended there is no
core to fault. -/
def State.writeFails (s : State) (w : FabWrite) (code : Nat) : State :=
  let s := s.dropWrite w.id
  if !w.orphan && s.hosts w.k.cl w.part w.ctx then s.coreFault w.k code w.pc else s

/-- The answer of a write's target, for a WA or a PLA, in the VD it was issued under (R140). A VA is routed when it is performed. -/
def State.writeAnswer (s : State) (w : FabWrite) : Answer :=
  match addrOf w.addr with
  | some (.wa vc _ _) => s.waAnswer w.part w.vd w.rev vc
  | some (.pla a) => s.plaAnswer w.part w.rev a
  | some (.va _) => .serve 0 0
  | _ => .refuse 0x8412

/-- A request reaches its target (R255): served, and from then on at the place that took it; answered MOVED; or refused. The write
comes back where it is served. -/
def State.requestTarget (s : State) (w : FabWrite) : State × Option FabWrite :=
  if w.served then (s, some w)
  else
    let a := s.writeAnswer w
    let s := s.countAnswer w.part a
    match a with
    | .serve x y =>
      let f (v : FabWrite) : FabWrite := { v with served := true, place := (x, y) }
      (s.updWrite w.id f, some (f w))
    | .moved => (s.updWrite w.id (fun v => { v with moved := true }), none)
    | .refuse code => (s.writeFails w code, none)

/-- A cluster's access for a context is served at a location (R452). -/
def State.accServed (s : State) (cl p c vd : Nat) (l : Loc) (w : Bool) (n : Nat) : State :=
  s.servedAt { src := clSource cl, label := (s.ctx p c).label, node := vd } p l w n

/-- A cluster's access for a context is served at another cluster. -/
def State.accServedTo (s : State) (cl p c vd target : Nat) (w : Bool) (n : Nat) : State :=
  s.served (clSource cl) p (s.ctx p c).label (s.crossingsTo p vd cl target w) n

/-- A write is served at a location. -/
def State.writeServed (s : State) (w : FabWrite) (l : Loc) : State := s.accServed w.k.cl w.part w.ctx w.vd l true w.data.length

/-- A write reaches a channel: performed, or, where the host may hold a line of it, the line is back-invalidated first and the
write waits (R322). -/
def State.writeChannel (s : State) (w : FabWrite) (ch off : Nat) : State :=
  let held := (s.chan ch).heldLines off w.data.length
  if held.isEmpty then ((s.writeLoc (.chan ch off) w.data w.mask false).writeServed w (.chan ch off)).dropWrite w.id
  else s.updChan ch (fun c => { c with bisnp := held.foldl addOnce c.bisnp })

/-- A served write to another cluster's memory or scratchpad lands at its row; an MSG then counts one packet there (R159, R567). -/
def State.landWa (s : State) (w : FabWrite) : State :=
  match addrOf w.addr with
  | some (.wa _ core off) =>
    let cl := w.place.1
    let s := s.updCl cl (fun c => c.fabricLands cl core off w.data w.mask false)
    let s := s.accServedTo w.k.cl w.part w.ctx w.vd cl true w.data.length
    let s := if w.msg then { s with counts := s.counts ++ [{ cl := cl, cnt := w.cnt, amount := 1 }] } else s
    s.dropWrite w.id
  | _ => s

/-- Ranges that a core's writes before `id` are still on their way to: an access of the core to a page with one of them waits where the page
is of the type IO (R329). -/
def State.writeRanges (s : State) (k : CoreId) (id : Nat) : List (Nat × Nat) :=
  (s.writes.filter (fun v => decide (v.id < id) && decide (v.k = k))).map (fun v => (v.addr, v.data.length))

/-- An access at an address of a page with attributes `t` waits for earlier accesses to ranges of the page: the page is of the type IO
(R329). -/
def ioWaits (t addr : Nat) (busy : List (Nat × Nat)) : Bool :=
  let page (a : Nat) : Nat := a / 2 ^ (t / 8)
  decide (t % 4 = 2) && busy.any (fun r => decide (page r.1 ≤ page addr) && decide (page addr ≤ page (r.1 + r.2 - 1)))

/-- A store whose translation faults waits for the answer (R338). -/
def State.storeFaults (s : State) (w : FabWrite) (e : XErr) : State :=
  let n := s.faultSerial w.part w.ctx
  (s.updWrite w.id (fun v => { v with faulted := true, batch := n })).recordFault w.part w.ctx
    (mkFault e (w.addr % 2 ^ 57) w.ctx w.vc w.k.core 0)

/-- A served write to a PLA or a VA is performed at its point of coherence (R148). A store to an IO page waits for the earlier writes of
its core to the page (R329); a translation fault leaves it waiting (R338). -/
def State.performWrite (s : State) (w : FabWrite) : State :=
  match addrOf w.addr with
  | some (.pla _) => s.writeChannel w w.place.1 w.place.2
  | some (.va a) =>
    if s.vaWaits w.part w.ctx w.k.cl w.addr w.data.length true then s
    else
      match s.walkGate (clDie w.k.cl) w.part w.ctx w.addr true with
      | (s, false) => s
      | (s, true) =>
        match s.xlate w.part w.ctx a true (s.via w.part w.ctx (clSource w.k.cl)) with
        | (s, .error e) => s.storeFaults w e
        | (s, .ok (hpa, t)) =>
          if ioWaits t w.addr (s.writeRanges w.k w.id) then s
          else
            match s.routeHpa w.part hpa with
            | .ok (.chan ch off) => s.writeChannel w ch off
            | .ok l => ((s.writeLoc l w.data w.mask false).writeServed w l).dropWrite w.id
            | .error e =>
              match vaError true e with
              | .xlate x => s.storeFaults w x
              | .code code => s.writeFails w code
  | _ => s

-- outside reads (R55, R144, R150, R151)

/-- What an outside read finds: bytes and poison, a translation fault and its VA, a code, or that it must wait: for a walker, for a
line that the host may hold modified, or for an earlier write. -/
inductive ReadAns where
  | data (bs : List Byte) (poison : Bool)
  | xlate (e : XErr) (va : Nat)
  | fault (code : Nat)
  | wait
  deriving DecidableEq, Repr

/-- Where the row that an access names lies: in another cluster, or at a location with a memory type (R329); or why it does not go on. -/
inductive RowAt where
  | cell (cl : Nat) (core : Option Nat) (off : Nat)
  | loc (l : Loc) (t : Nat)
  | xlate (e : XErr) (va : Nat)
  | fault (code : Nat)
  | wait
  deriving DecidableEq, Repr

/-- A second answer, after MOVED, that the current revision gives (R256). -/
def Answer.again (a b : Answer) : Answer := if a = .moved then (if b = .moved then .refuse 0x8412 else b) else a

/-- Resolve a row of an access of a context on core `k` under a revision, again after a MOVED (R256). A VA goes through a walker where it
must (R332), and may meet a fault (R338, R343). -/
def State.rowAt (s : State) (k : CoreId) (h : HostCtx) (rev addr : Nat) (w : Bool) : State × RowAt :=
  let now := (s.part h.part).revision
  match addrOf addr with
  | some (.wa vc core off) =>
    let a := s.waAnswer h.part h.vd rev vc
    let s := s.countAnswer h.part a
    (match a.again (s.waAnswer h.part h.vd now vc) with
     | .serve cl _ => (s, .cell cl core off)
     | .refuse code => (s, .fault code)
     | .moved => (s, .wait))
  | some (.pla x) =>
    let a := s.plaAnswer h.part rev x
    let s := s.countAnswer h.part a
    (match a.again (s.plaAnswer h.part now x) with
     | .serve ch off => (s, .loc (.chan ch off) 0)
     | .refuse code => (s, .fault code)
     | .moved => (s, .wait))
  | some (.va x) =>
    (match s.walkGate (clDie k.cl) h.part h.ctx addr w with
     | (s, false) => (s, .wait)
     | (s, true) =>
       match s.xlate h.part h.ctx x w (s.via h.part h.ctx (clSource k.cl)) with
       | (s, .error e) => (s, .xlate e x)
       | (s, .ok (hpa, t)) =>
         match s.routeHpa h.part hpa with
         | .ok l => (s, .loc l t)
         | .error e =>
           match vaError w e with
           | .xlate e => (s, .xlate e x)
           | .code code => (s, .fault code))
  | _ => (s, .fault 0x8412)

/-- The bytes of a resolved row, and their poison. -/
def State.rowBytes (s : State) (a : RowAt) (n : Nat) : List Byte × Bool :=
  match a with
  | .cell cl core off => ((s.cl cl).localRead core off n, (s.cl cl).localPoison core off n)
  | .loc l _ => s.readLoc l n
  | _ => ([], false)

/-- Lines of a resolved row that the host may hold modified: a read of them waits for BISnpData's response (R322). -/
def State.rowDirty (s : State) (a : RowAt) (n : Nat) : Option (Nat × List Nat) :=
  match a with
  | .loc (.chan ch off) _ =>
    let l := (s.chan ch).dirtyLines off n
    if l.isEmpty then none else some (ch, l)
  | _ => none

/-- Back to the start of its 256-byte row. -/
def RowAt.rowStart (a : RowAt) (o : Nat) : RowAt :=
  match a with
  | .loc (.chan ch off) t => .loc (.chan ch (off - o)) t
  | .loc (.host p x) t => .loc (.host p (x - o)) t
  | a => a

/-- A read that misses reads its row; it fills the line where it may (R144), and a volatile read replaces a present line (R146). `busy` is
the ranges of earlier accesses of the same core or DMA entry on their way (R329), and `ecc` what ECC reports of the channel location that
the row lies at (R173). -/
def State.readMiss (s : State) (k : CoreId) (h : HostCtx) (rev addr n : Nat) (volatile alloc : Bool) (busy : List (Nat × Nat)) (ecc : Nat) :
    State × ReadAns :=
  let tag := lineTag addr
  let present := (findLine (s.cl k.cl).cache tag).isSome
  match s.rowAt k h rev addr false with
  | (s, .fault code) => (s, .fault code)
  | (s, .xlate e va) => (s, .xlate e va)
  | (s, .wait) => (s, .wait)
  | (s, a) =>
    let t := match a with | .loc _ t => t | _ => 1
    let fill := decide (t % 4 = 0) && ((volatile && present) || (!volatile && alloc && s.cacheable k h addr))
    let all := if fill then a.rowStart (addr % 256) else a
    let m := if fill then 256 else n
    if ioWaits t addr busy then (s, .wait)
    else
      match s.rowDirty all m with
      | some (ch, ls) => (s.updChan ch (fun c => { c with bisnpData := ls.foldl addOnce c.bisnpData }), .wait)
      | none =>
        let s := match all with
          | .loc l _ => ((s.eccMark l ecc).eccRead l m).accServed k.cl h.part h.ctx h.vd l false m
          | .cell cl _ _ => s.accServedTo k.cl h.part h.ctx h.vd cl false m
          | _ => s
        let r := s.rowBytes a n
        let drop := (s.cl k.cl).cache.filter (fun l => decide (l.tag ≠ tag))
        let cache := if fill then
            let q := s.rowBytes all 256
            putLine (rcacheBytes h.rcache) drop { tag := tag, data := q.1, poison := q.2 }
          else drop
        (s.updCl k.cl (fun c => { c with cache := cache }), .data r.1 r.2)

/-- Read one row through the read cache: a present line serves a cacheable read, by free choice since a read may miss at any time (R144);
but no miss, and no volatile read, passes a write of the cluster that an earlier read has seen in the line (R147). -/
def State.readCached (s : State) (k : CoreId) (h : HostCtx) (rev addr n : Nat) (volatile alloc : Bool) (busy : List (Nat × Nat)) (ecc : Nat) :
    State × ReadAns :=
  let tag := lineTag addr
  let seen := s.seenWaits k.cl tag
  let (f, s) := s.fresh
  match findLine (s.cl k.cl).cache tag, volatile with
  | some l, false =>
    if seen || decide (f % 2 = 1) then
      ({ s with writes := s.writes.map (fun w => if w.k.cl = k.cl ∧ lineTag w.addr = tag then { w with seen := true } else w) },
        .data ((l.data.drop (addr % 256)).take n) l.poison)
    else s.readMiss k h rev addr n volatile alloc busy ecc
  | _, _ => if seen then (s, .wait) else s.readMiss k h rev addr n volatile alloc busy ecc

/-- Read an outside range, one row at a time; what ECC reports of the access is of its first row (log entry 69). -/
def readRows (k : CoreId) (h : HostCtx) (rev : Nat) (volatile alloc : Bool) (busy : List (Nat × Nat)) : Nat → Nat → Nat → Nat → State → State × ReadAns
  | 0, _, _, _, s => (s, .data [] false)
  | fuel + 1, ecc, addr, n, s =>
    if n = 0 then (s, .data [] false)
    else
      let m := min n (256 - addr % 256)
      match s.readCached k h rev addr m volatile alloc busy ecc with
      | (s, .data bs q) =>
        (match readRows k h rev volatile alloc busy fuel 0 (addr + m) (n - m) s with
         | (s, .data bs2 q2) => (s, .data (bs ++ bs2) (q || q2))
         | r => r)
      | r => r

/-- The scalar a load returns: zero- or sign-extended (R59). -/
def loadScalar (bs : List Byte) (sgn : Bool) : Word :=
  let v := leNat bs
  if sgn then BitVec.ofInt 64 (sext (8 * bs.length) v) else BitVec.ofNat 64 v

/-- The vector a VLD returns: 64 elements widened to FP32 lanes (R61, R119). -/
def loadVector (bs : List Byte) (fmt : ElemFmt) : VWord :=
  let bits := leNat bs
  ofLanes ((natRange 0 64).map (fun i => widenElem fmt (packedElem bits (elemWidth fmt) i)))

/-- What the data of a read that arrived does to its core. -/
def readLands (d : ReadDest) (bs : List Byte) : LandKind :=
  match d with
  | .scalar r _ sgn => .scalar r (loadScalar bs sgn)
  | .vector r fmt mask => .vector r mask (loadVector bs fmt)

/-- The data of a read has arrived: the next bundle sees it (R55). -/
def deliver (c : CoreSt) (d : ReadDest) (bs : List Byte) : CoreSt := { c with arrived := c.arrived ++ [readLands d bs] }

/-- The HBM_UNCORRECTABLE event of a channel, to its owner's event queue (R173): the log where no partition owns the channel. -/
def State.postUncorrectable (s : State) (ch off : Nat) : State :=
  let e := s.chEntry ch
  if e.state = .bound then
    s.post e.owner { evq := 0, typ := 4, source := chDie ch, code := 0x8030, ctx := 0xFFFF,
                     data := leBytes 2 ch ++ leBytes 4 (off / 256) }
  else s.logCondition (chDie ch) 2 0x8030 (leBytes 2 ch ++ leBytes 4 (off / 256))

/-- The uncorrectable reads of every channel that are still to be posted are posted (R173). -/
def State.postReports (s : State) : State :=
  s.channels.foldl (fun s e =>
    if e.2.reports.isEmpty then s
    else e.2.reports.foldl (fun s off => s.postUncorrectable e.1 off) (s.updChan e.1 (fun c => { c with reports := [] }))) s

end Sys2Proof.Machine
end

