-- ==== Sys2Proof/Machine/Admin.lean ====
section
/-! DEFINITION. The admin channels (R344-R368): accepting and dropping commands, the hub's order, the checks of R357, who may
issue a command, and the one reply each accepted command receives. -/

namespace Sys2Proof.Machine

-- fields of a command packet (R354)

/-- OPCODE. -/
def pktOp (p : List Byte) : Nat := fieldAt p 0 2
/-- TARGET. -/
def pktTarget (p : List Byte) : Nat := fieldAt p 2 1
/-- LENGTH. -/
def pktLen (p : List Byte) : Nat := fieldAt p 4 4
/-- A parameter field. -/
def par (p : List Byte) (off size : Nat) : Nat := fieldAt p (0x20 + off) size
/-- Parameter bytes. -/
def parBytes (p : List Byte) (off size : Nat) : List Byte := padTo size ((p.drop (0x20 + off)).take size)
/-- Parameter bytes that must be zero. -/
def parZero (p : List Byte) (off size : Nat) : Bool := zeroAt p (0x20 + off) size

/-- The parameter length an opcode accepts (R357 check 2); `none` for an opcode that is not defined (R368). -/
def opLenOk (p : List Byte) : Option Bool :=
  let n := pktLen p
  let is (k : Nat) : Option Bool := some (n == k)
  match pktOp p with
  | 0x0001 | 0x0003 => is 0
  | 0x0002 | 0x0004 | 0x0006 | 0x0007 | 0x0008 => is 8
  | 0x0005 => is 16
  | 0x0101 => is 64
  | 0x0102 => some (if (par p 0 1).testBit 0 then n == 72 else n == 8)
  | 0x0103 | 0x0104 | 0x0105 | 0x0106 | 0x0109 | 0x010A => is 8
  | 0x0107 => is 40
  | 0x0108 => is 32
  | 0x0201 | 0x0204 | 0x0205 | 0x0206 | 0x0207 | 0x0208 => is 8
  | 0x0202 | 0x0203 => some (decide (16 ≤ n) && n % 8 == 0 && decide (n ≤ 4064))
  | 0x0301 => is 552
  | 0x0302 | 0x0601 | 0x0602 | 0x0604 | 0x0703 | 0x0705 | 0x0706 | 0x0801 | 0x0802 | 0x0804 => is 8
  | 0x0603 => is 16
  | 0x0701 => is 56
  | 0x0702 => is 1576
  | 0x0704 => some (decide (n ≤ 4064) && n == 16 + (if par p 0 1 = 2 then par p 4 4 else 0))
  | 0x0803 => is 24
  | _ => none

/-- The opcode names a partition in TARGET (R368). -/
def opNamesPart (op : Nat) : Bool :=
  (decide (0x0101 ≤ op) && decide (op ≤ 0x0302)) || (decide (0x0601 ≤ op) && decide (op ≤ 0x0604)) || op == 0x0702 || op == 0x0703

/-- Checks 1-4 of R357. -/
def frameCheck (p : List Byte) : Option Nat :=
  match opLenOk p with
  | none => some 0x0001
  | some false => some 0x0002
  | some true =>
    let t := pktTarget p
    if fieldAt p 3 1 > 1 ∨ !zeroAt p 0x0C 20 then some 0x0003
    else if opNamesPart (pktOp p) then (if t < 64 then none else some 0x0004)
    else if pktOp p = 0x0701 then (if t < 64 ∨ t = 0xFF then none else some 0x0004)
    else if t = 0xFF then none else some 0x0004

/-- Device-busy commands (R358). -/
def deviceBusyOp (p : List Byte) : Bool :=
  (frameCheck p).isNone && (pktOp p == 0x0705 || pktOp p == 0x0207 || pktOp p == 0x0208
    || (pktOp p == 0x0801 && (par p 0 1 == 2 || par p 0 1 == 3)))

/-- Queries, which wait for no earlier command (R362). -/
def queryOp (op : Nat) : Bool := op == 0x0109 || op == 0x0205 || op == 0x0302 || op == 0x0604 || op == 0x0701

/-- Edits of the stage, refused while a commit runs (R238, R362). A commit or discard is no edit: it waits for the reply of the one
before it. -/
def editOp (op : Nat) : Bool := op == 0x0201 || op == 0x0202 || op == 0x0203 || op == 0x0206

/-- Host sites populated (R3, R32). -/
def State.sites (s : State) : Nat := if s.fuses.orderCode = 2 then 0x3 else 0xF

/-- The I3C target answers (R563): from the end of step 3 of a start. -/
def State.bcUp (s : State) : Bool := s.hubRuns

/-- The board controller reaches the I3C target: it answers, and has its dynamic address (R563, R364). -/
def State.bcReached (s : State) : Bool := s.bcUp && s.bc.address.isSome

/-- The channel exists (R344), and the BC's can be reached (R563). -/
def State.chanExists (s : State) (ch : Nat) : Bool := (ch == 4 && s.bcReached) || (decide (ch < 4) && s.sites.testBit ch)

/-- BUSY (R346): RUNNING or DEVICE_BUSY, or not admin-ready. -/
def State.admBusy (s : State) (ch : Nat) : Bool :=
  (s.admch ch).running || (s.admch ch).deviceBusy || decide (s.phase ≠ .ready)

/-- The asking channel is a pool-manager port's (R367 M). -/
def State.isPm (s : State) (ch : Nat) : Bool := decide (ch < 4) && s.prs.pmPorts.testBit ch

/-- The asking channel is the owner port's of the partition (R367 O). -/
def State.isOwner (s : State) (ch p : Nat) : Bool :=
  decide (ch < 4) && (s.part p).present && decide ((s.part p).desc.ownerPort = ch)

/-- Check 5 of R357: the code of a denial, if the channel may not issue the command (R367, R368, R282, R436). -/
def State.permCode (s : State) (ch : Nat) (p : List Byte) : Option Nat :=
  let op := pktOp p
  let t := pktTarget p
  let ok (b : Bool) (code : Nat) : Option Nat := if b then none else some code
  let host := decide (ch < 4)
  let m := s.isPm ch
  let o := s.isOwner ch t
  match op with
  | 0x0001 | 0x0002 | 0x0003 | 0x0004 | 0x0005 | 0x0007 | 0x0008 | 0x0706 => none
  | 0x0006 | 0x0704 | 0x0705 => ok (m || !host) 0x0010
  | 0x0101 | 0x0104 => ok m 0x0120
  | 0x0102 | 0x0103 | 0x0105 | 0x0106 | 0x0109 | 0x010A => ok (m || o) 0x0120
  | 0x0107 | 0x0108 => ok o 0x0120
  | 0x0207 | 0x0208 | 0x0802 | 0x0803 | 0x0804 => ok m 0x0010
  | 0x0301 => ok (if par p 0 1 = 1 then m else m || o) 0x0010
  | 0x0601 | 0x0602 | 0x0603 | 0x0604 | 0x0702 | 0x0703 => ok o 0x0010
  | 0x0701 => ok (if t = 0xFF then !host else o) 0x0010
  | 0x0801 => ok (m || (!host && par p 0 1 == 3)) 0x0010
  | _ => ok (m || o) 0x0010

/-- What a partition's state refuses (R284): PART_UNKNOWN or PART_STATE. PART_CREATE makes its own checks. -/
def State.partStateCode (s : State) (p : List Byte) : Option Nat :=
  let op := pktOp p
  let t := pktTarget p
  if op = 0x0101 ∨ t ≥ 64 then none
  else
    let target := decide (0x0200 ≤ op)
    let ok (b : Bool) : Option Nat := if b then none else some 0x0103
    match (s.part t).pstate with
    | .absent => some 0x0101
    | .disabled => ok (target || op == 0x0102 || op == 0x0104 || op == 0x010A || op == 0x0109)
    | .enabled => ok (op != 0x0106)
    | .frozen => ok (target || op == 0x0106 || op == 0x0107 || op == 0x0104 || op == 0x010A || op == 0x0109)
    | .resetting | .destroying => ok (op == 0x0109)

-- replies (R351, R355, R356)

/-- STATUS of a reply that carries a code (R356, R375). -/
def statusOf (code : Nat) : Nat :=
  if code = 0 then 0 else if code ≤ 5 then 5 else if code = 0x0010 ∨ code = 0x0120 ∨ code = 0x0603 then 2
  else if code ≥ 0x8000 then 4 else 1

/-- The bytes of a reply (R355). -/
def replyBytes (op status code seq tag : Nat) (res : List Byte) : List Byte :=
  leBytes 2 op ++ leBytes 1 status ++ zeros 1 ++ leBytes 2 code ++ leBytes 2 seq ++ leBytes 4 tag ++ leBytes 4 res.length ++ res

/-- The first five bytes of a BC message (R365). -/
def State.bcHead (s : State) : List Byte := leBytes 1 0x7F ++ (leBytes 4 s.fuses.iana).reverse

/-- A message goes out on the BC channel to the sender of a request, with its tag, and an in-band interrupt announces its packets (R364,
R365). -/
def BcSt.send (b : BcSt) (to_ : Nat × Nat) (bytes : List Byte) : BcSt :=
  { b with out := b.out ++ [{ dst := to_.1, tag := to_.2, bytes := bytes }], ibi := true }

/-- The command of a channel replies: the reply is written, REPLY_VALID set and RUNNING cleared in one step, DEVICE_BUSY cleared
after a device-busy command, and vector 0 raised where asked (R351, R359); on the BC channel a message is sent (R365). -/
def State.reply (s : State) (ch status code : Nat) (res : List Byte) : State :=
  let a := s.admch ch
  let bytes := replyBytes (pktOp a.copy) status code (a.accepted % 65536) (fieldAt a.copy 8 4) res
  let s := s.updAdm ch (fun a =>
    { a with reply := bytes, replyStatus := status, replyValid := true, running := false, started := false, busyClass := false })
  let s := if a.busyClass then { s with adm := s.adm.map (fun e => (e.1, { e.2 with deviceBusy := false })) } else s
  let s := { s with hubOrder := dropAll s.hubOrder ch }
  if ch = 4 then { s with bc := s.bc.send s.bc.reply (s.bcHead ++ bytes) }
  else if (fieldAt a.copy 3 1).testBit 0 then s.raise { port := ch, fn := 0, vector := 0 }
  else s

/-- A reply DONE with results. -/
def State.done (s : State) (ch : Nat) (res : List Byte) : State := s.reply ch 0 0 res

/-- A refusal: logged (R500) and answered with its code. -/
def State.refuse (s : State) (ch code : Nat) : State :=
  let t := pktTarget (s.admch ch).copy
  (s.logEntry 4 (codeSeverity code) code (if t < 64 then t else 0xFF) 1 (zeros 14 ++ leBytes 2 0xFFFF)).reply ch
    (statusOf code) code []

/-- A refusal with a code or DONE with results. -/
def State.answer (s : State) (ch : Nat) : Option Nat → List Byte → State
  | some c, _ => s.refuse ch c
  | none, res => s.done ch res

-- accepting a command (R348, R349, R366)

/-- A doorbell or request that finds its channel busy is dropped (R348, R366). -/
def State.admDrop (s : State) (ch : Nat) : State :=
  if ch = 4 then
    { s with bc := s.bc.send s.bc.asked (s.bcHead ++ replyBytes 0 3 0 0 0 []) }
  else s.updAdm ch (fun a => { a with lastRing := 3, droppedBusy := satInc32 a.droppedBusy })

/-- A command is accepted: its copy is taken and takes its place in the hub's order, and management is told
(R349, R359, R498). -/
def State.admAccept (s : State) (ch : Nat) (pkt : List Byte) : State :=
  let s := s.updAdm ch (fun a => { a with accepted := (a.accepted + 1) % 2 ^ 32, lastRing := 0, running := true,
                                          replyValid := false, started := false, copy := pkt })
  let s := if ch = 4 then { s with bc := { s.bc with reply := s.bc.asked } } else s
  ({ s with hubOrder := dropAll s.hubOrder ch ++ [ch] }).irqRaise ch

/-- The command of a channel waits for commands ahead of it in the hub's order (R359 steps 4 and 5, R362): of two TENSION_SETs, of any
partitions, the later one is checked once the earlier one has its reply (R450). -/
def State.mustWait (s : State) (ch : Nat) : Bool :=
  let p := (s.admch ch).copy
  let ahead := s.hubOrder.takeWhile (fun c => decide (c ≠ ch))
  let t := pktTarget p
  if deviceBusyOp p then !ahead.isEmpty
  else
    ahead.any (fun c => deviceBusyOp (s.admch c).copy) ||
    (pktOp p == 0x0301 && ahead.any (fun c => pktOp (s.admch c).copy == 0x0301)) ||
    (decide (t < 64) && !queryOp (pktOp p)
      && !(editOp (pktOp p) && (s.part t).commit.isSome)
      && (match (s.part t).pstate with | .resetting | .destroying => false | _ => true)
      && ahead.any (fun c => decide (pktTarget (s.admch c).copy = t)))

/-- Run the accepted command of a channel: checks 1-4, the device-busy class, the waits, check 5, and R284; then the command. -/
def State.admRun (s : State) (ch : Nat) (run : State → State) : State :=
  let p := (s.admch ch).copy
  match frameCheck p with
  | some c => s.refuse ch c
  | none =>
    let s := if deviceBusyOp p then
        let s := s.updAdm ch (fun a => { a with busyClass := true })
        ((natRange 0 5).filter (fun c => decide (c ≠ ch))).foldl
          (fun s c => s.updAdm c (fun a => { a with deviceBusy := true })) s
      else s
    if s.mustWait ch then s
    else
      match s.permCode ch p with
      | some c => s.refuse ch c
      | none =>
        match s.partStateCode p with
        | some c => s.refuse ch c
        | none => run (s.updAdm ch (fun a => { a with started := true }))

/-- The bytes a channel takes of a packet: a host port's whole 4,096-byte buffer, the BC's message. -/
def chanPacket (ch : Nat) (pkt : List Byte) : List Byte := if ch = 4 then pkt else padTo 4096 pkt

/-- A BC packet has the length its header states (R365). -/
def packetWhole (ch : Nat) (pkt : List Byte) : Bool := ch != 4 || (decide (32 ≤ pkt.length) && pkt.length == 32 + pktLen pkt)

/-- A command arrives on a channel, or the accepted copy of it comes to run: accepted and run, run, or dropped. `mine` says
that the packet is of the row's opcode and form; where it is not, or the channel does not exist, nothing happens. -/
def State.admCommand (s : State) (ch : Nat) (pkt : List Byte) (mine : List Byte → Bool) (run : State → List Byte → State) : State :=
  let p := chanPacket ch pkt
  if !s.chanExists ch || !mine p || !packetWhole ch p then s
  else
    let a := s.admch ch
    if a.running && !a.started && decide (a.copy = p) then s.admRun ch (fun s => run s p)
    else if s.admBusy ch then s.admDrop ch
    else (s.admAccept ch p).admRun ch (fun s => run s p)

/-- The packet carries an opcode. -/
def isOp (op : Nat) (p : List Byte) : Bool := pktOp p == op

/-- Some accepted command waits at the channel. -/
def State.admWaiting (s : State) (ch : Nat) : Bool := (s.admch ch).running && !(s.admch ch).started

-- packets of no row (R357)

/-- A sub-operation that its opcode does not define, and the code it is refused with; every other packet has a row of the table. -/
def badSubOp (p : List Byte) : Option Nat :=
  let op := par p 0 1
  match pktOp p with
  | 0x0301 => if op = 1 ∨ op = 2 then none else some 0x0303
  | 0x0108 | 0x0701 => if op = 1 ∨ op = 2 then none else some 0x0005
  | 0x0704 => if 1 ≤ op ∧ op ≤ 4 then none else some 0x0005
  | 0x0705 => if 1 ≤ op ∧ op ≤ 3 then none else some 0x0005
  | 0x0801 => if op ≤ 3 then none else some 0x0005
  | _ => none

/-- Run an accepted packet that breaks its framing, or whose sub-operation is not defined: it is answered by the common checks. One that
waits is answered when it no longer does. -/
def State.admRunRowless (s : State) (ch : Nat) : State :=
  let p := (s.admch ch).copy
  match badSubOp p with
  | some c => s.admRun ch (fun s => s.refuse ch c)
  | none => if (frameCheck p).isSome then s.admRun ch (fun s => s) else s

end Sys2Proof.Machine
end

