-- ==== Sys2Proof/Machine/Units.lean ====
section
/-! DEFINITION. What happens to units: retirement (R28, R29), the strip engine (R294-R298), the stop of a VD whose domain or
channel is lost (R199, R468), and the loss of KV slots (R274). -/

namespace Sys2Proof.Machine

-- reserved channels (R285, R290)

/-- Channels that entries `n` of a PRS channel list at a byte offset name. -/
def prsChannels (regs : List Byte) (off n : Nat) : List Nat :=
  (natRange 0 n).flatMap (fun i => let e := fieldAt regs (off + 2 * i) 2
                                   if e.testBit 15 then [e % 512] else [])
/-- PRS_KV_CHAN0-15. -/
def PrsSt.kvChans (r : PrsSt) : List Nat := prsChannels r.regs 0x20 16
/-- PRS_MGT_CHAN0-1. -/
def PrsSt.mgtChans (r : PrsSt) : List Nat := prsChannels r.regs 0x40 2
/-- DEBUG_LEVEL. -/
def PrsSt.debugLevel (r : PrsSt) : Nat := fieldAt r.regs 0x08 1 % 4

/-- KV channels in service. -/
def State.kvServing (s : State) : List Nat :=
  s.prs.kvChans.filter (fun c => decide ((s.chEntry c).state = .reserved) && !hasNat s.kv.failed c)
/-- Management channels in service. -/
def State.mgtServing (s : State) : List Nat := s.prs.mgtChans.filter (fun c => decide ((s.chEntry c).state = .reserved) && !(s.chEntry c).isOut)

-- packets in progress

/-- Every work packet in progress: partition, context, queue, packet. -/
def State.inProgress (s : State) : List (Nat × Nat × Nat × PacketRun) :=
  s.parts.flatMap (fun p => p.2.ctxs.flatMap (fun c => c.2.qs.flatMap (fun q =>
    match q.2.cur with | some r => [(p.1, c.1, q.1, r)] | none => [])))

/-- Drop the reference that saved state holds on the save object of a context (R423). -/
def State.dropSaved (s : State) (p c : Nat) : State :=
  if (s.ctx p c).saved then
    (s.memDrop p c 1 0xFFFF).updCtx p c (fun x => { x with saved := false, savedCls := [], savedWrites := [] })
  else s

/-- A run whose state is saved ends without its being read: what it counted is kept, and the reference dropped (R384, R566). -/
def State.discardSaved (s : State) (p c : Nat) : State := (s.keepSaved p c).dropSaved p c

/-- End every LAUNCH and GENERATE of a context in progress, resident or switched out, with a fault code (R468 order 3). -/
def State.ctxLose (s : State) (p c code : Nat) (keep : Nat → Bool) : State :=
  let s := (s.genFaults p c code).discardSaved p c
  let s := if (s.ctx p c).resident then s.endRun p c keep else s.updCtx p c (fun x => { x with genr := none })
  let s := s.updPart p (fun x => { x with runnable := dropAll x.runnable c })
  ((s.ctx p c).qs.filter (fun q => match q.2.cur with | some r => decide (r.typ = 1 ∨ r.typ = 2) | none => false)).foldl
    (fun s q => s.packetFail p c q.1 code) s

/-- Stop a VD (R468 orders 1-4): ERR in every counter of its clusters outside the domain, their state discarded, its LAUNCH
and GENERATE packets ended with the code, and the KV transfers that `touch` names. -/
def State.vdStop (s : State) (p node code : Nat) (inside : Nat → Bool) (touch : Nat → PacketRun → Bool) : State :=
  let s := (((s.part p).pat.clusters node).filter (fun c => !inside c)).foldl
    (fun s i => s.updCl i (fun c => { c with cnt := (natRange 0 64).map (fun n => (n, cntWithErr (tabGet 0 c.cnt n))) })) s
  let cs := ((s.part p).ctxs.filter (fun e => decide (e.2.vd = node))).map (fun e => e.1)
  let s := cs.foldl (fun s c => s.ctxLose p c code (fun i => !inside i)) s
  (s.inProgress.filter (fun e => decide (e.1 = p) && hasNat cs e.2.1 && decide (e.2.2.2.typ = 0x0B ∨ e.2.2.2.typ = 0x0C)
    && !e.2.2.2.waiting && touch e.2.1 e.2.2.2)).foldl (fun s e => s.packetFail p e.2.1 e.2.2.1 code) s

/-- The channels that `n` bytes from a PLA lie on. -/
def Pattern.touches (pat : Pattern) (pla n : Nat) : List Nat :=
  pat.map.flatMap (fun i =>
    let lo := max pla i.base
    let hi := min (pla + n) (i.base + i.len)
    if i.chans.isEmpty ∨ lo ≥ hi then []
    else
      let g := i.chans.length
      let t := (lo - i.base) / 256
      let u := (hi - 1 - i.base) / 256
      if u - t + 1 ≥ g then i.chans else (natRange t (u - t + 1)).map (fun k => i.chans.getD (k % g) 0))

/-- SLOT of a KV packet's handle (R269, R272). -/
def kvPacketSlot (bytes : List Byte) : Nat := fieldAt bytes 0x44 2

/-- The channels that the page of a VA of a context lies on, where it lies in the partition's own HBM. -/
def State.pageTouches (s : State) (p c va : Nat) : List Nat :=
  let x := s.ctx p c
  match (s.walk p x.xs1 x.xg va false).2, (s.port (s.part p).desc.ownerPort).hdmBase with
  | .ok (hpa, _), some b =>
    if b ≤ hpa ∧ hpa < b + 2 ^ 50 ∧ (hpa - b) / 2 ^ 44 = p then (s.part p).pat.touches ((hpa - b) % 2 ^ 44 / 4096 * 4096) 4096 else []
  | _, _ => []

/-- The channels that a KV transfer of a context moves data to or from: its slot's, and those under its PLA range, or under the pages of its
VA range (R272). -/
def State.kvTouches (s : State) (p c : Nat) (r : PacketRun) : List Nat :=
  let slot := tabGet {} s.kv.slots (kvPacketSlot r.bytes)
  let addr := fieldAt r.bytes 0x48 8
  let n := fieldAt r.bytes 0x50 4 * 65536
  slot.channel ::
    (if addr / 2 ^ 60 = 1 then (s.part p).pat.touches (addr % 2 ^ 44) n
     else if addr / 2 ^ 60 = 8 then
       (natRange 0 (n / 4096 + 1)).flatMap (fun i => s.pageTouches p c ((addr % 2 ^ 57 + min (4096 * i) (n - 1)) % 2 ^ 57))
     else [])

-- KV slots (R274, R275)

/-- The handle of a KV slot with BLOCK 0 (R269). -/
def kvHandle (i gen : Nat) : Nat := gen * 2 ^ 48 + i * 2 ^ 32

/-- Put a KV slot back. -/
def State.setSlot (s : State) (i : Nat) (k : KvSlot) : State := { s with kv := { s.kv with slots := tabSet s.kv.slots i k } }

/-- Packets that use a KV slot. -/
def State.slotPackets (s : State) (i : Nat) : List (Nat × Nat × Nat × PacketRun) :=
  s.inProgress.filter (fun e => decide (e.2.2.2.typ = 0x0B ∨ e.2.2.2.typ = 0x0C) && decide (kvPacketSlot e.2.2.2.bytes = i))

/-- A slot is lost (R274): GEN advances and the loss is recorded, its transfers end with KV_LOST, and the owner and each grantee
are told. Its blocks are stripped unless their channel is out of service. -/
def State.kvLose (s : State) (i : Nat) : State :=
  let k := tabGet {} s.kv.slots i
  if !k.live then s
  else
    let users := s.slotPackets i
    let s := s.setSlot i { k with gen := min (k.gen + 1) 0xFFFF, lostGens := addOnce k.lostGens k.gen, live := false, grants := [],
                                  sealed := false, stripping := !hasNat s.kv.failed k.channel }
    let s := users.foldl (fun s e => s.packetFail e.1 e.2.1 e.2.2.1 0x8601) s
    (k.owner :: k.grants.map (fun g => g.1)).foldl (fun s p =>
      s.post p { evq := 0, typ := 5, source := 4, code := 0x8601, ctx := 0xFFFF,
                 data := zeros 2 ++ leBytes 8 (kvHandle i k.gen) }) s

/-- A KV channel fails: it leaves the service, and every slot on it is lost. -/
def State.kvChannelFails (s : State) (ch : Nat) : State :=
  let s := { s with kv := { s.kv with failed := addOnce s.kv.failed ch } }
  ((s.kv.slots.filter (fun e => decide (e.2.channel = ch))).map (fun e => e.1)).foldl (fun s i => s.kvLose i) s

/-- A slot is freed (R275): GEN advances, waiting KV_GETs end with KV_FREED, its blocks are stripped. -/
def State.kvFreeSlot (s : State) (i : Nat) : State :=
  let k := tabGet {} s.kv.slots i
  let users := s.slotPackets i
  let s := s.setSlot i { k with gen := min (k.gen + 1) 0xFFFF, live := false, grants := [], sealed := false, stripping := true }
  users.foldl (fun s e => s.packetFail e.1 e.2.1 e.2.2.1 0x8602) s

/-- Locations of 256 bytes in a channel (R175). -/
def chanLocations : Nat := 11718750

-- retirement (R28, R29)

/-- A retirement fuse is blown and logged (R29, R500 KIND 8). -/
def State.blowRetire (s : State) (kind i cause : Nat) : State :=
  let s := if s.fuses.retired.any (fun r => decide (r.1 = kind) && decide (r.2.1 = i)) then s
    else { s with fuses := { s.fuses with retired := s.fuses.retired ++ [(kind, i, cause)] } }
  s.logEntry 4 1 0 0xFF 8 (leBytes 1 kind ++ leBytes 2 i ++ leBytes 1 cause)

/-- An entry becomes RETIRED, and the pool manager is told (R26, R199). -/
def State.retireEntry (s : State) (kind i cause : Nat) : State :=
  (s.updEntry kind i (fun _ => { state := .retired, cause := cause })).noticeRetired kind i cause

/-- A management channel's stored dumps are lost with it (R199, R472). -/
def State.mgtChannelLost (s : State) (ch : Nat) : State :=
  { s with recov := { s.recov with dumps := s.recov.dumps.filter (fun d => !hasNat d.chans ch) } }

/-- A refused request of a host is counted (R321). -/
def State.hdmCount (s : State) (port : Nat) : Option Nat → State
  | some p => s.updPart p (fun x => { x with hdmRefused := satInc32 x.hdmRefused })
  | none => s.updPort port (fun h => { h with stray := satInc32 h.stray })

/-- A host's read of a line is refused: zero data marked poisoned (R321). -/
def State.lineRefused (s : State) (ch port : Nat) : State :=
  (s.hdmCount port (some (s.chEntry ch).owner)).updPort port (fun h => { h with readData := zeros 64, readPoison := true })

/-- Requests that a channel holds are answered that it is lost (R199): the host's reads as refused ones, the writes with a code. -/
def State.chanDrops (s : State) (ch code : Nat) : State :=
  let c := s.chan ch
  let s := c.lineWait.foldl (fun s w => s.lineRefused ch w.1) s
  s.updChan ch (fun c => { c with lineWait := [], writeWait := [], readCode := if c.writeWait.isEmpty then c.readCode else code })

/-- What the loss of a channel does besides (R199), by the entry `e` it had: the VDs of its owner stop, or a KV or management channel's
contents are lost. -/
def State.channelLost (s : State) (ch : Nat) (e : PoolEntry) : State :=
  match e.state with
  | .bound =>
    let p := e.owner
    ((s.part p).pat.vds.map (fun v => v.node)).foldl (fun s n =>
      (s.vdStop p n 0x8031 (fun _ => false) (fun c r => hasNat (s.kvTouches p c r) ch)).post p
        { evq := 0, typ := 4, source := chDie ch, code := 0x8031, ctx := 0xFFFF, data := leBytes 2 ch }) s
  | .reserved => if hasNat s.prs.kvChans ch then s.kvChannelFails ch else s.mgtChannelLost ch
  | .free | .disabled | .retired | .stripping => s

/-- A link module leaves its edge at once (R477). -/
def State.linkLeaves (s : State) (lm : Nat) : State :=
  { s with recov := { s.recov with linkOut := addOnce s.recov.linkOut lm } }

-- the strip engine (R294-R298)

/-- An entry enters the strip engine on a path that ends BOUND to `owner`, or FREE (R27, R294). A channel of which a host may
hold lines is withdrawn from the HDM range first (R298, R324). -/
def State.startStrip (s : State) (kind i owner : Nat) (toBound : Bool) : State :=
  let lines := decide (kind = 2) && !(s.chan i).hostLines.isEmpty
  s.updEntry kind i (fun e =>
    match e.state with
    | .disabled | .retired => e
    | _ => { e with state := .stripping, owner := owner, toBound := toBound, stripFailed := false,
                    withdrawing := e.withdrawing || lines })

/-- What a strip leaves of a cluster (R295): its clock goes on. -/
def ClusterSt.strip (c : ClusterSt) : ClusterSt :=
  { cycle := c.cycle, ref := c.ref, op := c.op, gap := c.gap, thermal := c.thermal, pendingOp := c.pendingOp }
/-- What a strip leaves of a channel (R295). -/
def ChannelSt.strip (c : ChannelSt) : ChannelSt :=
  { c with mem := [], poison := [], records := [], hostLines := [], hostShared := [], bisnp := [], bisnpData := [],
           lineWait := [], writeWait := [], ecc := [], reports := [] }

/-- Clear the state a strip clears (R295). -/
def State.stripClear (s : State) (kind i : Nat) : State :=
  if kind = 1 then s.updCl i ClusterSt.strip else if kind = 2 then s.updChan i ChannelSt.strip else s

/-- A unit leaves service for its retirement with a cause, as its state asks; it is RETIRED once its fuse is blown (R199, R477, R493, R496). A
strip that runs ends first, and one that failed is over (R298). -/
def State.retireNow (s : State) (kind i cause : Nat) : State :=
  let e := s.entry kind i
  let s := s.updEntry kind i (fun e => { e with retireAs := cause, stripped := e.stripFailed })
  match e.state with
  | .disabled | .retired => s
  | .stripping => if kind = 3 then s.linkLeaves i else s
  | .free | .bound | .reserved =>
    if e.retireAs ≠ 0 then s
    else if kind = 2 then (s.chanDrops i 0x8031).channelLost i e
    else if kind = 3 then s.linkLeaves i
    else s

/-- Hardware retires a unit that failed (R28): the blow of its fuse begins, and no channel waits for it. One that is being retired already
goes on as it is. -/
def State.retireByItself (s : State) (kind i cause : Nat) : State :=
  let e := s.entry kind i
  match e.state with
  | .disabled | .retired => s
  | .free | .bound | .reserved | .stripping =>
    if e.retireAs ≠ 0 then s
    else
      let s := s.retireNow kind i cause
      { s with recov := { s.recov with retiring := s.recov.retiring ++ [(kind, i, 0xFF)] } }

/-- The retirement fuse of an entry reads blown. -/
def State.fuseBlown (s : State) (kind i : Nat) : Bool := s.fuses.retired.any (fun r => decide (r.1 = kind) && decide (r.2.1 = i))

/-- A strip is over, done or failed for good, for an entry that is to be retired (R298): it is RETIRED once its fuse is blown. -/
def State.stripRetires (s : State) (kind i cause : Nat) : State :=
  if s.fuseBlown kind i then s.retireEntry kind i cause else s.updEntry kind i (fun e => { e with stripped := true })

/-- A strip completes: the entry is to be retired where a fault or a command asked for that, else it is BOUND and idle, or FREE (R294,
R298, R199). -/
def State.stripEnds (s : State) (kind i : Nat) : State :=
  let e := s.entry kind i
  let s := s.stripClear kind i
  if e.retireAs ≠ 0 then s.stripRetires kind i e.retireAs
  else s.updEntry kind i (fun e =>
    if e.toBound then { e with state := .bound, toBound := false, stripFailed := false, withdrawing := false } else { state := .free })

/-- Entries of a kind in a table that meet a condition. -/
def poolWhere (t : Tab PoolEntry) (f : PoolEntry → Bool) : List Nat := (t.filter (fun e => f e.2)).map (fun e => e.1)

/-- Every pool entry as kind and index. -/
def State.entriesWhere (s : State) (f : PoolEntry → Bool) : List (Nat × Nat) :=
  (poolWhere s.pool.clusters f).map (fun i => (1, i)) ++ (poolWhere s.pool.channels f).map (fun i => (2, i))
    ++ (poolWhere s.pool.links f).map (fun i => (3, i))

/-- An entry counts against its partition's caps: BOUND, or STRIPPING on a path that ends BOUND (R286, R280). -/
def PoolEntry.counts (e : PoolEntry) (p : Nat) : Bool :=
  decide (e.owner = p) && (match e.state with | .bound => true | .stripping => e.toBound | _ => false)

/-- Entries of a kind a partition holds (R280). -/
def State.held (s : State) (kind p : Nat) : Nat :=
  (poolWhere (if kind = 1 then s.pool.clusters else if kind = 2 then s.pool.channels else s.pool.links)
    (fun e => e.counts p)).length

/-- A partition's entries are still passing through the strip engine on a path that ends BOUND. -/
def State.stripsToBound (s : State) (p : Nat) : Bool :=
  !(s.entriesWhere (fun e => decide (e.state = .stripping) && e.toBound && decide (e.owner = p))).isEmpty

end Sys2Proof.Machine
end

