-- ==== Sys2Proof/Machine/Special.lean ====
section
/-! DEFINITION. The special functions of R63. Their results are free within the error bounds of its table: the bounds are measured from
reference values that are worked out here in fixed point to more than a hundred bits (log entry 4). -/

namespace Sys2Proof.Machine

/-- Integer square root by bits. -/
def sqrtFrom (x : Nat) : Nat → Nat → Nat
  | 0, r => r
  | i + 1, r => let t := r + 2 ^ i; if t * t ≤ x then sqrtFrom x i t else sqrtFrom x i r

/-- The floor of the square root of a number below 2^440. -/
def isqrt (x : Nat) : Nat := sqrtFrom x 220 0

/-- `a * 2^e ≤ b * 2^f` for dyadic numbers. -/
def dyLe (a e b f : Int) : Bool :=
  let m := min e f
  decide (a * 2 ^ (e - m).toNat ≤ b * 2 ^ (f - m).toNat)

/-- The exponent of one ulp of an FP32 encoding. -/
def ulpExp (v : Nat) : Int := max ((v / 2 ^ 23 % 256 : Nat) : Int) 1 - 150

/-- `c` lies within 1 ulp of the reciprocal of `x` (R63): magnitudes. -/
def rcpWithin (x c : Nat) : Bool :=
  match fp32Val (fp32Abs x), fp32Val (fp32Abs c) with
  | .fin _ m e, .fin _ n f =>
    let u := ulpExp c
    -- |n m 2^(e+f) - 1| <= m 2^(e+u)
    dyLe (n * m) (e + f) (1 + 0) 0 && dyLe 1 0 (n * m * 2 ^ (f - u).toNat + m) (e + u) ||
    dyLe 1 0 (n * m) (e + f) && dyLe (n * m * 2 ^ (f - u).toNat - m) (e + u) 1 0
  | _, _ => false

/-- `c` lies within 2 ulp of the reciprocal square root of `x` (R63). -/
def rsqWithin (x c : Nat) : Bool :=
  match fp32Val x, fp32Val c with
  | .fin _ m e, .fin s n f =>
    let u := ulpExp c
    let k : Int := n * 2 ^ (f - u).toNat
    -- (k-2)^2 x <= 1 <= (k+2)^2 x, in units of 2^u
    let lo := max 0 (k - 2)
    !s && dyLe (lo * lo * m) (2 * u + e) 1 0 && dyLe 1 0 ((k + 2) * (k + 2) * m) (2 * u + e)
  | _, _ => false

/-- The correctly rounded reciprocal square root of a positive finite value, which serves where the free value breaks R63. -/
def rsqNear (x : Nat) : Nat :=
  match fp32Val x with
  | .fin _ m e =>
    let odd := decide (e % 2 ≠ 0)
    let m' := if odd then 2 * m else m
    let e' := if odd then e - 1 else e
    fp32Round .nearestEven false (isqrt (2 ^ 400 / m')) (-(e' / 2) - 200)
  | _ => fp32NaN

-- reference values, in units of 2^-200

/-- One, in fixed point. -/
def fixOne : Nat := 2 ^ 200

/-- The sum over `k` from `i` on of 1 / (k 2^k), `n` terms. -/
def ln2Terms : Nat → Nat → Nat
  | 0, _ => 0
  | n + 1, i => fixOne / (i * 2 ^ i) + ln2Terms n (i + 1)

/-- The natural logarithm of 2. -/
def fixLn2 : Nat := ln2Terms 210 1

/-- The sum of y^k / k! from the term `t` of index `i` on, `n` terms. -/
def expTerms (y : Nat) : Nat → Nat → Nat → Nat
  | 0, _, _ => 0
  | n + 1, i, t => t + expTerms y n (i + 1) (t * y / fixOne / (i + 1))

/-- e^y for y from 0 up to 1. -/
def fixExp (y : Nat) : Nat := expTerms y 60 0 fixOne

/-- The sum of (-1)^k z^(2k+1) / (2k+1) with the sign as given, from the power `p` of index `i` on, `n` terms. -/
def oddTerms (z2 : Nat) (alt : Bool) : Nat → Nat → Nat → Int
  | 0, _, _ => 0
  | n + 1, i, p =>
    let t : Int := (p / i : Nat)
    let rest := oddTerms z2 alt n (i + 2) (p * z2 / fixOne)
    if alt then t - rest else t + rest

/-- The inverse tangent of 1 / k. -/
def fixAtanInv (k : Nat) : Int := oddTerms (fixOne / (k * k)) true 100 1 (fixOne / k)

/-- The ratio of a circle's circumference to its diameter. -/
def fixPi : Nat := (16 * fixAtanInv 5 - 4 * fixAtanInv 239).toNat

/-- 2^x for x = `v` units: a dyadic number. -/
def exp2Of (v : Int) : Int × Int :=
  let n := v / (fixOne : Int)
  if n < -300 then (1, -400)
  else (((fixExp ((v % (fixOne : Int)).toNat * fixLn2 / fixOne) : Nat) : Int), n - 200)

/-- A dyadic value in fixed point, rounded down; `m` below 2^24. -/
def fixOf (m : Nat) (e : Int) : Nat := if -200 ≤ e then m * 2 ^ (e + 200).toNat else m / 2 ^ (-200 - e).toNat

/-- The base-2 logarithm of m 2^e, in fixed point. -/
def log2Of (m : Nat) (e : Int) : Int :=
  let l := Nat.log2 m
  let y := m * fixOne / 2 ^ l
  let z := (y - fixOne) * fixOne / (y + fixOne)
  (e + l) * (fixOne : Int) + 2 * oddTerms (z * z / fixOne) false 70 1 z * (fixOne : Int) / (fixLn2 : Int)

/-- The hyperbolic tangent of a magnitude, in fixed point: from 16 on the largest number below 1, which decides every FP32 result as the
exact value does. -/
def tanhOf (t : Nat) : Int :=
  if t ≥ 16 * fixOne then (fixOne : Int) - 1
  else
    let x := exp2Of ((2 * t * fixOne / fixLn2 : Nat) : Int)
    let v := x.1 * 2 ^ (x.2 + 200).toNat
    (v - fixOne) * fixOne / (v + fixOne)

/-- The sum of (-1)^k t^(2k+1) / (k! (2k+1)), from the term `p` = t^(2k+1) / k! of index `k` on, `n` terms. -/
def erfTerms (t2 : Nat) : Nat → Nat → Nat → Int
  | 0, _, _ => 0
  | n + 1, k, p => ((p / (2 * k + 1) : Nat) : Int) - erfTerms t2 n (k + 1) (p * t2 / fixOne / (k + 1))

/-- The error function of a magnitude, in fixed point: from 6 on the largest number below 1, which decides every FP32 result as the exact
value does. -/
def erfOf (t : Nat) : Int :=
  if t ≥ 6 * fixOne then (fixOne : Int) - 1
  else erfTerms (t * t / fixOne) 220 0 t * (2 * fixOne) / ((isqrt (fixPi * fixOne) : Nat) : Int)

/-- The value of `c` lies within `b` 2^f of the dyadic number `r`. -/
def nearRef (r : Int × Int) (b f : Int) (c : Nat) : Bool :=
  match fp32Val c with
  | .fin s m e =>
    let d := dyAdd (signed s m, e) (-r.1, r.2)
    dyLe d.1.natAbs d.2 b f
  | _ => false

/-- The free value where it keeps the bound, and the reference value rounded where it does not. -/
def boundedFn (r : Int × Int) (b f : Int) (c : Nat) : Nat :=
  if nearRef r b f c then c % 2 ^ 32 else fp32Round .nearestEven (decide (r.1 < 0)) r.1.natAbs r.2

/-- A special function of one lane (R63): 0x14 VEXP2, 0x15 VLOG2, 0x16 VRCP, 0x17 VRSQ, 0x18 VTANH, 0x19 VERF. The special
inputs are exact, and so is VEXP2 of zero, whose value R214 gives as 1; every other value is free within the bound (log entry 4). -/
def specialFn (op x : Nat) : Nat :=
  let b := BitVec.ofNat 32 x
  let neg := x.testBit 31
  let sgn := (x / 2 ^ 31 % 2) * 2 ^ 31
  let mag := fp32Abs x
  match fp32Val x with
  | .nan _ => fp32NaN
  | .inf _ =>
    match op with
    | 0x14 => if neg then 0 else 0x7F800000
    | 0x15 => if neg then fp32NaN else 0x7F800000
    | 0x16 => sgn
    | 0x17 => if neg then fp32NaN else let c := (Config.vrsq b).toNat; boundedFn (0, 0) 2 (ulpExp c) c
    | _ => sgn + 0x3F800000
  | .fin _ m e =>
    match op with
    | 0x14 =>
      let c := (Config.vexp2 b).toNat
      if mag = 0 then 0x3F800000
      else if !neg && decide (mag ≥ 0x43000000) then 0x7F800000
      else boundedFn (if mag ≥ 0x43800000 then (1, -400) else exp2Of (signed neg (fixOf m e))) 2 (ulpExp c) c
    | 0x15 =>
      let c := (Config.vlog2 b).toNat
      if mag = 0 then 0xFF800000
      else if neg then fp32NaN
      else if 0x3F000000 ≤ mag ∧ mag ≤ 0x40000000 then boundedFn (log2Of m e, -200) 1 (-21) c
      else boundedFn (log2Of m e, -200) 2 (ulpExp c) c
    | 0x16 =>
      let c := (Config.vrcp b).toNat
      if mag = 0 then sgn + 0x7F800000
      else if decide (c / 2 ^ 31 = x / 2 ^ 31 % 2) && rcpWithin x c then c else fp32Div 0x3F800000 x
    | 0x17 =>
      let c := (Config.vrsq b).toNat
      if mag = 0 then sgn + 0x7F800000
      else if neg then fp32NaN
      else if rsqWithin x c then c else rsqNear x
    | 0x18 => boundedFn (signed neg 1 * tanhOf (fixOf m e), -200) 1 (-20) (Config.vtanh b).toNat
    | _ => boundedFn (signed neg 1 * erfOf (fixOf m e), -200) 1 (-20) (Config.verf b).toNat

end Sys2Proof.Machine
end

