-- ==== Sys2Proof/Machine/Vector.lean ====
section
/-! DEFINITION. The V slot's results: lane arithmetic, conversions, scans and reductions (R61-R63,
R115-R125), and random words (R75, R124). -/

namespace Sys2Proof.Machine

/-- The rounding of an RND field for a lane whose random word is `r` (R45, R124). -/
def rndOf (rnd : BitVec 2) (r : Nat) : Rounding :=
  if rnd = 1 then .stochastic r else if rnd = 2 then .towardZero else .nearestEven

/-- An FP32 value with every NaN canonical (R93). -/
def fp32Quiet (x : Nat) : Nat :=
  match fp32Val x with
  | .nan _ => fp32NaN
  | _ => x

/-- VSCAN with imm[0] = 0: prefix sums in lane order (R61). -/
def scanSum (r : Rounding) : Nat → List Nat → List Nat
  | _, [] => []
  | acc, x :: t => let y := fp32Add r acc x; y :: scanSum r y t

/-- VSCAN with imm[0] = 1: h(i) := va(i) h(i-1) + vb(i) (R61). -/
def scanLinear (r : Rounding) : Nat → List (Nat × Nat) → List Nat
  | _, [] => []
  | h, (a, b) :: t => let y := fp32Fma r a h b; y :: scanLinear r y t

/-- Prefix sums that start at lane 0's own value, a NaN of which becomes the canonical one (R93). -/
def scanFrom0 (r : Rounding) : List Nat → List Nat
  | [] => []
  | x :: t => let y := fp32Quiet x; y :: scanSum r y t

/-- VRED: 0 sum in lane order, 1 max, 2 min (R61). -/
def reduceLanes (r : Rounding) (op : Nat) : List Nat → Nat
  | [] => 0
  | x :: t =>
    match op with
    | 0 => t.foldl (fun a y => fp32Add r a y) x
    | 1 => t.foldl fp32Max x
    | _ => t.foldl fp32Min x

/-- One lane of VISHIFT: a signed count in imm[5:0], imm[6] an arithmetic right shift (R61). -/
def shiftLane (imm x : Nat) : Nat :=
  let n := sext 6 (imm % 64)
  if 0 ≤ n then (x * 2 ^ n.toNat) % 2 ^ 32
  else if imm.testBit 6 then wrapBits 32 (sext 32 x / (2 ^ n.natAbs : Nat))
  else x / 2 ^ n.natAbs

/-- VCVT (R117-R122): the packed or lane result. `ws` are the lanes' random words. -/
def convert (t : VSlot) (v : VWord) (ws : List Nat) : VWord :=
  let imm := t.imm.toNat
  let sat := imm.testBit 4
  let fl := imm.testBit 5
  let int := imm.testBit 6
  let idx := natRange 0 64
  let rnd (i : Nat) : Rounding := rndOf t.rnd (ws.getD i 0)
  match elemFmtOf t.fmt.toNat, elemFmtOf (imm % 16) with
  | some src, some dst =>
    let w := elemWidth src
    let narrow (i : Nat) : Nat :=
      let e := packedElem v.toNat w i
      if fl then (match fmtSpec src with | some f => f.flush e | none => e) else e
    if dst = .fp32 ∧ src = .fp32 then ofLanes (idx.map (fun i => int32ToFp32 (rnd i) (vlane v i)))
    else if dst = .fp32 then
      (if int then ofLanes (idx.map (fun i => wrapBits 32 (sext w (narrow i))))
       else ofLanes (idx.map (fun i => widenElem src (narrow i))))
    else if int then BitVec.ofNat 2048 (packElems (elemWidth dst) (idx.map (fun i => int32ToNarrow (elemWidth dst) (vlane v i))))
    else BitVec.ofNat 2048 (packElems (elemWidth dst) (idx.map (fun i => narrowElem dst sat fl (rnd i) (vlane v i))))
  | _, _ => 0

/-- The bytes a VST writes and the bits it does not write (R49, R123): 64 elements of the format. -/
def storeBytes (fmt : ElemFmt) (rnd : BitVec 2) (v : VWord) (ws : List Nat) (lanes : Word) : List Byte × List Byte :=
  let w := elemWidth fmt
  let idx := natRange 0 64
  let data := packElems w (idx.map (fun i => narrowElem fmt false false (rndOf rnd (ws.getD i 0)) (vlane v i)))
  let mask := packElems w (idx.map (fun i => if lanes.getLsbD i then 0 else 2 ^ w - 1))
  (leBytes (8 * w) data, if mask = 0 then [] else leBytes (8 * w) mask)

/-- A register-to-register V operation: its result and its latency (R61). -/
def vCompute (t : VSlot) (k : CoreSt) (ws : List Nat) : VWord × Nat :=
  let a := k.vreg t.va.toNat
  let b := k.vreg t.vb.toNat
  let c := k.vreg t.vc.toNat
  let r := rndOf t.rnd 0
  let la := vlanes a
  let lb := vlanes b
  let lc := vlanes c
  let imm := t.imm.toNat
  let zip2 (f : Nat → Nat → Nat) : VWord := ofLanes ((la.zip lb).map (fun x => f x.1 x.2))
  match t.op.toNat with
  | 0x01 => (zip2 (fp32Add r), 4)
  | 0x02 => (zip2 (fp32Sub r), 4)
  | 0x03 => (zip2 (fp32Mul r), 4)
  | 0x04 => (ofLanes ((la.zip (lb.zip lc)).map (fun x => fp32Fma r x.1 x.2.1 x.2.2)), 4)
  | 0x05 => (zip2 fp32Max, 2)
  | 0x06 => (zip2 fp32Min, 2)
  | 0x07 => (ofLanes (la.map fp32Abs), 2)
  | 0x08 => (ofLanes (la.map fp32Neg), 2)
  | 0x0A =>
    let m := k.preg (t.vc.toNat % 8)
    (ofLanes ((natRange 0 64).map (fun i => if m.getLsbD i then vlane a i else vlane b i)), 2)
  | 0x0B => ((match imm % 4 with | 0 => a &&& b | 1 => a ||| b | 2 => a ^^^ b | _ => ~~~ a), 1)
  | 0x0C => (zip2 (fun x y => (x + y) % 2 ^ 32), 2)
  | 0x0D => (ofLanes (la.map (shiftLane imm)), 2)
  | 0x10 => (convert t a ws, 3)
  | 0x14 | 0x15 | 0x16 | 0x17 | 0x18 | 0x19 => (ofLanes (la.map (specialFn t.op.toNat)), 12)
  | 0x1C => (ofLanes (if imm.testBit 0 then scanLinear r (vlane c 63) (la.zip lb) else scanFrom0 r la), 16)
  | 0x1D => (ofLanes (reduceLanes r (imm % 4) la :: List.replicate 63 0), 10)
  | 0x1E => (ofLanes (List.replicate 64 ((k.sreg t.sreg.toNat).toNat % 2 ^ 32)), 2)
  | 0x22 => (ofLanes (lb.map (fun x => vlane a (x % 64))), 4)
  | 0x24 => (k.accRow (imm / 64 % 8) (imm % 64), 8)
  | _ => (ofLanes ws, 24)

/-- The 64 lanes VCMP sets: condition imm[1:0] (R61, R116). -/
def vCompare (t : VSlot) (k : CoreSt) : Word :=
  let a := k.vreg t.va.toNat
  let b := k.vreg t.vb.toNat
  BitVec.ofNat 64 (packElems 1 ((natRange 0 64).map (fun i => bnat (fp32Cmp (t.imm.toNat % 4) (vlane a i) (vlane b i)))))

/-- The operation draws random words, and from which stream (R61, R124): VRAND, and VCVT or VST with RND 1. -/
def vStream (t : VSlot) : Option Nat :=
  if t.op.toNat = 0x26 then some (t.imm.toNat % 4)
  else if (t.op.toNat = 0x10 ∨ t.op.toNat = 0x21) ∧ t.rnd = 1 then some 3
  else none

end Sys2Proof.Machine
end

