-- ==== Sys2Proof/Machine/Issue.lean ====
section
/-! DEFINITION. Issuing a bundle: the hold of R54, the checks of a bundle in the order of R565, and the effect of each slot
(R57-R70, R152-R163). All five slots issue together; a faulting bundle has no effect in any slot (R76). -/

namespace Sys2Proof.Machine

/-- What the slots of one bundle see: the core, its context, the issue cycle and the state of that cycle. -/
structure IssueCtx where
  k : CoreId
  h : HostCtx
  t : Nat
  st : State
  c : CoreSt

-- S slot

/-- A special register's value (R58): `none` for a number the table does not list. -/
def specialReg (x : IssueCtx) (n : Nat) : Option Word :=
  match n with
  | 0x00 => some (BitVec.ofNat 64 x.h.vc)
  | 0x01 => some (BitVec.ofNat 64 x.k.core)
  | 0x02 => some (BitVec.ofNat 64 x.h.n)
  | 0x03 => some (BitVec.ofNat 64 x.h.ctx)
  | 0x04 => some (BitVec.ofNat 64 (x.st.clusterCycles x.k.cl))
  | 0x05 => some (BitVec.ofNat 64 x.c.issued)
  | 0x08 | 0x09 | 0x0A | 0x0B => some (tabGet 0 x.c.draws (n - 8))
  | _ => none

/-- Signed quotient: all ones by zero (R57). DESIGN CHOICE (log entry 62): it is rounded toward zero. -/
def divSigned (a b : Word) : Word := if b = 0 then BitVec.allOnes 64 else a.sdiv b
/-- Unsigned quotient: all ones by zero (R57). -/
def divUnsigned (a b : Word) : Word := if b = 0 then BitVec.allOnes 64 else a.udiv b
/-- Signed remainder: ra by zero (R57). DESIGN CHOICE (log entry 62): it has the dividend's sign. -/
def remSigned (a b : Word) : Word := if b = 0 then a else a.srem b
/-- Unsigned remainder: ra by zero (R57). -/
def remUnsigned (a b : Word) : Word := if b = 0 then a else a.umod b

/-- An S-slot operation with a scalar result: the result and its latency (R57). -/
def sCompute (op : Nat) (a b imm : Word) (imm21 : Nat) : Word × Nat :=
  match op with
  | 0x01 => (a + b, 1)
  | 0x02 => (a + imm, 1)
  | 0x03 => (a - b, 1)
  | 0x04 => (a &&& b, 1)
  | 0x05 => (a ||| b, 1)
  | 0x06 => (a ^^^ b, 1)
  | 0x07 => ((a <<< 21) ||| BitVec.ofNat 64 imm21, 1)
  | 0x08 => (a <<< (b.toNat % 64), 1)
  | 0x09 => (a >>> (b.toNat % 64), 1)
  | 0x0A => (a.sshiftRight (b.toNat % 64), 1)
  | 0x0B => (a <<< (imm21 % 64), 1)
  | 0x0C => (a >>> (imm21 % 64), 1)
  | 0x0D => (a.sshiftRight (imm21 % 64), 1)
  | 0x10 => (a * b, 3)
  | 0x11 => (BitVec.ofInt 64 ((a.toInt * b.toInt) / 2 ^ 64), 3)
  | 0x12 => (divSigned a b, 20)
  | 0x13 => (divUnsigned a b, 20)
  | 0x14 => (remSigned a b, 20)
  | 0x15 => (remUnsigned a b, 20)
  | 0x18 => (if a.slt b then a else b, 1)
  | 0x19 => (if a.slt b then b else a, 1)
  | 0x1A => (if a.ult b then a else b, 1)
  | 0x1B => (if a.ult b then b else a, 1)
  | _ => (imm, 1)

/-- The landing entry of an S-slot operation, with its latency. -/
def sLanding (x : IssueCtx) (t : SSlot) : Option (LandKind × Nat) :=
  let op := t.op.toNat
  let a := x.c.sreg t.ra.toNat
  let b := x.c.sreg t.rb.toNat
  let imm := t.imm.signExtend 64
  if op = 0 then none
  else if 0x20 ≤ op ∧ op ≤ 0x25 then some (.pred (t.rd.toNat % 8) (predAll (cmpHolds op a b)) (BitVec.allOnes 64), 1)
  else if op = 0x30 then (specialReg x (t.imm.toNat % 256)).map (fun v => (.scalar t.rd.toNat v, 1))
  else if op = 0x31 then some (.draw (t.imm.toNat % 256 - 8) a, 1)
  else if op = 0x32 then some (.scalar t.rd.toNat (x.c.preg (t.ra.toNat % 8)), 1)
  else if op = 0x33 then some (.pred (t.rd.toNat % 8) a (BitVec.allOnes 64), 1)
  else
    let r := sCompute op a b imm t.imm.toNat
    some (.scalar t.rd.toNat r.1, r.2)

/-- Operand fault of the S slot: a special register that does not exist or is not writable (R58). -/
def sFault (x : IssueCtx) (t : SSlot) : Option Nat :=
  let n := t.imm.toNat % 256
  if t.op.toNat = 0x30 then faultIf (specialReg x n).isNone 0x8416
  else if t.op.toNat = 0x31 then faultIf (!(decide (8 ≤ n) && decide (n ≤ 11))) 0x8416
  else none

-- B slot

/-- Bytes of a B-slot access. -/
def bBytes (op : Nat) : Nat :=
  match op with
  | 0x08 | 0x0C | 0x10 => 1
  | 0x09 | 0x0D | 0x11 => 2
  | 0x0A | 0x0E | 0x12 => 4
  | _ => 8

/-- The operation is a load. -/
def bIsLoad (op : Nat) : Bool := (decide (0x08 ≤ op) && decide (op ≤ 0x0E)) || op == 0x14
/-- The operation is a store. -/
def bIsStore (op : Nat) : Bool := decide (0x10 ≤ op) && decide (op ≤ 0x13)
/-- The load sign-extends. -/
def bSigned (op : Nat) : Bool := decide (0x0C ≤ op) && decide (op ≤ 0x0E)

/-- The effective address of a B-slot access (R44). -/
def bAddr (x : IssueCtx) (t : BSlot) : Nat := addImm (x.c.sreg t.ra.toNat) 26 t.imm.toNat

/-- The taken target of a branch, if the slot branches (R59). DESIGN CHOICE (log entry 63): it wraps modulo 2,048. -/
def bTarget (x : IssueCtx) (t : BSlot) : Option Nat :=
  let op := t.op.toNat
  let a := x.c.sreg t.ra.toNat
  let rel := wrapBits 11 ((x.c.pc : Int) + sext 26 t.imm.toNat)
  if op = 0x01 ∨ op = 0x05 then some rel
  else if op = 0x02 then (if a = 0 then some rel else none)
  else if op = 0x03 then (if a = 0 then none else some rel)
  else if op = 0x06 then some (a.toNat % 2048)
  else none

/-- Kind, alignment, extent (R565, R60, R135). -/
def memFault (x : IssueCtx) (addr n align : Nat) : Option Nat :=
  match addrOf addr with
  | none => some 0x8412
  | some a => firstFault [faultIf (addr % align ≠ 0) 0x8413, faultIf (x.st.target x.k x.h a n).isNone 0x8412]

/-- Where an access resolves. -/
def memTarget (x : IssueCtx) (addr n : Nat) : Option Target :=
  match addrOf addr with
  | none => none
  | some a => x.st.target x.k x.h a n

/-- A local read meets a poisoned row (R174). DESIGN CHOICE (log entry 65): within its slot this fault comes after those of R565. -/
def readPoison (x : IssueCtx) (addr n : Nat) : Option Nat :=
  match memTarget x addr n with
  | some (.inside core off) => faultIf ((x.st.cl x.k.cl).localPoison core off n) 0x8414
  | _ => none

/-- Operand faults of the B slot. -/
def bFault (x : IssueCtx) (t : BSlot) : Option Nat :=
  let op := t.op.toNat
  let n := bBytes op
  if bIsLoad op then firstFault [memFault x (bAddr x t) n n, readPoison x (bAddr x t) n]
  else if bIsStore op then memFault x (bAddr x t) n n
  else none

-- V slot

/-- Bytes of a VLD or VST. -/
def vBytes (t : VSlot) : Nat := match elemFmtOf t.fmt.toNat with | some f => 8 * elemWidth f | none => 0

/-- The effective address of VLD and VST (R61). -/
def vAddr (x : IssueCtx) (t : VSlot) : Nat := addImm (x.c.sreg t.sreg.toNat) 17 t.imm.toNat

/-- A VRAND, or an operation that draws like one, fewer than 8 cycles after the last (R61, R124). -/
def vTooSoon (x : IssueCtx) (t : VSlot) : Bool :=
  (vStream t).isSome && (match x.c.lastVrand with | some u => decide (x.t < u + 8) | none => false)

/-- Operand faults of the V slot. -/
def vFault (x : IssueCtx) (t : VSlot) : Option Nat :=
  let op := t.op.toNat
  if op = 0x20 then firstFault [memFault x (vAddr x t) (vBytes t) 64, readPoison x (vAddr x t) (vBytes t)]
  else if op = 0x21 then firstFault [memFault x (vAddr x t) (vBytes t) 64, faultIf (vTooSoon x t) 0x8416]
  else faultIf (vTooSoon x t) 0x8416

/-- The random words of a stream at its draw counter (R75). -/
def drawWords (x : IssueCtx) (stream : Nat) : List Nat :=
  vrandLanes x.h.seed (tabGet 0#64 x.c.draws stream).toNat stream x.k.core x.h.vc

-- M slot

/-- The scratchpad offset of an MMA operand: LOCAL scratchpad addresses only (R136). -/
def tileOff (v : Nat) : Option Nat := match addrOf v with | some (.scratch o) => some o | _ => none

/-- Faults of one MMA operand: kind, alignment, extent (R68, R136). -/
def tileFault (v n : Nat) : Option Nat :=
  match tileOff v with
  | none => some 0x8412
  | some o => firstFault [faultIf (o % 256 ≠ 0) 0x8413, faultIf (o + n > 0x40000) 0x8412]

/-- Operand faults of the M slot: A, then B, then M_OVERRUN (R565, R65). -/
def mFault (x : IssueCtx) (t : MSlot) : Option Nat :=
  if t.op = 0 then none
  else
    match mMode t with
    | none => some 0x8410
    | some m => firstFault [tileFault (x.c.sreg t.sa.toNat).toNat m.aBytes, tileFault (x.c.sreg t.sb.toNat).toNat m.bBytes,
                            faultIf (x.c.mexec.isSome && x.c.mpend.isSome) 0x8411]

-- X slot

/-- Operand faults of the X slot (R70, R135, R136, R567). A DMA of length 0 does nothing. -/
def xFault (x : IssueCtx) (t : XSlot) : Option Nat :=
  let op := t.op.toNat
  let sa := (x.c.sreg t.sa.toNat).toNat
  let sb := (x.c.sreg t.sb.toNat).toNat
  let sl := (x.c.sreg t.sl.toNat).toNat
  if op = 0x01 then if sl = 0 then none else firstFault [faultIf (addrOf sa).isNone 0x8412, faultIf (addrOf sb).isNone 0x8412,
                                faultIf (sl > 0x4000000) 0x8416]
  else if op = 0x02 then faultIf (tileOff sa).isNone 0x8412
  else if op = 0x0C then
    (match addrOf sb with
     | some (.wa vc core off) => firstFault [faultIf (sb % 8 ≠ 0) 0x8413,
         faultIf (x.st.target x.k x.h (.wa vc core off) 8).isNone 0x8412]
     | _ => some 0x8412)
  else if op = 0x10 ∨ op = 0x12 then faultIf (addrOf sa).isNone 0x8412
  else none

-- the bundle

/-- The slot's condition (R49). -/
def sOn (x : IssueCtx) (b : Bundle) : Bool := b.s.op != 0 && predOn x.c b.s.pred b.s.pneg
/-- The slot's condition (R49). -/
def bOn (x : IssueCtx) (b : Bundle) : Bool := b.b.op != 0 && predOn x.c b.b.pred b.b.pneg
/-- The slot's condition (R49). -/
def xOn (x : IssueCtx) (b : Bundle) : Bool := b.x.op != 0 && predOn x.c b.x.pred b.x.pneg
/-- The V slot acts: always, but for a VEXTR whose condition is false (R49). -/
def vOn (x : IssueCtx) (b : Bundle) : Bool := b.v.op != 0 && (b.v.op != 0x1F || predOn x.c b.v.pred b.v.pneg)

/-- The branch the bundle takes. -/
def takenBranch (x : IssueCtx) (b : Bundle) : Option Nat := if bOn x b then bTarget x b.b else none

/-- ILLEGAL_BUNDLE: the encoding (R50; log entry 61: of every slot, whatever its predicate), a taken branch in a delay bundle (R59), a
weight stream whose source is no PLA (R70). -/
def illegal (x : IssueCtx) (b : Bundle) : Bool :=
  !bundleLegal b || (decide (x.c.brRemain > 0) && (takenBranch x b).isSome)
    || (xOn x b && b.x.op == 1 && xFlagW b.x.flags && decide ((x.c.sreg b.x.sa.toNat).toNat / 2 ^ 60 ≠ 1))

/-- Beats of one access on the cluster port (R127). -/
def beatsOf (x : IssueCtx) (addr n : Nat) : Nat :=
  match memTarget x addr n with
  | some tg => if tg.onPort x.k then ceilDiv n 64 else 0
  | none => 0

/-- Beats the bundle issues on the cluster port (R127, R128). -/
def bundleBeats (x : IssueCtx) (b : Bundle) : Nat :=
  (if bOn x b && (bIsLoad b.b.op.toNat || bIsStore b.b.op.toNat) then beatsOf x (bAddr x b.b) (bBytes b.b.op.toNat) else 0)
    + (if b.v.op.toNat = 0x20 ∨ b.v.op.toNat = 0x21 then beatsOf x (vAddr x b.v) (vBytes b.v) else 0)

/-- Beats in the 16 cycles that end with the issue cycle, this bundle's included (R128). -/
def windowBeats (x : IssueCtx) (b : Bundle) : Nat :=
  (x.c.beats.filter (fun e => decide (x.t < e.1 + 16))).foldl (fun a e => a + e.2) (bundleBeats x b)

/-- The fault a bundle raises at issue, in the order of R565. -/
def bundleFault (x : IssueCtx) (b : Bundle) : Option Nat :=
  firstFault
    [ faultIf (illegal x b) 0x8410,
      faultIf ((bundleFormats b).any (fun f => !x.h.formats.testBit f)) 0x8415,
      faultIf (decide (bundleBeats x b > 0) && decide (windowBeats x b > 12)) 0x8417,
      if sOn x b then sFault x b.s else none,
      if bOn x b then bFault x b.b else none,
      if vOn x b then vFault x b.v else none,
      mFault x b.m,
      if xOn x b then xFault x b.x else none ]

/-- Add a landing entry to a core. -/
def CoreSt.later (c : CoreSt) (due : Nat) (w : LandKind) : CoreSt :=
  { c with landing := c.landing ++ [{ due := due, what := w, epoch := c.epoch }] }

/-- A store of the core: inside the cluster it lands after its latency, row by row (R53, R130); outside it leaves (R152). -/
def State.doStore (s : State) (x : IssueCtx) (addr : Nat) (data mask : List Byte) (own other : Nat) : State :=
  match memTarget x addr data.length with
  | some (.inside core off) =>
    let due := x.t + (Target.inside core off).latency x.k own other
    s.updCore x.k (fun c => (cutRows 3 off data mask).foldl (fun c e => c.later due (.store core e.1 e.2.1 e.2.2)) c)
  | some _ => s.storeOut x.k x.h addr data mask x.c.pc
  | none => s

/-- A load of the core: inside the cluster its data, read in the issue cycle, lands after its latency (R129); outside it holds
the next bundle (R55). -/
def State.doLoad (s : State) (x : IssueCtx) (addr n : Nat) (d : ReadDest) (volatile : Bool) (own other : Nat) : State :=
  match memTarget x addr n with
  | some (.inside core off) =>
    let bs := (x.st.cl x.k.cl).localRead core off n
    let due := x.t + (Target.inside core off).latency x.k own other
    let s := s.updCore x.k (fun c => match d with
      | .scalar r _ sgn => c.later due (.scalar r (loadScalar bs sgn))
      | .vector r fmt mask => c.later due (.vector r mask (loadVector bs fmt)))
    s.updCl x.k.cl (fun c => { c with readNow := true })
  | some _ =>
    let p := s.part x.h.part
    let r : OutRead := { addr := addr, len := n, dest := d, volatile := volatile, pc := x.c.pc, rev := p.revision,
                         gen := p.generation, epoch := x.c.globalEpoch }
    let r := { r with noFill := (s.cl x.k.cl).fencesNow.any (fun f => fenceCovers f.1 f.2 r) }
    (s.updCore x.k (fun c => { c with wait := c.wait ++ [r] })).sendReads x.k
  | none => s

/-- Effect of the S slot. -/
def State.runS (s : State) (x : IssueCtx) (t : SSlot) : State :=
  match sLanding x t with
  | some (w, l) => s.updCore x.k (fun c => c.later (x.t + l) w)
  | none => s

/-- Effect of the B slot: loads, stores, the link of CALL, HALT (R59, R60). Branches act on the PC. -/
def State.runB (s : State) (x : IssueCtx) (t : BSlot) : State :=
  let op := t.op.toNat
  let n := bBytes op
  if bIsLoad op then s.doLoad x (bAddr x t) n (.scalar t.rd.toNat n (bSigned op)) (op == 0x14) 4 10
  else if bIsStore op then s.doStore x (bAddr x t) (leBytes n (x.c.sreg t.rd.toNat).toNat) [] 4 10
  else if op = 0x05 then s.updCore x.k (fun c => c.later (x.t + 1) (.scalar 31 (BitVec.ofNat 64 (x.c.pc + 3))))
  else if op = 0x18 then s.updCore x.k (fun c => { c with run := .halting })
  else s

/-- Advance a stream's draw counter by 16 and note the draw's cycle (R75, R61). DESIGN CHOICE (log entry 76): D + 16 is there in the issue
cycle, so of a bundle that draws and writes the stream by WRS, the WRS's value, which lands a cycle later, stands. -/
def CoreSt.drew (c : CoreSt) (stream t : Nat) : CoreSt :=
  { c with draws := tabSet c.draws stream (tabGet 0 c.draws stream + 16), lastVrand := some t }

/-- An operation that draws advances its stream (R75, R61). -/
def State.noteDraw (s : State) (x : IssueCtx) (t : VSlot) : State :=
  match vStream t with | some i => s.updCore x.k (fun c => c.drew i x.t) | none => s

/-- Effect of the V slot (R61). -/
def State.runV (s : State) (x : IssueCtx) (t : VSlot) : State :=
  let op := t.op.toNat
  let lanes := predLanes x.c t.pred t.pneg
  let ws := match vStream t with | some i => drawWords x i | none => []
  let s := s.noteDraw x t
  match elemFmtOf t.fmt.toNat with
  | none => s
  | some fmt =>
    if op = 0x20 then s.doLoad x (vAddr x t) (vBytes t) (.vector t.vd.toNat fmt lanes) false 6 12
    else if op = 0x21 then
      let b := storeBytes fmt t.rnd (x.c.vreg t.va.toNat) ws lanes
      if lanes = 0 then s else s.doStore x (vAddr x t) b.1 b.2 6 12
    else if op = 0x09 then s.updCore x.k (fun c => c.later (x.t + 2) (.pred (t.vd.toNat % 8) (vCompare t x.c) lanes))
    else if op = 0x1F then
      s.updCore x.k (fun c => c.later (x.t + 2)
        (.scalar t.sreg.toNat (BitVec.ofNat 64 (vlane (x.c.vreg t.va.toNat) (t.imm.toNat % 64)))))
    else if op = 0x25 then
      s.updCore x.k (fun c => c.later (x.t + 8)
        (.accRow (t.imm.toNat / 64 % 8) (t.imm.toNat % 64) lanes (x.c.vreg t.va.toNat)))
    else
      let r := vCompute t x.c ws
      s.updCore x.k (fun c => c.later (x.t + r.2) (.vector t.vd.toNat lanes r.1))

/-- Effect of the M slot: the MMA starts in an idle unit, or becomes pending (R65). -/
def State.runM (s : State) (x : IssueCtx) (t : MSlot) : State :=
  match mMode t, tileOff (x.c.sreg t.sa.toNat).toNat, tileOff (x.c.sreg t.sb.toNat).toNat with
  | some m, some a, some b =>
    let r : MmaRun := { mode := m, acc := t.acc.toNat, aOff := a, bOff := b, pc := x.c.pc }
    if x.c.mexec.isNone then s.updCl x.k.cl (fun c => c.mmaStart x.k.cl x.k.core r)
    else s.updCore x.k (fun c => { c with mpend := some r })
  | _, _, _ => s

/-- Outstanding reads that a fence covers fill no line (R154). -/
def CoreSt.acquired (c : CoreSt) (start len : Nat) : CoreSt :=
  { c with wait := c.wait.map (fun r => { r with noFill := r.noFill || fenceCovers start len r }) }

/-- The read-cache effect of a fence over a range (R154). -/
def ClusterSt.acquire (c : ClusterSt) (start len : Nat) : ClusterSt :=
  { c with cache := dropLines c.cache start len, fencesNow := c.fencesNow ++ [(start, len)],
           cores := c.cores.map (fun e => (e.1, e.2.acquired start len)) }

/-- FENCE.REL (R152): later writes are of a new epoch. -/
def CoreSt.release (c : CoreSt) : CoreSt := { c with epoch := c.epoch + 1 }

/-- Effect of the X slot (R69). -/
def State.runX (s : State) (x : IssueCtx) (t : XSlot) : State :=
  let op := t.op.toNat
  let sa := (x.c.sreg t.sa.toNat).toNat
  let sb := (x.c.sreg t.sb.toNat).toNat
  let sl := (x.c.sreg t.sl.toNat).toNat
  let q := t.dq.toNat
  let push (e : DmaEntry) : State := s.updCore x.k (fun c => { c with dmaq := tabSet c.dmaq q (tabGet [] c.dmaq q ++ [e]) })
  let base : DmaEntry := { ix := false, src := sa, dst := sb, len := sl, flags := t.flags.toNat, cnt := t.cnt.toNat,
                           pc := x.c.pc, epoch := x.c.epoch, rev := (s.part x.h.part).revision }
  if op = 0x01 then (if sl = 0 then s else push base)
  else if op = 0x02 then push { base with ix := true, src := (tileOff sa).getD 0, dst := 0, len := 0 }
  else if op = 0x09 then s.updCore x.k (fun c => c.later (x.t + 2) (.counter t.cnt.toNat sl))
  else if op = 0x0A then
    s.updCore x.k (fun c => c.later (x.t + 2)
      (.scalar t.sb.toNat (BitVec.ofNat 64 (tabGet 0 (x.st.cl x.k.cl).cnt t.cnt.toNat))))
  else if op = 0x0C then
    let p := s.part x.h.part
    s.sendWrite { id := 0, k := x.k, part := x.h.part, ctx := x.h.ctx, vd := x.h.vd, vc := x.h.vc, rev := p.revision, gen := p.generation, msg := true, addr := sb,
                  data := leBytes 8 sa, cnt := t.cnt.toNat, pc := x.c.pc, epoch := x.c.epoch }
  else if op = 0x10 then s.updCl x.k.cl (fun c => c.acquire sa sl)
  else if op = 0x11 then s.updCore x.k CoreSt.release
  else if op = 0x12 then
    (s.updCl x.k.cl (fun c => c.acquire sa sl)).updCore x.k
      (fun c => { c.release with globalEpoch := c.epoch + 1 })
  else s

/-- The PC and branch state after a bundle (R59): a taken branch acts after its two delay bundles. DESIGN CHOICE (log entry 63): the PC
goes from 2,047 to 0. -/
def CoreSt.nextPc (c : CoreSt) (taken : Option Nat) : CoreSt :=
  let pc := (c.pc + 1) % 2048
  match taken with
  | some t => { c with pc := pc, brRemain := 2, brTarget := t }
  | none =>
    if c.brRemain = 1 then { c with pc := c.brTarget, brRemain := 0, brTarget := 0 }
    else if c.brRemain > 1 then { c with pc := pc, brRemain := c.brRemain - 1 }
    else { c with pc := pc }

/-- The counts of an issued bundle: ISSUED, the cluster-port beats and the next issue cycle. -/
def CoreSt.counted (c : CoreSt) (t beats : Nat) : CoreSt :=
  { c with issued := c.issued + 1, nextFree := t + 1,
           beats := if beats = 0 then c.beats else c.beats.filter (fun e => decide (t < e.1 + 16)) ++ [(t, beats)] }

/-- The effects of a bundle that raises no fault. -/
def applyBundle (x : IssueCtx) (b : Bundle) : State :=
  let s := x.st
  let taken := takenBranch x b
  let s := s.updCore x.k (fun c => (c.nextPc taken).counted x.t (bundleBeats x b))
  let s := if sOn x b then s.runS x b.s else s
  let s := if bOn x b then s.runB x b.b else s
  let s := if vOn x b then s.runV x b.v else s
  let s := if b.m.op = 1 then s.runM x b.m else s
  if xOn x b then s.runX x b.x else s

/-- Issue a bundle: its fault, which leaves every slot without effect, or its effects (R76, R565). -/
def issueBundle (x : IssueCtx) (b : Bundle) : State :=
  match bundleFault x b with
  | some code => x.st.coreFault x.k code x.c.pc
  | none => applyBundle x b

/-- What the slots of a bundle see when core `k` issues in cycle `t`. -/
def State.issueCtx (s : State) (k : CoreId) (h : HostCtx) (t : Nat) : IssueCtx := { k := k, h := h, t := t, st := s, c := s.core k }

/-- Why a bundle is held before issue (R54, R162): not at all, held, or its counter shows ERR. -/
inductive Hold where
  | no | held | lost
  deriving DecidableEq, Repr

/-- The hold of R54: WAIT.CNT below its target, WAIT.DMA on a queue that is not empty, a DMA into a full queue. -/
def holdOf (cl : ClusterSt) (c : CoreSt) (b : Bundle) : Hold :=
  let op := b.x.op.toNat
  if !predOn c b.x.pred b.x.pneg then .no
  else if op = 0x0B then
    let w := tabGet 0 cl.cnt b.x.cnt.toNat
    if cntErr w then .lost
    else if cntCount w < (c.sreg b.x.sl.toNat).toNat % 2 ^ 48 then .held else .no
  else if op = 0x08 then
    (if (natRange 0 16).any (fun q => b.x.imm.getLsbD q && !(tabGet [] c.dmaq q).isEmpty) then .held else .no)
  else if op = 0x01 ∨ op = 0x02 then
    (if (tabGet [] c.dmaq b.x.dq.toNat).length ≥ 16 then .held else .no)
  else .no

/-- The core can issue: its context runs on it, it is not stopped, frozen, or held at a read (R55, R59, R78). -/
def CoreSt.ready (c : CoreSt) : Bool := decide (c.run = .running) && !c.frozen && c.wait.isEmpty

/-- A WAIT.CNT meets ERR (R162): its core stops, and its VD stops as for a domain that is lost (R468). DESIGN CHOICE (log entry 78): no
NOTICE of R470 is posted, since no domain is being lost for it to name. -/
def State.lostCounter (s : State) (k : CoreId) (h : HostCtx) : State :=
  (s.updCore k (fun c => { c with run := .faulted 0x8020 })).vdStop h.part h.vd 0x8020 (fun _ => false) (fun _ _ => false)

/-- Offer a bundle to a core at the cycle its cluster has reached, or the first after it that is no gap cycle (R56): the fault an MMA
left for this boundary (R66), the hold of R54, or issue. What a freeze parked counts from this cycle (R79), and the data of an outside
read is there for the bundle (R55). DESIGN CHOICE (log entry 15): the RESIDUALs count from the first offer of a bundle that R54 then
holds. -/
def State.offer (s : State) (k : CoreId) (h : HostCtx) (b : Bundle) : State :=
  let t := (s.cl k.cl).issueCycle (max (s.cl k.cl).cycle (s.core k).nextFree)
  let s := (s.advance k.cl t).updCore k (fun c => if c.resuming then c.unpark t else c)
  let c := (s.core k).takeArrived
  match c.pendFault with
  | some (code, pc) => s.coreFault k code pc
  | none =>
    match holdOf (s.cl k.cl) c b with
    | .lost => s.lostCounter k h
    | .held => s.updCore k (fun c => { c with held := some b, nextFree := t })
    | .no => issueBundle ((s.updCore k (fun c => { c.takeArrived with held := none })).issueCtx k h t) b

/-- A core issues a bundle: nothing happens where it cannot (log entry 2). -/
def State.issue (s : State) (k : CoreId) (b : Bundle) : State :=
  match (s.cl k.cl).ctx with
  | none => s
  | some h => if (s.core k).ready && (s.core k).held.isNone && !s.clTaped k.cl then s.offer k h b else s

end Sys2Proof.Machine
end

