-- ==== Sys2Proof/Machine/Unravel.lean ====
section
/-! DEFINITION. Weight-stream frames and code tables (R182-R190): the header and check, canonical codes, and the symbol
decoder of an unravel unit. -/

namespace Sys2Proof.Machine

/-- What a valid frame header says (R182, R183, R185). -/
inductive Frame where
  | skip
  | raw (out : Nat) (data : List Byte)
  | coded (width count out : Nat) (table : Nat)
  deriving DecidableEq, Repr

/-- The faults of R194 that a frame can meet. -/
inductive UnravelFault where
  | header | check | table | code | overrun
  deriving DecidableEq, Repr

/-- The condition code of each (R194). -/
def unravelCode : UnravelFault → Nat
  | .header => 0x8420 | .check => 0x8421 | .table => 0x8422 | .code => 0x8423 | .overrun => 0x8424

/-- Effect A (true) writes nothing and abandons the entry; effect B poisons the frame's output (R194). -/
def unravelEffectA : UnravelFault → Bool
  | .header => true | .check => true | _ => false

/-- Symbol width of a coded frame's format (R183). -/
def frameWidth : Nat → Option Nat
  | 3 => some 8 | 4 => some 8 | 5 => some 6 | 6 => some 6 | 7 => some 4 | 8 => some 8 | 9 => some 4 | 10 => some 8
  | _ => none

/-- The FR_COUNT values R183 allows for a symbol width. -/
def frameCountOk (w count : Nat) : Bool :=
  match w with
  | 8 => 1 ≤ count && count ≤ 512
  | 6 => count % 4 == 0 && 4 ≤ count && count ≤ 680
  | 4 => count % 2 == 0 && 2 ≤ count && count ≤ 1024
  | _ => false

/-- The check code of a 256-byte block whose check field lies at `off` (R184). -/
def checkOk (bs : List Byte) (off : Nat) : Bool :=
  crc16 (padTo 256 (patchAt bs off [0#8, 0#8])) == fieldAt bs off 2

/-- Read a frame: the check first, then the header (R182-R185). -/
def frameParse (bs : List Byte) : Except UnravelFault Frame :=
  let kind := fieldAt bs 0 1
  let fmt := fieldAt bs 1 1
  let count := fieldAt bs 2 2
  let out := fieldAt bs 4 4
  let tbl := fieldAt bs 8 5
  if !checkOk bs 0xE then .error .check
  else if fieldAt bs 0xD 1 ≠ 0 then .error .header
  else match kind with
    | 0 => if fmt = 0 ∧ count = 0 ∧ out = 0 ∧ tbl = 0 then .ok .skip else .error .header
    | 1 =>
      (match frameWidth fmt with
       | none => .error .header
       | some w =>
         if frameCountOk w count && decide (tbl < 2 ^ 36) && decide (out + count * w / 8 ≤ 2 ^ 26)
         then .ok (.coded w count out (tbl * 256)) else .error .header)
    | 2 =>
      if fmt = 0 ∧ 1 ≤ count ∧ count ≤ 240 ∧ tbl = 0 ∧ out + count ≤ 2 ^ 26
      then .ok (.raw out ((bs.drop 0x10).take count)) else .error .header
    | _ => .error .header

/-- A code table record's contents (R186). -/
structure CodeTable where
  entries : Nat
  width : Nat
  lens : List Nat
  syms : List Nat
  deriving DecidableEq, Repr

/-- Sum of 2^(15 - LEN) over the entries that have a code: at most 2^15 by R187. -/
def kraft (lens : List Nat) : Nat := lens.foldl (fun a l => if l = 0 then a else a + 2 ^ (15 - l)) 0

/-- The symbols that non-escape entries with a code name. -/
def CodeTable.named (t : CodeTable) : List Nat :=
  ((natRange 0 t.entries).filter (fun e => decide (t.lens.getD e 0 ≠ 0) && !(decide (t.entries = 32) && decide (e = 31)))).map
    (fun e => t.syms.getD e 0)

/-- Read a record and check it under R187. -/
def tableParse (bs : List Byte) : Option CodeTable :=
  let entries := fieldAt bs 4 1
  let width := fieldAt bs 5 1
  let lens := (natRange 0 32).map (fun e => fieldAt bs (0x08 + e) 1)
  let syms := (natRange 0 32).map (fun e => fieldAt bs (0x28 + e) 1)
  let t : CodeTable := ⟨entries, width, lens, syms⟩
  if fieldAt bs 0 4 = 0x4C425455
      ∧ ((width = 4 ∧ entries = 16) ∨ ((width = 6 ∨ width = 8) ∧ entries = 32))
      ∧ checkOk bs 6 = true
      ∧ (lens.all (· ≤ 15)) = true
      ∧ ((lens.drop entries).all (· == 0)) = true ∧ ((syms.drop entries).all (· == 0)) = true
      ∧ zeroAt bs 0x48 184 = true
      ∧ (lens.any (· != 0)) = true
      ∧ kraft lens ≤ 2 ^ 15
      ∧ (t.named.all (· < 2 ^ width)) = true
      ∧ t.named.eraseDups.length = t.named.length
      ∧ (entries = 32 → syms.getD 31 0 = 0)
  then some t else none

/-- Canonical codes (R188): pairs (length, code, entry) for one length, from the running `next`. -/
def codesOfLen (t : CodeTable) (len : Nat) (next : Nat) : Nat → Nat → List (Nat × Nat × Nat) × Nat
  | _, 0 => ([], next)
  | e, n + 1 =>
    if t.lens.getD e 0 = len then
      let r := codesOfLen t len (next + 1) (e + 1) n
      ((len, next, e) :: r.1, r.2)
    else codesOfLen t len next (e + 1) n

/-- Every code of the table, lengths `len`, `len+1`, … for `n` lengths. -/
def codesFrom (t : CodeTable) : Nat → Nat → Nat → List (Nat × Nat × Nat)
  | 0, _, _ => []
  | n + 1, len, next =>
    let r := codesOfLen t len next 0 t.entries
    r.1 ++ codesFrom t n (len + 1) (r.2 * 2)

/-- All canonical codes (R188). -/
def CodeTable.codes (t : CodeTable) : List (Nat × Nat × Nat) := codesFrom t 15 1 0

/-- Payload bit `p` (R189): the payload is held as the number its 240 bytes spell. -/
def payloadBit (payload p : Nat) : Nat := bnat (payload.testBit p)

/-- Read one code from bit `p`: the entry and the next bit position (R189). -/
def readCode (codes : List (Nat × Nat × Nat)) (payload : Nat) : Nat → Nat → Nat → Nat → Except UnravelFault (Nat × Nat)
  | 0, _, _, _ => .error .code
  | fuel + 1, p, c, n =>
    if p = 1920 then .error .overrun
    else
      let c' := c * 2 + payloadBit payload p
      match codes.find? (fun x => x.1 == n + 1 && x.2.1 == c') with
      | some x => .ok (x.2.2, p + 1)
      | none => readCode codes payload fuel (p + 1) c' (n + 1)

/-- Decode `count` symbols from bit `p` (R189). -/
def readSymbols (t : CodeTable) (codes : List (Nat × Nat × Nat)) (payload : Nat) : Nat → Nat → Except UnravelFault (List Nat)
  | 0, _ => .ok []
  | n + 1, p =>
    match readCode codes payload 15 p 0 0 with
    | .error f => .error f
    | .ok (e, p') =>
      if t.entries = 32 ∧ e = 31 then
        (if p' + t.width > 1920 then .error .overrun
         else match readSymbols t codes payload n (p' + t.width) with
           | .error f => .error f
           | .ok rest => .ok ((payload / 2 ^ p') % 2 ^ t.width :: rest))
      else match readSymbols t codes payload n p' with
        | .error f => .error f
        | .ok rest => .ok (t.syms.getD e 0 :: rest)

/-- The output bytes of a coded frame under its table record (R183, R186, R189). -/
def frameDecode (bs record : List Byte) (w count : Nat) : Except UnravelFault (List Byte) :=
  match tableParse record with
  | none => .error .table
  | some t =>
    if t.width ≠ w then .error .table
    else match readSymbols t t.codes (leNat ((bs.drop 0x10).take 240)) count 0 with
      | .error f => .error f
      | .ok syms => .ok (leBytes (count * w / 8) (packElems w syms))

end Sys2Proof.Machine
end

