-- ==== Sys2Proof/Machine/Dma.lean ====
section
/-! DEFINITION. The DMA engines of a core (R70-R74), the unravel units on their way (R180-R195), and the table records they
keep (R192). -/

namespace Sys2Proof.Machine

/-- A fault of a DMA entry (R74, R194): the entry goes, and the core stops at its next bundle boundary; a core that holds its next bundle,
or has none to issue, is at its boundary already. -/
def State.dmaFault (s : State) (k : CoreId) (q i code : Nat) : State :=
  let s := s.updCore k (fun c => c.dropEntry q i)
  let c := s.core k
  if decide (c.run = .running) && c.held.isNone && !c.fzDone then
    s.updCore k (fun c => { c with pendFault := if c.pendFault.isSome then c.pendFault else some (code, c.pc) })
  else s.coreFault k code c.pc

/-- A transaction that a frozen engine has issued and must still complete (R78 step 4): a faulted one that was issued again, one before a
transaction that has gone, or the rest of a row. Transactions are issued in their order. -/
def DmaEntry.open (e : DmaEntry) (t : Nat) : Bool :=
  if (e.faultsOf t).isEmpty then
    !e.isDone t && (e.done ++ e.skipped.map (fun i => 16 * i) ++ e.faulted.map DmaFault.tx).any
      (fun u => decide (t < u) || (e.ix && decide (t / 16 = u / 16)))
  else (e.faultsOf t).any (fun f => f.again)

/-- A core's DMA engines have stopped (R78 step 4). -/
def CoreSt.dmaStill (c : CoreSt) : Bool :=
  c.dmaq.all (fun q => q.2.all (fun e => !e.started || (e.txs c).all (fun t => !e.open t)))

/-- The ranges that the transactions of an entry before `t` are still on their way from and to (R329): of a weight stream, whose frames say
where they go, all that it may write. -/
def DmaEntry.busyRanges (c : CoreSt) (e : DmaEntry) (t : Nat) : List (Nat × Nat) :=
  ((e.txs c).filter (fun u => decide (u < t) && !e.isDone u)).flatMap (fun u =>
    match e.sides c u with
    | some (a, b, n) => if e.isW then [(e.dst, 2 ^ 26)] else [(a, n), (b, n)]
    | none => [])

-- entry start (R70-R74, R181)

/-- Checks of an entry as it starts: `ok` with the number of transactions, or the fault's code. DESIGN CHOICE (log entry 68): an index list
that reaches past the scratchpad, and a base address that names no address, raise ADDRESS_RANGE here, and the entry moves nothing. -/
def startCheck (s : State) (k : CoreId) (h : HostCtx) (e : DmaEntry) : Except Nat Nat :=
  let c := s.core k
  if e.ix then
    let bs := memRead c.scratch e.src 32
    let d := ixDescOf bs
    if anyPoison c.poison e.src 32 then .error 0x8414
    else if e.src % 32 ≠ 0 ∨ !ixDescOk bs then .error 0x8416
    else if (addrOf d.src).isNone ∨ (addrOf d.dst).isNone then .error 0x8412
    else if d.index + 4 * d.count > 0x40000 then .error 0x8412
    else .ok (16 * d.count)
  else
    match addrOf e.src, addrOf e.dst with
    | some a, some b =>
      if e.isW then
        (if e.src % 256 ≠ 0 ∨ e.len % 256 ≠ 0 then .error 0x8416
         else if (s.target k h a e.len).isNone ∨ (s.target k h b 0).isNone then .error 0x8412
         else .ok (e.len / 256))
      else if (s.target k h a e.len).isNone ∨ (s.target k h b e.len).isNone then .error 0x8412
      else .ok (ceilDiv e.len 256)
    | _, _ => .error 0x8412

/-- The first entry of a queue that has not started. -/
def nextStart (l : List DmaEntry) : Option (Nat × DmaEntry) :=
  ((natRange 0 l.length).zip l).find? (fun e => !e.2.started)

/-- Start the next entry of a DMA queue (R71), once no fence holds it (R152). -/
def State.dmaStart (s : State) (k : CoreId) (q : Nat) : State :=
  let c := s.core k
  match (s.cl k.cl).ctx, nextStart (c.dma q) with
  | some h, some (i, e) =>
    if c.frozen || decide (e.epoch > c.released) || s.clTaped k.cl then s
    else
      match startCheck s k h e with
      | .error code => s.dmaFault k q i code
      | .ok n => s.updCore k (fun c => c.updEntry q i (fun e => { e with started := true, total := n, rev := (s.part h.part).revision }))
  | _, _ => s

-- moving bytes

/-- What became of a write within one row: performed, held by something that must go first, a translation fault, or a fault's code. -/
inductive DmaAns where
  | ok
  | stall
  | xlate (e : XErr) (va : Nat)
  | fault (code : Nat)
  deriving DecidableEq, Repr

/-- A part of a write whose translation faulted: the fault, the address and the bytes. -/
structure WriteFault where
  err : XErr
  addr : Nat
  data : List Byte
  deriving DecidableEq, Repr

/-- What became of a transaction's write: performed but for the rows whose translation faulted, held, or a fault's code. -/
inductive WriteEnd where
  | ok (faults : List WriteFault)
  | stall
  | fault (code : Nat)
  deriving DecidableEq, Repr

/-- An access that must wait leaves the state as it was, but for the walks and back-invalidations it asked for (R332, R322) and the bytes that
moved for it. -/
def State.waited (s t : State) : State :=
  { s with freeCtr := t.freeCtr, walkers := t.walkers, regulators := t.regulators,
           channels := t.channels.map (fun e =>
             (e.1, { tabGet ({} : ChannelSt) s.channels e.1 with bisnp := e.2.bisnp, bisnpData := e.2.bisnpData })) }

/-- The cluster whose counter a counted write to an address adds to (R160). -/
def State.countCluster (s : State) (k : CoreId) (h : HostCtx) (rev addr : Nat) : Nat :=
  match addrOf addr with
  | some (.wa vc _ _) =>
    (match (s.waAnswer h.part h.vd rev vc).again (s.waAnswer h.part h.vd (s.part h.part).revision vc) with
     | .serve cl _ => cl
     | _ => k.cl)
  | _ => k.cl

/-- A counted arrival on its way (R159). -/
def State.addCount (s : State) (cl cnt n : Nat) : State := { s with counts := s.counts ++ [{ cl := cl, cnt := cnt, amount := n }] }

/-- Write a channel range for a DMA engine: a line the host may hold is back-invalidated first (R322). -/
def State.dmaChannel (s : State) (k : CoreId) (h : HostCtx) (ch off : Nat) (data : List Byte) (poison : Bool) : State × DmaAns :=
  let held := (s.chan ch).heldLines off data.length
  if held.isEmpty then ((s.writeLoc (.chan ch off) data [] poison).accServed k.cl h.part h.ctx h.vd (.chan ch off) true data.length, .ok)
  else (s.updChan ch (fun c => { c with bisnp := held.foldl addOnce c.bisnp }), .stall)

/-- Write within one row for a DMA engine (R70, R174), under a revision (R254). `busy` is as for a read (R329). -/
def State.dmaPutRow (s : State) (k : CoreId) (h : HostCtx) (rev addr : Nat) (data : List Byte) (poison : Bool) (busy : List (Nat × Nat)) :
    State × DmaAns :=
  match addrOf addr with
  | none => (s, .fault 0x8412)
  | some a =>
    match s.target k h a data.length, a with
    | none, _ => (s, .fault 0x8412)
    | some (.inside core off), .scratch _ | some (.inside core off), .cmem _ =>
      (s.updCl k.cl (fun c => c.fabricLands k.cl core off data [] poison), .ok)
    | _, _ =>
      match s.rowAt k h rev addr true with
      | (s, .cell cl core off) =>
        ((s.updCl cl (fun c => c.fabricLands cl core off data [] poison)).accServedTo k.cl h.part h.ctx h.vd cl true data.length, .ok)
      | (s, .loc l t) =>
        if ioWaits t addr busy then (s, .stall)
        else
          match l with
          | .chan ch off => s.dmaChannel k h ch off data poison
          | l => ((s.writeLoc l data [] poison).accServed k.cl h.part h.ctx h.vd l true data.length, .ok)
      | (s, .xlate e va) => (s, .xlate e va)
      | (s, .fault code) => (s, .fault code)
      | (s, .wait) => (s, .stall)

/-- Write within one row, and update a present line of the read cache (R146), behind a store whose bytes a cached read of the row has
returned (R147). -/
def State.dmaWriteRow (s : State) (k : CoreId) (h : HostCtx) (rev addr : Nat) (data : List Byte) (poison : Bool) (busy : List (Nat × Nat)) :
    State × DmaAns :=
  match if s.seenWaits k.cl (lineTag addr) then (s, .stall) else s.dmaPutRow k h rev addr data poison busy with
  | (s, .ok) => (s.updCl k.cl (fun c => { c with cache := updateLine c.cache addr data [] poison }), .ok)
  | r => r

/-- Write a range row by row: a row whose translation faults is left out. -/
def dmaWrite (k : CoreId) (h : HostCtx) (rev : Nat) (poison : Bool) (busy : List (Nat × Nat)) : Nat → Nat → List Byte → State → State × WriteEnd
  | 0, _, _, s => (s, .ok [])
  | fuel + 1, addr, bs, s =>
    if bs.isEmpty then (s, .ok [])
    else
      let m := min bs.length (256 - addr % 256)
      let rest (fs : List WriteFault) (s : State) : State × WriteEnd :=
        match dmaWrite k h rev poison busy fuel (addr + m) (bs.drop m) s with
        | (s, .ok gs) => (s, .ok (fs ++ gs))
        | r => r
      match s.dmaWriteRow k h rev addr (bs.take m) poison busy with
      | (s, .ok) => rest [] s
      | (s, .xlate e _) => rest [{ err := e, addr := addr, data := bs.take m }] s
      | (s, .stall) => (s, .stall)
      | (s, .fault code) => (s, .fault code)

/-- Read a range for a DMA engine, inside the cluster or through the fabric (R144, R151). -/
def State.dmaRead (s : State) (k : CoreId) (h : HostCtx) (rev addr n : Nat) (volatile : Bool) (busy : List (Nat × Nat)) (ecc : Nat) :
    State × ReadAns :=
  match addrOf addr with
  | none => (s, .fault 0x8412)
  | some a =>
    match s.target k h a n, a with
    | none, _ => (s, .fault 0x8412)
    | some (.inside core off), .scratch _ | some (.inside core off), .cmem _ =>
      (s.updCl k.cl (fun c => { c with readNow := true }),
        .data ((s.cl k.cl).localRead core off n) ((s.cl k.cl).localPoison core off n))
    | _, _ => readRows k h rev volatile (h.rcache.testBit 7) busy 3 ecc addr n s

/-- Find the started entry and its own transaction number behind transaction `tx` of a queue: the transactions of the started
entries, oldest first. -/
def findTx : List DmaEntry → Nat → Nat → Option (Nat × DmaEntry × Nat)
  | [], _, _ => none
  | e :: t, i, tx =>
    if !e.started then none
    else if tx < e.total then some (i, e, tx)
    else findTx t (i + 1) (tx - e.total)

/-- Every transaction of an entry is complete: rows skipped or shorter than 4,096 bytes need fewer. -/
def entryDone (c : CoreSt) (e : DmaEntry) : Bool :=
  e.faulted.isEmpty && (if e.ix then (e.txs c).all e.isDone else decide (e.done.length ≥ e.total))

/-- Note a completed transaction; when it is the last, the entry is complete (R71), and P counts the transfer (R70). -/
def State.txDone (s : State) (k : CoreId) (h : HostCtx) (q i : Nat) (dst : Nat) : State :=
  let c := s.core k
  match (c.dma q)[i]? with
  | none => s
  | some e =>
    if entryDone c e then
      let s := s.updCore k (fun c => c.dropEntry q i)
      if e.isP && !e.ix then s.addCount (s.countCluster k h (s.part h.part).revision dst) e.cnt 1 else s
    else s

/-- A transaction is complete: a row of DMA.IX counts one packet under P when its last chunk is in (R73). Transactions that follow
enter the mesh no earlier than now. -/
def State.txComplete (s : State) (k : CoreId) (h : HostCtx) (q i tx dst : Nat) : State :=
  let now := (s.part h.part).revision
  let s := s.updCore k (fun c => c.updEntry q i (fun e => { e with done := addOnce e.done tx, rev := now }))
  let c := s.core k
  match (c.dma q)[i]? with
  | none => s
  | some e =>
    let row := natRange (16 * (tx / 16)) (rowChunks (entryDesc c e))
    let s := if e.ix && e.isP && row.all (fun t => e.isDone t && (e.faultsOf t).isEmpty) then s.addCount (s.countCluster k h now dst) e.cnt 1 else s
    s.txDone k h q i e.dst

/-- The faulted parts of a transaction's write wait for the answer, each with its bytes (R338, R427). -/
def State.txFaults (s : State) (k : CoreId) (h : HostCtx) (q i tx : Nat) (poison : Bool) (fs : List WriteFault) : State :=
  fs.foldl (fun s f =>
    let b := s.faultSerial h.part h.ctx
    (s.updCore k (fun c => c.updEntry q i (fun e => { e with faulted := e.faulted ++
      [{ tx := tx, onWrite := true, addr := f.addr, dst := f.addr, n := f.data.length, data := f.data, poison := poison, batch := b }] }))).recordFault
      h.part h.ctx (mkFault f.err (f.addr % 2 ^ 57) h.ctx h.vc k.core 1)) s

/-- A transaction's data is delivered: written, and counted under C (R73, R160). An error is the state in which it met what it must wait for. -/
def State.txDeliver (s : State) (k : CoreId) (h : HostCtx) (rev q i tx : Nat) (e : DmaEntry) (dst : Nat) (bs : List Byte)
    (poison : Bool) (busy : List (Nat × Nat)) : Except State State :=
  match dmaWrite k h rev poison busy (bs.length / 256 + 2) dst bs s with
  | (s, .stall) => .error s
  | (s, .fault code) => .ok (s.dmaFault k q i code)
  | (s, .ok fs) =>
    let n := bs.length - fs.foldl (fun a f => a + f.data.length) 0
    let s := if e.isC && decide (0 < n) then s.addCount (s.countCluster k h rev dst) e.cnt n else s
    let s := s.txFaults k h q i tx poison fs
    .ok (match ((s.core k).dma q)[i]? with
      | some e => if (e.faultsOf tx).isEmpty then s.txComplete k h q i tx dst else s
      | none => s)

/-- The revision under which a transaction entered the mesh (R254): of the time since the entry's last transaction was complete, a free
choice. -/
def State.txRev (s : State) (h : HostCtx) (e : DmaEntry) : Nat × State :=
  let r := s.fresh
  (if r.1 % 2 = 1 then e.rev else (s.part h.part).revision, r.2)

/-- A transaction whose read's translation faulted waits for the answer (R338). -/
def State.txReadFaults (s : State) (k : CoreId) (h : HostCtx) (q i tx src dst n va : Nat) (x : XErr) : State :=
  let b := s.faultSerial h.part h.ctx
  (s.updCore k (fun c => c.updEntry q i (fun e => { e with faulted := e.faulted ++
    [{ tx := tx, onWrite := false, addr := src, dst := dst, n := n, batch := b }] }))).recordFault h.part h.ctx
    (mkFault x va h.ctx h.vc k.core 1)

/-- The tracker entries that a transaction and those issued before it still need are free (R179). -/
def State.txRoom (s : State) (k : CoreId) (e : DmaEntry) (tx : Nat) : Bool :=
  let n := e.needs (s.core k) tx
  decide (n = 0) || s.trackRoom k.cl n

/-- What the read and the write of a transaction cross. -/
def State.txCrossings (s : State) (k : CoreId) (h : HostCtx) (src dst : Nat) : List Crossing :=
  s.accCrossings k.cl h.part h.ctx h.vd src false ++ s.accCrossings k.cl h.part h.ctx h.vd dst true

/-- Tension holds or paces a transaction of an entry that is still to enter the mesh (R454): the state after the chance it had, and whether it
goes. -/
def State.txGate (s : State) (k : CoreId) (h : HostCtx) (e : DmaEntry) (tx src dst : Nat) : State × Bool :=
  if e.inFlight tx then (s, true)
  else s.tensionGate (clSource k.cl) h.part (s.ctx h.part h.ctx).label (s.txCrossings k h src dst)

/-- One transaction from a source to a destination (R71): an uncorrectable read delivers poisoned data and is reported (R173, R174). -/
def State.txMove (s : State) (k : CoreId) (h : HostCtx) (q i tx : Nat) (e : DmaEntry) (src dst n : Nat) (o : Arrival) : State :=
  if s.vaWaits h.part h.ctx k.cl src n false || s.vaWaits h.part h.ctx k.cl dst n true || !s.txRoom k e tx then s
  else
    match s.txGate k h e tx src dst with
    | (s, false) => s
    | (s, true) =>
      let busy := e.busyRanges (s.core k) tx
      let (rev, t) := s.txRev h e
      match t.dmaRead k h rev src n e.isV busy o.ecc with
      | (t, .data bs p) =>
        (match t.txDeliver k h rev q i tx e dst bs (p || decide (o = .poisoned)) busy with
         | .ok u => u.postReports
         | .error u => s.waited u)
      | (t, .fault code) => t.dmaFault k q i code
      | (t, .xlate x va) => t.txReadFaults k h q i tx src dst n va x
      | (t, .wait) => s.waited t

/-- A faulted part of a transaction that was issued again (R338): a read and its write, or the write of the bytes it kept. -/
def State.txAgain (s : State) (k : CoreId) (h : HostCtx) (q i : Nat) (e : DmaEntry) (f : DmaFault) (o : Arrival) : State :=
  let t := s.updCore k (fun c => c.updEntry q i (fun e => { e with faulted := e.faulted.erase f }))
  let e := { e with faulted := e.faulted.erase f }
  if f.onWrite then
    match t.txDeliver k h (s.part h.part).revision q i f.tx e f.addr f.data f.poison (e.busyRanges (t.core k) f.tx) with
    | .ok u => u
    | .error u => s.waited u
  else
    let u := t.txMove k h q i f.tx e f.addr f.dst f.n o
    let waits := match ((u.core k).dma q)[i]? with
      | some x => decide (((u.core k).dma q).length = ((s.core k).dma q).length) && !x.isDone f.tx && (x.faultsOf f.tx).isEmpty
      | none => false
    if waits then s.waited u else u

/-- An access of a transaction to host memory that the host answers with an error (R343): an access fault of its VA. -/
def State.txDenied (s : State) (k : CoreId) (h : HostCtx) (q i tx : Nat) (e : DmaEntry) (src dst n : Nat) : State :=
  if src / 2 ^ 60 = 8 then s.txReadFaults k h q i tx src dst n (src % 2 ^ 57) ⟨5, 0, 0, 0x8803⟩
  else if dst / 2 ^ 60 = 8 then
    match s.dmaRead k h (s.part h.part).revision src n e.isV [] 0 with
    | (t, .data bs p) => t.txFaults k h q i tx p [{ err := ⟨7, 0, 0, 0x8803⟩, addr := dst, data := bs }]
    | (t, _) => s.waited t
  else s.dmaFault k q i 0x8803

/-- The fault of a list position of DMA.IX (R74): its index lies in a poisoned row, or resolves outside the VD or the target memory
for any byte of its row. -/
def State.ixFault (s : State) (k : CoreId) (h : HostCtx) (e : DmaEntry) (pos : Nat) : Option Nat :=
  let c := s.core k
  let d := entryDesc c e
  let x := entryIndex c d pos
  let ok (a : Nat) : Bool := match addrOf a with | some b => (s.target k h b d.row).isSome | none => false
  if anyPoison c.poison (d.index + 4 * pos) 4 then some 0x8414
  else if x = 0xFFFFFFFF then none
  else let a := rowAddrs d pos x; if ok a.1 && ok a.2 then none else some 0x8412

/-- A first transaction of list position `pos` finds the first position up to its own that faults (R74): only rows at earlier positions
are delivered. -/
def State.ixStop (s : State) (k : CoreId) (h : HostCtx) (e : DmaEntry) (pos : Nat) : Option Nat :=
  firstFault ((natRange 0 (pos + 1)).map (fun j => if hasNat e.skipped j || hasNat e.done (16 * j) then none else s.ixFault k h e j))

/-- A transaction's read and its acknowledged write (R71), for the entry it belongs to. -/
def State.txRun (s : State) (k : CoreId) (h : HostCtx) (q i tx : Nat) (e : DmaEntry) (o : Arrival) : State :=
  match (if e.ix then s.ixStop k h e (tx / 16) else none), e.sides (s.core k) tx with
  | some code, _ => s.dmaFault k q i code
  | none, none =>
    if e.ix && decide (entryIndex (s.core k) (entryDesc (s.core k) e) (tx / 16) = 0xFFFFFFFF) then
      (s.updCore k (fun c => c.updEntry q i (fun e => { e with skipped := addOnce e.skipped (tx / 16) }))).txDone k h q i e.dst
    else s
  | none, some (src, dst, n) =>
    match o with
    | .error code => if code = 0x8803 then s.txDenied k h q i tx e src dst n else s.dmaFault k q i code.toNat
    | _ => s.txMove k h q i tx e src dst n o

/-- Transaction `tx` of a DMA queue completes its read and its acknowledged write (R71). A weight stream's transactions are its
frames, and FRAME_DECODE completes them. A frozen engine completes what it has issued (R78 step 4), and so does that of
a taped-off cluster, which issues nothing new (R465). -/
def State.dmaTx (s : State) (k : CoreId) (q tx : Nat) (o : Arrival) : State :=
  let c := s.core k
  match (s.cl k.cl).ctx, findTx (c.dma q) 0 tx with
  | some h, some (i, e, tx) =>
    if c.fzDone && !e.open tx || s.clTaped k.cl && !e.inFlight tx then s
    else
      match e.faultsOf tx with
      | [] => if e.isW || e.isDone tx then s else s.txRun k h q i tx e o
      | fs =>
        match fs.find? (fun f => f.again) with
        | some f => s.txAgain k h q i e f o
        | none => s
  | _, _ => s

-- unravel units (R180-R195)

/-- A unit keeps a table record, tagged by partition and PLA, at most 16 of them, the oldest leaving (R192). -/
def keepRecord (l : List (Nat × Nat × List Byte)) (p pla : Nat) (bs : List Byte) : List (Nat × Nat × List Byte) :=
  let l := l.filter (fun r => !(decide (r.1 = p) && decide (r.2.1 = pla))) ++ [(p, pla, bs)]
  l.drop (l.length - 16)

/-- The outcome of the ECC of a table record's read, which no command gives: a free value (R173; log entry 69). -/
def eccOf (f : Nat) : EccOutcome := if f % 4 = 3 then .uncorrectable else if f % 4 = 2 then .corrected else .clean

/-- What became of a table record's read: the record, a read that failed (R194), or one that must wait. -/
inductive RecordAns where
  | got (bs : List Byte)
  | failed
  | wait
  deriving DecidableEq, Repr

/-- Fetch a table record into the unit of a channel with one 256-byte read under a revision (R192), which fails where the place is refused or
its data is poisoned (R194; log entry 69). It is one transaction of the unit's die, which waits where no entry of its pool is free (R179),
and a line of the record that the host may hold modified is read out of the host's caches first (R322). -/
def State.fetchRecord (s : State) (ch p rev pla : Nat) : State × RecordAns :=
  let a := s.plaAnswer p rev pla
  if !s.poolRoom (chDie ch) then (s, .wait)
  else
    let s := s.countAnswer p a
    match a.again (s.plaAnswer p (s.part p).revision pla) with
    | .serve c off =>
      let dirty := (s.chan c).dirtyLines off 256
      if !dirty.isEmpty then (s.updChan c (fun x => { x with bisnpData := dirty.foldl addOnce x.bisnpData }), .wait)
      else
        let (f, s) := s.fresh
        let s := (((s.eccMark (.chan c off) (eccOf f).ecc).eccRead (.chan c off) 256)).postReports
        let r := s.readLoc (.chan c off) 256
        if r.2 then (s, .failed)
        else (s.updChan ch (fun x => { x with records := keepRecord x.records p pla r.1 }), .got r.1)
    | _ => (s, .failed)

/-- The record a unit holds, or fetches on a miss (R192). -/
def State.unitRecord (s : State) (ch p rev pla : Nat) : State × RecordAns :=
  match (s.chan ch).records.find? (fun r => decide (r.1 = p) && decide (r.2.1 = pla)) with
  | some r => (s, .got r.2.2)
  | none => s.fetchRecord ch p rev pla

/-- The UNRAVEL event of R195. -/
def State.postUnravel (s : State) (k : CoreId) (h : HostCtx) (q code pla ch : Nat) : State :=
  s.post h.part { evq := 0, typ := 3, source := chDie ch, code := code, ctx := h.ctx,
                  data := leBytes 5 (pla / 256) ++ zeros 1 ++ leBytes 2 ch ++ leBytes 2 h.vc ++ leBytes 1 k.core
                    ++ leBytes 1 q }

/-- What a frame comes to: nothing, its output, output lost to a fault of effect B, or a fault of effect A (R194). -/
inductive FrameOut where
  | skip
  | write (out : Nat) (bs : List Byte)
  | poison (out n code : Nat)
  | stop (code : Nat)
  deriving DecidableEq, Repr

/-- Decode a frame (R182-R190), its table record at hand. -/
def frameResult (bs : List Byte) (record : Option (List Byte)) : FrameOut :=
  match frameParse bs with
  | .error f => .stop (unravelCode f)
  | .ok .skip => .skip
  | .ok (.raw out d) => .write out d
  | .ok (.coded w n out _) =>
    match record with
    | none => .poison out (n * w / 8) 0x8422
    | some r =>
      match frameDecode bs r w n with
      | .ok o => .write out o
      | .error f => .poison out (n * w / 8) (unravelCode f)

/-- The table record PLA a frame names. -/
def frameTable (bs : List Byte) : Option Nat :=
  match frameParse bs with
  | .ok (.coded _ _ _ t) => some t
  | _ => none

/-- What a frame that was read does (R189, R191, R194): an error is the state in which its output met what it must wait for. The event of
a fault of effect B follows its output. -/
def State.frameEnds (s : State) (k : CoreId) (h : HostCtx) (rev q i tx : Nat) (e : DmaEntry) (pla ch : Nat) (poisoned : Bool) (o : FrameOut) :
    Except State State :=
  let busy := e.busyRanges (s.core k) tx
  -- what leaves the unit's die does so decompressed (R197)
  let out (n : Nat) : State := s.served (clSource k.cl) h.part (s.ctx h.part h.ctx).label (s.edgeCrossings h.part h.vd (chDie ch) (clDie k.cl)) n
  match o with
  | .skip => .ok ((s.updCore k (fun c => c.updEntry q i (fun e => { e with done := addOnce e.done tx }))).txDone k h q i e.dst)
  | .write at_ bs => (out bs.length).txDeliver k h rev q i tx e (e.dst + at_) bs poisoned busy
  | .poison at_ n code =>
    ((out n).txDeliver k h rev q i tx e (e.dst + at_) (zeros n) true busy).map (fun s => s.postUnravel k h q code pla ch)
  | .stop code => .ok ((s.postUnravel k h q code pla ch).dmaFault k q i code)

/-- A frame of a weight stream is read from the channel that holds it, and decoded there (R189, R191, R194). DEDUCED (log entry 69): one whose
read is uncorrectable posts the record of R195 beside that of R173. -/
def State.frameRead (s : State) (k : CoreId) (h : HostCtx) (rev q i tx : Nat) (e : DmaEntry) (pla ch off : Nat) (ecc : EccOutcome) :
    Except State State :=
  let s := ((s.eccMark (.chan ch off) ecc.ecc).eccRead (.chan ch off) 256).postReports
  let s := s.served (clSource k.cl) h.part (s.ctx h.part h.ctx).label [{ reg := stopReg ch }] 256
  let r := s.readLoc (.chan ch off) 256
  if (s.chan ch).uncorrectableAt off 256 then .ok ((s.postUnravel k h q 0x8030 pla ch).dmaFault k q i 0x8030)
  else
    match frameTable r.1 with
    | none => s.frameEnds k h rev q i tx e pla ch r.2 (frameResult r.1 none)
    | some t =>
      match s.unitRecord ch h.part rev t with
      | (s, .wait) => .error s
      | (s, .got bs) => s.frameEnds k h rev q i tx e pla ch r.2 (frameResult r.1 (some bs))
      | (s, .failed) => s.frameEnds k h rev q i tx e pla ch r.2 (frameResult r.1 none)

/-- An unravel unit decodes one frame of a weight stream and writes its output; a frame whose line the host may hold modified, whose
output must wait, that tension holds, or for which no tracker entry is free, waits (R322, R179, R454). -/
def State.frameStep (s : State) (k : CoreId) (q tx : Nat) (ecc : EccOutcome) : State :=
  let c := s.core k
  match (s.cl k.cl).ctx, findTx (c.dma q) 0 tx with
  | some h, some (i, e, tx) =>
    if !e.isW || e.isDone tx || !(e.faultsOf tx).isEmpty || (c.fzDone && !e.open tx) || (s.clTaped k.cl && !e.inFlight tx) || !s.txRoom k e tx then s
    else
      match s.txGate k h e tx (e.src + 256 * tx) e.dst with
      | (s, false) => s
      | (s, true) =>
        let pla := e.src % 2 ^ 44 + 256 * tx
        let (rev, t) := s.txRev h e
        let a := t.plaAnswer h.part rev pla
        let t := t.countAnswer h.part a
        match a.again (t.plaAnswer h.part (s.part h.part).revision pla) with
        | .refuse code => t.dmaFault k q i code
        | .moved => s
        | .serve ch off =>
          let dirty := (s.chan ch).dirtyLines off 256
          if !dirty.isEmpty then s.updChan ch (fun c => { c with bisnpData := dirty.foldl addOnce c.bisnpData })
          else
            match t.frameRead k h rev q i tx e pla ch off ecc with
            | .ok u => u
            | .error u => s.waited u
  | _, _ => s

end Sys2Proof.Machine
end

