-- ==== Sys2Proof/Machine/CoreEvents.lean ====
section
/-! DEFINITION. Events of cores and of the fabric (R51-R60, R71, R78, R129-R167): what each does when it comes; an event whose
occasion is absent changes nothing (log entry 2). -/

namespace Sys2Proof.Machine

/-- INTERLOCK_RELEASE (R54, R161, R162): the held bundle is offered again. -/
def execInterlockRelease (k : CoreId) (s : State) : Host.Outcome State Fault Refusal :=
  match (s.cl k.cl).ctx, (s.core k).held with
  | some h, some b => .next (if (s.core k).ready && !s.clTaped k.cl then s.offer k h b else s)
  | _, _ => .next s

/-- A held read whose translation faulted waits for the answer (R338). -/
def State.readFaults (s : State) (k : CoreId) (h : HostCtx) (r : OutRead) (va : Nat) (e : XErr) : State :=
  let n := s.faultSerial h.part h.ctx
  (s.updCore k (fun c => { c with wait := c.wait.map (fun w => if w = r then { w with faulted := true, batch := n } else w) })).recordFault
    h.part h.ctx (mkFault e va h.ctx h.vc k.core 0)

/-- The oldest outside read of a core ends (R55, R150, R151, R174): its data is there for the next bundle, or it faults, or its
translation fault is recorded and it stays held (R338, R343); or it goes on waiting (R322, R329, R332). -/
def State.readEnds (s : State) (k : CoreId) (h : HostCtx) (r : OutRead) (o : Arrival) : State :=
  match o with
  | .error code =>
    if code = 0x8803 ∧ r.addr / 2 ^ 60 = 8 then s.readFaults k h r (r.addr % 2 ^ 57) ⟨5, 0, 0, 0x8803⟩ else s.coreFault k code.toNat r.pc
  | _ =>
    match readRows k h r.rev r.volatile (!r.noFill) (s.writeRanges k s.nextWrite) 3 o.ecc r.addr r.len s with
    | (t, .wait) => s.waited t
    | (t, .fault code) => t.coreFault k code r.pc
    | (t, .xlate e va) => t.readFaults k h r va e
    | (t, .data bs poison) =>
      let t := t.postReports
      if poison || decide (o = .poisoned) then t.coreFault k 0x8414 r.pc
      else t.updCore k (fun c => deliver { c with wait := c.wait.drop 1 } r.dest bs)

/-- OUTSIDE_READ_ARRIVES (R55): the answer to the core's oldest outside read, once it has been sent: after the writes that a FENCE.GLOBAL
makes it wait for (R156), with a tracker entry for each of its rows (R178). -/
def execOutsideReadArrives (k : CoreId) (o : Arrival) (s : State) : Host.Outcome State Fault Refusal :=
  match (s.cl k.cl).ctx, (s.core k).wait with
  | some h, r :: _ =>
    .next (if !r.sent ∨ r.faulted ∨ s.clTaped k.cl ∨ s.vaWaits h.part h.ctx k.cl r.addr r.len false then s
      else s.readEnds k h r o)
  | _, _ => .next s

/-- RESULT_VISIBLE (R51): the cluster runs to the cycle of the core's next result. -/
def execResultVisible (k : CoreId) (s : State) : Host.Outcome State Fault Refusal :=
  match nextDue (s.core k) isResult with
  | some t => .next (s.advance k.cl t)
  | none => .next s

/-- STORE_LANDS (R53): the cluster runs to the cycle of the core's next store inside the cluster. -/
def execStoreLands (k : CoreId) (s : State) : Host.Outcome State Fault Refusal :=
  match nextDue (s.core k) isStore with
  | some t => .next (s.advance k.cl t)
  | none => .next s

/-- A core that has no bundle left is at a boundary: a fault left for it is raised (R66, R74). -/
def State.boundary (s : State) (k : CoreId) : State :=
  match (s.core k).pendFault with
  | some (code, pc) => s.coreFault k code pc
  | none => s

/-- CORE_STOP (R59): a core that issued HALT stops once its DMA queues are empty. -/
def execCoreStop (k : CoreId) (s : State) : Host.Outcome State Fault Refusal :=
  let c := s.core k
  .next (match c.run, c.pendFault with
    | .halting, some _ | .stopped, some _ => s.boundary k
    | .halting, none => if c.dmaq.all (fun q => q.2.isEmpty) then s.updCore k (fun c => { c with run := .stopped }) else s
    | _, _ => s)

/-- DMA_ENTRY_START (R71, R74). -/
def execDmaEntryStart (k : CoreId) (dq : Fin 16) (s : State) : Host.Outcome State Fault Refusal := .next (s.dmaStart k dq)

/-- DMA_TRANSACTION_COMPLETE (R71, R73, R74). -/
def execDmaTransactionComplete (k : CoreId) (dq : Fin 16) (tx : Nat) (o : Arrival) (s : State) :
    Host.Outcome State Fault Refusal :=
  .next (s.dmaTx k dq tx o)

/-- REMOTE_WRITE_LANDS (R129-R131, R159): a store or MSG to another cluster reaches its row, once its target has served it. -/
def execRemoteWriteLands (id : Nat) (s : State) : Host.Outcome State Fault Refusal :=
  match s.findWrite id with
  | none => .next s
  | some w =>
    match addrOf w.addr with
    | some (.wa _ _ _) =>
      if s.writeReady w && !w.moved then
        .next (match s.requestTarget w with
          | (t, some v) => t.landWa v
          | (t, none) => t)
      else .next s
    | _ => .next s

/-- WRITE_PERFORMED (R148): a store to a PLA or a VA is performed at its point of coherence. -/
def execWritePerformed (id : Nat) (s : State) : Host.Outcome State Fault Refusal :=
  match s.findWrite id with
  | none => .next s
  | some w =>
    match addrOf w.addr with
    | some (.wa _ _ _) => .next s
    | _ =>
      if s.writeReady w && !w.moved then
        .next (match s.requestTarget w with
          | (t, some v) => t.performWrite v
          | (t, none) => t)
      else .next s

/-- COUNTED_ARRIVAL (R158, R159): a count adds to its row counter. -/
def execCountedArrival (n : Nat) (s : State) : Host.Outcome State Fault Refusal :=
  match s.counts[n]? with
  | none => .next s
  | some m =>
    .next (({ s with counts := s.counts.eraseIdx n }).updCl m.cl
      (fun c => { c with cnt := tabSet c.cnt m.cnt (cntAdd (tabGet 0 c.cnt m.cnt) m.amount) }))

/-- Writes of a core that are not of a later epoch than `e` are still outstanding: in the fabric, in a DMA queue, or a store inside the
cluster that has not landed; writes of an earlier run of the core among them. -/
def State.epochBusy (s : State) (k : CoreId) (e : Nat) : Bool :=
  s.writes.any (fun w => decide (w.k = k) && (w.orphan || decide (w.epoch ≤ e)))
    || (s.core k).dmaq.any (fun q => q.2.any (fun d => decide (d.epoch ≤ e)))
    || ((s.core k).landing ++ (s.core k).parked).any (fun l => isStore l.what && decide (l.epoch ≤ e))

/-- FENCE_HELD_WRITES_RELEASE (R152, R156): once every write before the fence is performed, the next writes and reads go. -/
def execFenceHeldWritesRelease (k : CoreId) (s : State) : Host.Outcome State Fault Refusal :=
  let c := s.core k
  .next (if c.released < c.epoch ∧ !s.epochBusy k c.released then
      (s.updCore k (fun c => { c with released := c.released + 1 })).sendHeld k.cl else s)

/-- A write of a context's clusters is no longer on its way: performed, waiting for a translation fault's answer (R338), or held at its
core's port by a fence (R152). -/
def State.writeRests (s : State) (cls : List Nat) (w : FabWrite) : Bool :=
  !hasNat cls w.k.cl || w.faulted || (!w.orphan && !w.sent && decide ((s.core w.k).released < w.epoch))

/-- A freeze of the context is complete in its clusters (R78): cores at their boundaries, matrix units and DMA engines still, every issued
transaction performed or waiting for a translation fault's answer. -/
def State.ctxStill (s : State) (p c : Nat) : Bool :=
  let cls := s.runClusters p c
  s.ctxFrozen p c && cls.all (fun i => (s.cl i).cores.all (fun e => e.2.dmaStill && e.2.wait.all (fun r => r.faulted)))
    && s.writes.all (s.writeRests cls) && s.counts.all (fun m => !hasNat cls m.cl)

/-- A frozen core goes on to its boundary (R78 steps 1 and 2), where a fault left for it is taken; beyond it, its matrix unit runs to
completion (step 3), its counter results land, and a fault that this leaves is reported (R81). -/
def State.freezeCore (s : State) (k : CoreId) : State :=
  let c := s.core k
  if c.stillDone then s
  else if c.fzDone then (s.advance k.cl (c.stillAt (s.cl k.cl).cycle)).boundary k
  else if c.pendFault.isSome then s.boundary k
  else (s.updCl k.cl (fun c => c.freezeCore k.cl k.core)).caughtUp k.cl

/-- A freeze whose last outstanding access is over posts the batch of the faults that arose in it (R339). -/
def State.frozenPost (s : State) (p c : Nat) : State :=
  if (s.ctx p c).frozen && s.ctxStill p c then s.batchPost p c false else s

/-- FREEZE_COMPLETE (R78): a core of a frozen context passes its boundary, or its matrix unit falls idle. When nothing of the context is
outstanding any longer, its translation faults are posted (R339). -/
def execFreezeComplete (k : CoreId) (s : State) : Host.Outcome State Fault Refusal :=
  let c := s.core k
  match (s.cl k.cl).ctx with
  | some h => .next (if c.frozen && c.wait.all (fun r => r.faulted) then (s.freezeCore k).frozenPost h.part h.ctx else s)
  | none => .next s

/-- TARGET_REQUEST (R255): a store or MSG reaches its target stop, which serves it, answers MOVED, or refuses it. -/
def execTargetRequest (id : Nat) (s : State) : Host.Outcome State Fault Refusal :=
  match s.findWrite id with
  | none => .next s
  | some w => .next (if s.writeReady w && !w.moved && !w.served then (s.requestTarget w).1 else s)

/-- MOVED_REISSUE (R256): the source resolves the address again under the current revision. -/
def execMovedReissue (id : Nat) (s : State) : Host.Outcome State Fault Refusal :=
  match s.findWrite id with
  | none => .next s
  | some w => .next (if w.moved then s.updWrite id (fun v => { v with moved := false, rev := (s.part w.part).revision }) else s)

end Sys2Proof.Machine
end

