-- ==== Sys2Proof/Machine/Packets.lean ====
section
/-! DEFINITION. Reading packets from work queues and the control queue (R385-R392), their common checks, and program images
(R85-R88). -/

namespace Sys2Proof.Machine

-- reading a queue

/-- Read a packet of a ring from slot `n`: each slot where it lies, since a packet may wrap (R387). -/
def ringSlots (p c ring entries : Nat) : Nat → Nat → State → State × Except AccErr (List Byte × Bool)
  | 0, _, s => (s, .ok ([], false))
  | k + 1, n, s =>
    match s.agentRead p c (ring + 64 * (n % entries)) 64 with
    | (s, .error e) => (s, .error e)
    | (s, .ok (bs, q)) =>
      match ringSlots p c ring entries k (n + 1) s with
      | (s, .error e) => (s, .error e)
      | (s, .ok (cs, r)) => (s, .ok (bs ++ cs, q || r))

/-- Slots a queue holds. -/
def QueueSt.waitingSlots (q : QueueSt) : Nat := (q.tail + 2 ^ 32 - q.head) % 2 ^ 32

/-- What the device finds at the head of a queue: nothing that can start, a packet, or a read that fails. -/
inductive HeadAns where
  | nothing
  | packet (bs : List Byte) (poison : Bool)
  | fails (e : AccErr)
  deriving DecidableEq, Repr

/-- SLOTS of a packet type (R389); `none` for a type of neither queue. -/
def packetSlots (typ : Nat) : Option Nat :=
  match typ with
  | 1 => some 2 | 2 => some 3 | 3 | 4 | 5 | 6 => some 2 | 7 => some 1 | 8 | 9 | 0x0A | 0x0B | 0x0C => some 2 | 0x0D => some 1
  | 0x10 | 0x11 | 0x12 | 0x13 | 0x14 | 0x15 | 0x16 | 0x17 | 0x18 | 0x19 => some 2
  | _ => none

/-- Slots that a packet takes in its ring, read from its header: those of its type, whatever its SLOTS says; a packet of no defined type
takes SLOTS, at least one (R387-R389, log entry 28). -/
def pkSlots (h : List Byte) : Nat := (packetSlots (fieldAt h 0 1)).getD (max 1 (fieldAt h 1 1))

/-- Read the packet at a queue's HEAD: its header, then, if TAIL covers it, all its slots. Poison comes from the ring's memory or from a
FIFO word that failed its parity (R396). -/
def State.headOf (s : State) (p c : Nat) (q : QueueSt) : State × HeadAns :=
  if !q.enabled || q.stopped || q.cur.isSome || !q.ctl.isEmpty || q.waitingSlots = 0 then (s, .nothing)
  else
    match ringSlots p c q.ring q.entries 1 q.head s with
    | (s, .error e) => (s, .fails e)
    | (s, .ok (h, _)) =>
      let n := pkSlots h
      if n > q.waitingSlots then (s, .nothing)
      else
        match ringSlots p c q.ring q.entries n q.head s with
        | (s, .error e) => (s, .fails e)
        | (s, .ok (bs, poison)) => (s, .packet bs (poison || (s.part p).badPacket))

/-- TYPE. -/
def pkTyp (b : List Byte) : Nat := fieldAt b 0 1
/-- DONE_FENCE. -/
def pkFence (b : List Byte) : Nat := fieldAt b 8 4
/-- A payload field of a packet. -/
def pay (b : List Byte) (off size : Nat) : Nat := fieldAt b (0x40 + off) size
/-- A payload range is zero. -/
def payZero (b : List Byte) (off size : Nat) : Bool := zeroAt b (0x40 + off) size

/-- Header fields that do not apply to the type are zero, and reserved bits are zero (R388, R142). -/
def headerOk (b : List Byte) : Bool :=
  let t := pkTyp b
  let run := t == 1 || t == 2
  let rc := fieldAt b 4 2
  (packetSlots t == some (fieldAt b 1 1)) && zeroAt b 3 1 && zeroAt b 6 2 && zeroAt b 0x30 16
    && (if run then rc / 256 == 0 && !rc.testBit 6 && !rc.testBit 3 && decide (rc % 8 ≤ 4)
        else rc == 0 && zeroAt b 2 1 && zeroAt b 0x18 8)
    && (t == 2 || zeroAt b 0x20 8)

/-- The address forms that a packet may name (R137, R379, R388): a PLA or a VA. -/
def plaOrVa (a : Nat) : Bool :=
  (decide (a / 2 ^ 60 = 1) && bitsAt a 59 44 == 0) || (decide (a / 2 ^ 60 = 8) && bitsAt a 59 57 == 0)

/-- IMAGE and IMAGE_SET of a LAUNCH or GENERATE are PLAs or VAs, IMAGE_SET also 0 for none (R388). -/
def imageFields (b : List Byte) : Bool :=
  let set := fieldAt b 0x20 8
  plaOrVa (fieldAt b 0x18 8) && (set == 0 || plaOrVa set)

/-- A handle field: 0 for none, or a live object of its kind (R390). -/
def State.handleCode (s : State) (p kind h : Nat) : Option Nat :=
  if h = 0 then none else match s.handleIdx p kind h with | .ok _ => none | .error c => some c

/-- The checks every packet meets (R388-R390, R396, R400), before its own. -/
def State.packetCheck (s : State) (p : Nat) (b : List Byte) (poison control : Bool) : Option Nat :=
  let t := pkTyp b
  let kindOk := if control then decide (0x10 ≤ t) else decide (t < 0x10)
  if poison then some 0x8403
  else if (packetSlots t).isNone || !kindOk then some 0x0402
  else if !headerOk b then some 0x0401
  else
    match s.handleCode p 3 (pkFence b) with
    | some c => some c
    | none =>
      match s.handleCode p 4 (fieldAt b 0x0C 4) with
      | some c => some c
      | none => if bitAt (fieldAt b 0x10 8) 63 then some 0x0405 else none

/-- A work packet is refused (R392): its fence takes the code, the queue stops, a record is posted. -/
def State.packetRefuse (s : State) (p c q slot : Nat) (b : List Byte) (code : Nat) : State :=
  (((s.fenceError p (pkFence b) code c).queueStop p c q code slot).packetRecord p c q (pkTyp b) slot (pkFence b) code).stampHead p c q

/-- The context's packets may start: its partition ENABLED, the context LIVE (R284, R393, R414). -/
def State.ctxStarts (s : State) (p c : Nat) : Bool :=
  (s.part p).runs && decide ((s.ctx p c).state = 1)

/-- A LAUNCH or GENERATE of the context is in progress: the next waits for it (R391). -/
def CtxSt.occupied (x : CtxSt) : Bool :=
  x.qs.any (fun q => match q.2.cur with | some r => r.typ == 1 || r.typ == 2 | none => false)

/-- A LAUNCH or GENERATE of another queue of the context reached its head before this queue's (R391): of a queue that may start it. -/
def State.earlierRun (s : State) (p c q : Nat) : Bool :=
  (s.ctx p c).qs.any (fun e => decide (e.1 ≠ q ∧ e.2.headAt < (s.queue p c q).headAt) &&
    match (s.headOf p c e.2).2 with
    | .packet b _ => pkTyp b == 1 || pkTyp b == 2
    | _ => false)

/-- Start the packet at the head of a work queue, if it is of the row (`mine`): the common checks, the packet's own checks (a
refusal's code, or 0 when a translation fault makes the packet wait), then it is in progress and `run` acts. A packet of no
defined type is refused by whichever row comes. -/
def State.startPacket (s : State) (r : QRef) (mine : List Byte → Bool) (check : State → List Byte → State × Option Nat)
    (run : State → List Byte → State) : State :=
  let p := r.part.val; let c := r.ctx.val; let q := r.queue.val
  let x := s.queue p c q
  if !s.ctxStarts p c then s
  else
    match s.headOf p c x with
    | (s, .nothing) => s
    | (s, .fails (.xlate e)) => s.agentFault p c (x.ring + 64 * (x.head % x.entries)) 2 e
    | (s, .fails (.code code)) => (s.queueStop p c q code x.head).packetRecord p c q 0 x.head 0 code
    | (s, .packet b poison) =>
      let t := pkTyp b
      if !mine b && decide (1 ≤ t) && decide (t ≤ 0x0D) then s
      else if (t = 1 ∨ t = 2) ∧ ((s.ctx p c).occupied ∨ s.earlierRun p c q) then s
      else
        let slot := x.head
        let past (s : State) : State :=
          (s.updPart p (fun y => { y with badPacket := false })).updQueue p c q (fun x => { x with head := (x.head + pkSlots b) % 2 ^ 32 })
        match (match s.packetCheck p b poison false with | some k => (s, some k) | none => check s b) with
        | (s, some 0) => s
        | (s, some k) => (past s).packetRefuse p c q slot b k
        | (s, none) =>
          let s := past s
          let order := (s.part p).startOrder
          let s := s.updPart p (fun x => { x with startOrder := order + 1 })
          let cur : PacketRun :=
            { typ := t, slot := slot, bytes := b, doneFence := pkFence b, doneValue := fieldAt b 0x10 8,
              objRef := fieldAt b 0x0C 4, order := order }
          let s := (s.updQueue p c q (fun x => { x with cur := some cur })).wake p c
          let s := match s.handleIdx p 4 (fieldAt b 0x0C 4) with | .ok i => s.memAdd p i 1 | .error _ => s
          run s b

/-- The packet in progress on a queue, if it is of a type and not waiting. -/
def State.runningPacket (s : State) (r : QRef) (typ : Nat) : Option PacketRun :=
  match (s.queue r.part r.ctx r.queue).cur with
  | some x => if x.typ = typ then some x else none
  | none => none

/-- Change the packet in progress. -/
def State.updPacket (s : State) (p c q : Nat) (f : PacketRun → PacketRun) : State :=
  s.updQueue p c q (fun x => { x with cur := x.cur.map f })

-- the control queue

/-- Report a refused control packet (R392): its fence takes the code, a record with QUEUE 0xFF is posted; the queue goes on. -/
def State.controlRefuse (s : State) (p slot : Nat) (b : List Byte) (code : Nat) : State :=
  (s.fenceError p (pkFence b) code 0xFFFF).packetRecord p 0xFFFF 0xFF (pkTyp b) slot (pkFence b) code

/-- The checks of a control packet that come before its own (R389, R390, R396). -/
def State.controlCheck (s : State) (p : Nat) (b : List Byte) (poison : Bool) : Option Nat :=
  let t := pkTyp b
  if poison then some 0x8403
  else if t < 0x10 ∨ t > 0x19 then some 0x0402
  else if (s.part p).dir.isNone ∧ t ≠ 0x10 then some 0x0409
  else if t = 0x10 ∧ pkFence b ≠ 0 then some 0x0401
  else s.packetCheck p b poison true

/-- Add or drop the device's reference on a packet's OBJ_REF (R412). -/
def State.objRefAdd (s : State) (p h : Nat) : State := match s.handleIdx p 4 h with | .ok i => s.memAdd p i 1 | .error _ => s
/-- Drop it. -/
def State.objRefDrop (s : State) (p h : Nat) : State :=
  match s.handleIdx p 4 h with | .ok i => s.memDrop p i 1 0xFFFF | .error _ => s

/-- The control packet in progress completes: its reference is dropped and its fence signalled (R391). -/
def State.controlDone (s : State) (p : Nat) : State :=
  match (s.part p).cq.cur with
  | none => s
  | some r =>
    let s := s.updPart p (fun y => { y with cq := { y.cq with cur := none } })
    (s.objRefDrop p r.objRef).fenceSignal p r.doneFence r.doneValue 0xFFFF

/-- Take the packet at the head of the control queue, if it is of the row: the checks, then its effect, then, where the effect says
that it is applied, its fence (R389, R391). A packet of no control type is refused by whichever row comes. -/
def State.startControl (s : State) (p : Nat) (mine : List Byte → Bool) (check : State → List Byte → Option Nat)
    (run : State → List Byte → State × Bool) : State :=
  let x := (s.part p).cq
  if !(s.part p).runs then s
  else
    match s.headOf p 0 x with
    | (s, .nothing) => s
    | (s, .fails _) => s
    | (s, .packet b poison) =>
      let t := pkTyp b
      if !mine b && decide (0x10 ≤ t) && decide (t ≤ 0x19) then s
      else
        let slot := x.head
        let s := s.updPart p (fun y => { y with badPacket := false, cq := { y.cq with head := (y.cq.head + pkSlots b) % 2 ^ 32 } })
        match (match s.controlCheck p b poison with | some k => some k | none => check s b) with
        | some k => s.controlRefuse p slot b k
        | none =>
          let cur : PacketRun :=
            { typ := t, slot := slot, bytes := b, doneFence := pkFence b, doneValue := fieldAt b 0x10 8, objRef := fieldAt b 0x0C 4 }
          let s := (s.updPart p (fun y => { y with cq := { y.cq with cur := some cur } })).objRefAdd p cur.objRef
          match run s b with
          | (s, true) => s.controlDone p
          | (s, false) => s

-- program images (R85-R88)

/-- Bytes of a segment record. -/
def segRec (img : List Byte) (i : Nat) : List Byte := (img.drop (fieldAt img 0x2C 4 + 16 * i)).take 16
/-- KIND of segment `i`. -/
def segKind (img : List Byte) (i : Nat) : Nat := fieldAt (segRec img i) 12 1
/-- LENGTH of segment `i`. -/
def segLen (img : List Byte) (i : Nat) : Nat := fieldAt (segRec img i) 8 4
/-- The bytes of segment `i`. -/
def segBytes (img : List Byte) (i : Nat) : List Byte := padTo (segLen img i) ((img.drop (fieldAt (segRec img i) 0 8)).take (segLen img i))
/-- Bytes of an entry record. -/
def entryRec (img : List Byte) (i : Nat) : List Byte := (img.drop (fieldAt img 0x28 4 + 16 * i)).take 16

/-- A segment record meets R87 and lies inside the image. -/
def segOk (img : List Byte) (i : Nat) : Bool :=
  let r := segRec img i
  let n := fieldAt r 8 4
  let lim := match segKind img i with
    | 1 => n % 32 == 0 && decide (n ≤ 0x10000)
    | 2 => decide (n ≤ 0x40000)
    | 3 => decide (n ≤ 0x400000)
    | _ => false
  lim && zeroAt r 13 3 && decide (fieldAt r 0 8 + n ≤ fieldAt img 8 8)

/-- An entry names segments of the right kinds and a first bundle inside its code (R86). -/
def entryOk (img : List Byte) (i : Nat) : Bool :=
  let r := entryRec img i
  let n := fieldAt img 0x16 2
  let seg (off kind : Nat) : Bool := fieldAt r off 2 == 0xFFFF || (decide (fieldAt r off 2 < n) && segKind img (fieldAt r off 2) == kind)
  decide (fieldAt r 0 2 ≤ fieldAt r 2 2) && decide (fieldAt r 2 2 < fieldAt img 0x10 4)
    && decide (fieldAt r 8 2 < n) && segKind img (fieldAt r 8 2) == 1
    && decide (32 * fieldAt r 10 2 < segLen img (fieldAt r 8 2)) && seg 12 2 && seg 14 3

/-- The cores an image starts: virtual cluster, core, ENTRY_PC. -/
def imageCores (img : List Byte) : List (Nat × Nat × Nat) :=
  (natRange 0 (fieldAt img 0x14 2)).flatMap (fun i =>
    let r := entryRec img i
    (natRange (fieldAt r 0 2) (fieldAt r 2 2 + 1 - fieldAt r 0 2)).flatMap (fun vc =>
      ((natRange 0 32).filter (fun k => (fieldAt r 4 4).testBit k)).map (fun k => (vc, k, fieldAt r 10 2))))

/-- Two elements of a list are equal. -/
def dupNat : List Nat → Bool
  | [] => false
  | x :: t => hasNat t x || dupNat t

/-- The CMEM_SEG numbers that entries give a virtual cluster. -/
def cmemSegs (img : List Byte) (vc : Nat) : List Nat :=
  ((natRange 0 (fieldAt img 0x14 2)).filter (fun i =>
    let r := entryRec img i
    decide (fieldAt r 0 2 ≤ vc) && decide (vc ≤ fieldAt r 2 2) && fieldAt r 14 2 != 0xFFFF)).map (fun i => fieldAt (entryRec img i) 14 2)

/-- The header meets R85. -/
def imageHeaderOk (img : List Byte) : Bool :=
  let size := fieldAt img 8 8
  fieldAt img 0 4 == 0x32474D49 && fieldAt img 4 2 == 1 && fieldAt img 6 2 == 0x80 && decide (0x80 ≤ size)
    && decide (1 ≤ fieldAt img 0x10 4) && decide (fieldAt img 0x10 4 ≤ 192)
    && decide (1 ≤ fieldAt img 0x14 2) && decide (fieldAt img 0x14 2 ≤ 4096)
    && decide (1 ≤ fieldAt img 0x16 2) && decide (fieldAt img 0x16 2 ≤ 8192)
    && decide (fieldAt img 0x24 2 < 2048) && decide (fieldAt img 0x26 2 < 8)
    && fieldAt img 0x28 4 % 16 == 0 && fieldAt img 0x2C 4 % 16 == 0
    && decide (fieldAt img 0x28 4 + 16 * fieldAt img 0x14 2 ≤ size) && decide (fieldAt img 0x2C 4 + 16 * fieldAt img 0x16 2 ≤ size)
    && zeroAt img 0x30 16 && zeroAt img 0x60 32

/-- IMAGE_INVALID of R88. -/
def imageValid (img : List Byte) (step : Bool) : Bool :=
  imageHeaderOk img
    && (natRange 0 (fieldAt img 0x16 2)).all (segOk img)
    && (natRange 0 (fieldAt img 0x14 2)).all (entryOk img)
    && sha256 (patchAt img 0x40 (zeros 32)) == (img.drop 0x40).take 32
    && !dupNat ((imageCores img).map (fun e => 32 * e.1 + e.2.1))
    && (natRange 0 (fieldAt img 0x10 4)).all (fun vc => match cmemSegs img vc with
        | [] => true | x :: t => t.all (fun y => y == x))
    && (fieldAt img 0x26 2).testBit 2 == step

/-- Read a program image: its header gives its size. -/
def State.readImage (s : State) (p c addr : Nat) : State × Except AccErr (List Byte × Bool) :=
  match s.agentRead p c addr 0x80 with
  | (s, .error e) => (s, .error e)
  | (s, .ok (h, q)) =>
    if !imageHeaderOk h then (s, .ok (h, q))
    else s.agentRead p c addr (fieldAt h 8 8)

/-- The size of a partition's PLA space, where a rule compares it with a figure (R38). -/
def Pattern.space (pat : Pattern) : Nat := pat.top

/-- IMAGE_SHAPE of R88 for a VD and a read-cache setting. -/
def State.imageShape (s : State) (p vd : Nat) (img : List Byte) (rcache : Nat) : Bool :=
  let pat := (s.part p).pat
  let top := 0x400000 - (rcache % 8) * 0x40000
  decide (fieldAt img 0x10 4 = pat.size vd) && decide (fieldAt img 0x18 8 ≤ pat.space)
    && decide (fieldAt img 0x20 4 ≤ s.linkShareOf pat vd)
    && (natRange 0 (fieldAt img 0x14 2)).all (fun i =>
        let k := fieldAt (entryRec img i) 14 2
        k == 0xFFFF || decide (segLen img k ≤ top))

end Sys2Proof.Machine
end

