-- ==== Sys2Proof/Machine/Launch.lean ====
section
/-! DEFINITION. LAUNCH (R394), the entry of a context onto its clusters (R417-R419), loading a program image (R86-R88, R143),
and the kept draw counters and ISSUED counts (R566). -/

namespace Sys2Proof.Machine

-- loading an image

/-- Set a core to its start (R394, R566): every register zero but the draw counters; `pc` if an entry names it. -/
def startCore (x : CtxSt) (vc core : Nat) (pc : Option Nat) (args : List Nat) (imem : List Byte) (data : List Byte) : CoreSt :=
  let base : CoreSt :=
    { draws := (natRange 0 4).map (fun i => (i, tabGet 0#64 x.draws (4 * keepKey vc core + i))),
      issued := tabGet 0 x.issuedKeep (keepKey vc core) }
  match pc with
  | none => base
  | some pc =>
    { base with pc := pc, sregs := (natRange 1 args.length).zip (args.map (BitVec.ofNat 64)), scratch := memWrite [] 0 data,
                imem := (natRange 0 (imem.length / 32)).map (fun i => (i, BitVec.ofNat 256 (leNat ((imem.drop (32 * i)).take 32)))) }

/-- The code, data and ENTRY_PC that an image gives a core of a virtual cluster. -/
def imageCore (img : List Byte) (vc core : Nat) : Option (Nat × List Byte × List Byte) :=
  ((natRange 0 (fieldAt img 0x14 2)).find? (fun i =>
    let r := entryRec img i
    decide (fieldAt r 0 2 ≤ vc) && decide (vc ≤ fieldAt r 2 2) && (fieldAt r 4 4).testBit core)).map (fun i =>
      let r := entryRec img i
      let d := fieldAt r 12 2
      (fieldAt r 10 2, segBytes img (fieldAt r 8 2), if d = 0xFFFF then [] else segBytes img d))

/-- Load an image into a cluster that a context enters: memories, registers, an empty read cache (R87, R143, R145). The row
counters keep their values. -/
def loadCluster (x : CtxSt) (h : HostCtx) (img : List Byte) (args : List Nat) (run : Bool) (c : ClusterSt) : ClusterSt :=
  let cmem := match cmemSegs img h.vc with | k :: _ => memWrite [] 0 (segBytes img k) | [] => []
  let cores := (natRange 0 32).map (fun k =>
    let e := match imageCore img h.vc k with
      | some (pc, code, data) =>
        let y := startCore x h.vc k (some pc) args code data
        if run then { y with run := .running, nextFree := c.cycle } else { y with nextFree := c.cycle }
      | none => startCore x h.vc k none [] [] []
    (k, e))
  { c with cmem := cmem, poison := [], cache := [], ctx := some h, expired := none, cores := cores, landedNow := [] }

/-- The context as the cluster of virtual index `vc` sees it. -/
def State.hostCtx (s : State) (p c queue vc : Nat) (formats rcache : Nat) : HostCtx :=
  let x := s.ctx p c
  { part := p, ctx := c, queue := queue, vd := x.vd, vc := vc, n := (s.part p).pat.size x.vd, formats := formats,
    rcache := rcache, seed := x.seed }

/-- Load a context's image on every cluster of its VD. LAUNCH starts the cores with its arguments; a GENERATE's cores start at
step 2 of each step (R210). -/
def State.loadImage (s : State) (p c queue : Nat) (r : PacketRun) : State :=
  let x := s.ctx p c
  let cls := (s.part p).pat.clusters x.vd
  let args := (natRange 0 8).map (fun i => pay r.bytes (8 * i) 8)
  let s := (cls.zip (natRange 0 cls.length)).foldl (fun s e =>
    let h := s.hostCtx p c queue e.2 (fieldAt r.image 0x24 2) (fieldAt r.bytes 4 2)
    s.updCl e.1 (fun c => { loadCluster x h r.image (if r.typ = 1 then args else []) (decide (r.typ = 1)) c with ref := max c.ref s.ticks })) s
  let s := s.updPacket p c queue (fun y => { y with image := [] })
  s.updCtx p c (fun x => { x with resident := true, residentVd := cls, sliceFrom := s.ticks, saved := false, frozen := false })

-- LAUNCH

/-- The packet's own checks of LAUNCH and GENERATE that need no payload: the addresses' forms, policy, image (R388, R337, R88). The
image's bytes come with the verdict. -/
def State.imageCheck (s : State) (p c : Nat) (b : List Byte) (step : Bool) : State × Except Nat (List Byte) :=
  let pol := fieldAt b 2 1
  if !imageFields b then (s, .error 0x0401)
  else if 193 ≤ pol ∧ pol ≤ 254 then (s, .error 0x0803)
  else
    match s.readImage p c (fieldAt b 0x18 8) with
    | (s, .error (.xlate e)) => (s.agentFault p c (fieldAt b 0x18 8) 2 e, .error 0)
    | (s, .error (.code k)) => (s, .error k)
    | (s, .ok (img, poison)) =>
      (s, if poison then .error 0x8414
          else if !imageValid img step then .error 0x0410
          else if !s.imageShape p (s.ctx p c).vd img (fieldAt b 4 2) then .error 0x0411
          else .ok img)

/-- A domain the VD uses is down and not yet restored: new work fails with TAPED_OFF (R470). -/
def State.vdDown (s : State) (p vd : Nat) : Bool :=
  s.recov.domains.any (fun r => s.vdAffected r.dom p vd)
    || ((s.part p).pat.clusters vd).any (fun c => (s.clEntry c).isOut)

/-- Unravel units drop every table record of the partition (R192). -/
def State.dropRecords (s : State) (p : Nat) : State :=
  let cut (c : ChannelSt) : ChannelSt := { c with records := c.records.filter (fun r => decide (r.1 ≠ p)) }
  { s with channels := s.channels.map (fun (e : Nat × ChannelSt) => (e.1, cut e.2)) }

/-- A LAUNCH or GENERATE is in progress: table records are dropped, its cores are known, and its context waits for its clusters (R418, R419). -/
def State.launchStart (s : State) (r : QRef) (img : List Byte) : State :=
  let p := r.part.val; let c := r.ctx.val; let q := r.queue.val
  let s := (s.dropRecords p).updPacket p c q (fun x => { x with resident := true, entries := imageCores img, image := img,
                                                                plaMin := fieldAt img 0x18 8, linkMin := fieldAt img 0x20 4,
                                                                forN := (s.part p).pat.size (s.ctx p c).vd })
  if s.vdDown p (s.ctx p c).vd then s.packetFail p c q 0x8012
  else s.updPart p (fun x => { x with runnable := addOnce x.runnable c })

/-- LAUNCH (R388, R391, R394). -/
def execLaunch (q : QRef) (s : State) : Host.Outcome State Fault Refusal :=
  .next (s.startPacket q (fun b => pkTyp b == 1)
    (fun s b => match s.imageCheck q.part q.ctx b false with
      | (s, .error k) => (s, some k)
      | (s, .ok _) => (s, none))
    (fun s b => match s.imageCheck q.part q.ctx b false with
      | (s, .ok img) => s.launchStart q img
      | (s, .error _) => s))

/-- Every named core of a resident context has stopped, with no fault left for its boundary and no MMA under way (R391, R66). -/
def State.runHalted (s : State) (p c : Nat) (r : PacketRun) : Bool :=
  let cls := s.runClusters p c
  (s.ctx p c).resident &&
  r.entries.all (fun e => match cls[e.1]? with
    | some i => let k := (s.cl i).co e.2.1; decide (k.run = .stopped) && k.pendFault.isNone && k.mexec.isNone
    | none => false)

/-- The context's writes are all performed: stores and draw counters inside its clusters landed, fabric writes performed. -/
def State.runQuiet (s : State) (p c : Nat) : Bool :=
  let cls := s.runClusters p c
  s.writes.all (fun w => !hasNat cls w.k.cl || w.orphan) &&
  cls.all (fun i => (s.cl i).cores.all (fun e => e.2.landing.all (fun l =>
    !isStore l.what && (match l.what with | .draw _ _ => false | _ => true))))

/-- LAUNCH_COMPLETE (R391): the packet completes; its draw counters and ISSUED counts are kept (R566). -/
def execLaunchComplete (q : QRef) (s : State) : Host.Outcome State Fault Refusal :=
  let p := q.part.val; let c := q.ctx.val
  match s.runningPacket q 1 with
  | none => .next s
  | some r =>
    .next (if s.runHalted p c r && s.runQuiet p c && !(s.ctx p c).frozen then
        (s.endRun p c (fun _ => true)).packetDone p c q.queue else s)

end Sys2Proof.Machine
end

