-- ==== Sys2Proof/Machine/Sampler.lean ====
section
/-! DEFINITION. The sampler of the token loop: ranking, the distribution of a logit row, draws, and the walk over a slot's drafts
(R212-R221). -/

namespace Sys2Proof.Machine

/-- A logit as the sampler reads it (R213): NaN and the infinities as the largest finite magnitudes. -/
def logitRead (v : Nat) : Nat :=
  if fp32IsNaN v then 0xFF7FFFFF else if v = 0x7F800000 then 0x7F7FFFFF else if v = 0xFF800000 then 0xFF7FFFFF else v

/-- A candidate: token and logit. -/
abbrev Cand := Nat × Nat

/-- `a` ranks above `b`: the higher logit, then the lower token (R213). -/
def ranksAbove (a b : Cand) : Bool :=
  decide (fp32NumKey b.2 < fp32NumKey a.2) || (decide (fp32NumKey a.2 = fp32NumKey b.2) && decide (a.1 < b.1))

/-- Insert a candidate into a ranked list. -/
def insertCand (x : Cand) : List Cand → List Cand
  | [] => [x]
  | y :: t => if ranksAbove x y then x :: y :: t else y :: insertCand x t

/-- The `k` highest-ranked candidates. -/
def topCands (k : Nat) (xs : List Cand) : List Cand := xs.foldl (fun a x => (insertCand x a).take k) []

/-- A row's kept set: tokens and weights in rank order (R214). -/
structure Dist where
  first : Nat
  toks : List (Nat × Nat)
  deriving DecidableEq, Repr

/-- Cumulative sums of weights in rank order (R214). -/
def cumFrom : Nat → List Nat → List Nat
  | _, [] => []
  | a, w :: t => let c := fp32Add .nearestEven a w; c :: cumFrom c t
/-- The cumulative sums of a kept set. -/
def Dist.cums (d : Dist) : List Nat := cumFrom 0 (d.toks.map (fun x => x.2))
/-- `c(m)`. -/
def Dist.total (d : Dist) : Nat := d.cums.getLast?.getD 0

/-- log2(e) in FP32. -/
def log2e : Nat := 0x3FB8AA3B

/-- The distribution of a row from its ranked candidates (R214). -/
def rowDist (cands : List Cand) (temp topP topK : Nat) : Dist :=
  match cands with
  | [] => { first := 0, toks := [] }
  | (t1, l1) :: rest =>
    if fp32Abs temp = 0 ∨ topK = 1 then { first := t1, toks := [(t1, 0x3F800000)] }
    else
      let w (l : Nat) : Nat :=
        specialFn 0x14 (fp32Mul .nearestEven (fp32Div (fp32Sub .nearestEven l l1) temp) log2e)
      let ws := (t1, 0x3F800000) :: rest.map (fun x => (x.1, w x.2))
      let cs := cumFrom 0 (ws.map (fun x => x.2))
      let lim := fp32Mul .nearestEven topP (cs.getLast?.getD 0)
      let m := cs.findIdx (fun c => !fp32Lt c lim)
      { first := t1, toks := ws.take (m + 1) }

/-- A 32-bit word as a number in [0, 1): u × 2^-32 in FP32. -/
def unitOf (u : Nat) : Nat := fp32Of .nearestEven (.fin false u (-32))

/-- A draw (R215): the smallest rank whose cumulative sum exceeds r, or the last; rank 1 of the row where every weight is 0. -/
def Dist.draw (d : Dist) (u : Nat) : Nat :=
  if d.toks.all (fun x => fp32Abs x.2 == 0) then d.first
  else
    let r := fp32Mul .nearestEven (unitOf u) d.total
    match (d.toks.zip d.cums).find? (fun x => fp32Lt r x.2) with
    | some x => x.1.1
    | none => (d.toks.getLast?.map (fun x => x.1)).getD d.first

/-- Q of a draft as the test reads it (R219). -/
def draftQ (q : Nat) : Nat := if fp32IsNaN q || !fp32Lt 0 q || fp32Lt 0x3F800000 q then 0x3F800000 else q

/-- A child is accepted (R219): u × 2^-32 × q < p(t). -/
def Dist.accepts (d : Dist) (t q u : Nat) : Bool :=
  let w := match d.toks.find? (fun x => decide (x.1 = t)) with | some x => x.2 | none => 0
  fp32Lt (fp32Mul .nearestEven (unitOf u) q) (fp32Div w d.total)

/-- After a rejection (R219): w(t) := max(0, w(t) - q × c(m)). -/
def Dist.reject (d : Dist) (t q : Nat) : Dist :=
  { d with toks := d.toks.map (fun x =>
      if x.1 = t then (x.1, fp32Max 0 (fp32Sub .nearestEven x.2 (fp32Mul .nearestEven q d.total))) else x) }

/-- The random word of R216. -/
def samplerWord (seed pos tag node purpose : Nat) : Nat :=
  (philox seed (pos % 2 ^ 32) tag (0x20000000 + node * 256 + purpose) 0).1

/-- A plan row with its place in the plan. -/
abbrev Placed := Nat × PlanRow

/-- What the walk of R219 needs of its slot. -/
structure WalkCtx where
  greedy : Bool
  seed : Nat
  tag : Nat
  plan : List Placed
  dist : Nat → Dist

/-- Test the children of a row in plan order: the first accepted, and the row's distribution then (R219). -/
def testKids (w : WalkCtx) (pos : Nat) (d : Dist) : List Placed → Option Placed × Dist
  | [] => (none, d)
  | k :: t =>
    if w.greedy then (if k.2.token = d.first then (some k, d) else testKids w pos d t)
    else
      let q := draftQ k.2.q
      if d.accepts k.2.token q (samplerWord w.seed (pos + 1) w.tag k.2.node 1) then (some k, d)
      else testKids w pos (d.reject k.2.token q) t

/-- The walk from row `x` (R219): emitted tokens with DRAFTED, and the plan row from which the last token was chosen. -/
def walkRows (w : WalkCtx) : Nat → Placed → List (Nat × Bool) × Nat
  | 0, x => ([], x.1)
  | fuel + 1, x =>
    let kids := w.plan.filter (fun r => decide (r.2.kind = 3) && decide (r.2.parent = x.1))
    match testKids w x.2.position (w.dist x.1) kids with
    | (some k, _) =>
      let r := walkRows w fuel k
      ((k.2.token, true) :: r.1, r.2)
    | (none, d) =>
      let t := if w.greedy then d.first else d.draw (samplerWord w.seed (x.2.position + 1) w.tag x.2.node 2)
      ([(t, false)], x.1)

/-- The stop condition a token meets (R221): the STOP byte, given the last generated tokens with this one, newest last. -/
def stopOf (entry stops : List Byte) (tok generated : Nat) (recent : List Nat) : Option Nat :=
  let eos := fieldAt entry 0x0C 4
  let mask := fieldAt entry 6 2
  let hit (i : Nat) : Bool :=
    let e := (stops.drop (48 * i)).take 48
    let n := fieldAt e 0 1
    mask.testBit i && decide (1 ≤ n) && decide (n ≤ 8) && zeroAt e 1 15 && decide (n ≤ recent.length)
      && ((natRange 0 n).map (fun k => fieldAt e (16 + 4 * k) 4) == recent.drop (recent.length - n))
  if eos ≠ 0xFFFFFFFF ∧ tok = eos then some 1
  else
    match (natRange 0 16).find? hit with
    | some i => some (2 + 16 * i)
    | none => if generated ≥ fieldAt entry 0x24 4 then some 3 else none

end Sys2Proof.Machine
end

