-- ==== Sys2Proof/Machine/Loop.lean ====
section
/-! DEFINITION. GENERATE and its step loop (R200-R227). The leader's step 1 and the start of the cores are one command; the rest of
a step follows when the step program has halted. -/

namespace Sys2Proof.Machine

/-- SEQ_SLOTS. -/
def GenSt.slots (g : GenSt) : Nat := g.fld 4 2
/-- TOKEN_BUDGET. -/
def GenSt.budget (g : GenSt) : Nat := g.fld 0x0C 2
/-- DRAFT_MAX. -/
def GenSt.draftMax (g : GenSt) : Nat := g.fld 0x0A 2
/-- L, the shard length. -/
def GenSt.shardLen (g : GenSt) : Nat := ceilDiv (g.fld 0x10 4) (g.fld 0x16 2)

-- the checks of R201

/-- An address of the payload: PLA or VA, aligned to 64 bytes (R200). -/
def genAddr (a : Nat) : Bool :=
  ((decide (a / 2 ^ 60 = 1) && bitsAt a 59 44 == 0) || (decide (a / 2 ^ 60 = 8) && bitsAt a 59 57 == 0)) && a % 64 == 0

/-- A power of two within bounds. -/
def powTwoIn (v lo hi : Nat) : Bool := decide (lo ≤ v) && decide (v ≤ hi) && decide (2 ^ v.log2 = v)

/-- GEN_PARAM does not apply (R200, R201): `n` is the VD's cluster count, `sampler` bit 0 of IMG_FLAGS. -/
def genParamOk (g : GenSt) (n : Nat) (sampler : Bool) : Bool :=
  let f := g.fld
  let first := f 0x14 2; let s := f 0x16 2
  f 0 4 == 1 && decide (1 ≤ f 4 2) && decide (f 4 2 ≤ 512) && decide (1 ≤ f 6 2) && decide (f 6 2 ≤ f 4 2)
    && decide (f 8 2 ≤ 2048) && decide (f 0xA 2 ≤ 64) && decide (f 6 2 ≤ f 0xC 2) && decide (f 0xC 2 ≤ 2624)
    && decide (f 0xE 1 ≤ 1) && decide (f 0xF 1 ≤ 1) && decide (2 ≤ f 0x10 4) && decide (f 0x10 4 ≤ 16777216)
    && decide (1 ≤ s) && decide (first + s ≤ n) && decide (g.shardLen ≤ 65536)
    && f 0x18 4 % 256 == 0 && f 0x1C 4 % 256 == 0 && decide (4 * g.shardLen ≤ f 0x1C 4) && f 0x20 4 % 256 == 0
    && (if f 0xA 2 = 0 then f 0x24 4 == 0xFFFFFFFF else f 0x24 4 % 256 == 0)
    && genAddr (f 0x28 8) && (f 0x30 8 == 0 || genAddr (f 0x30 8)) && genAddr (f 0x38 8)
    && powTwoIn (f 0x40 4) 16 16777216 && decide (1 ≤ f 0x44 4) && decide (f 0x44 4 ≤ 65536)
    && genAddr (f 0x48 8) && genAddr (f 0x50 8) && genAddr (f 0x58 8) && zeroAt g.payload 0x64 28 && sampler

/-- The three cluster-memory regions as start and end (R201). -/
def genRegions (g : GenSt) : List (Nat × Nat) :=
  let f := g.fld
  [(f 0x18 4, f 0x18 4 + (f 6 2 + f 0xA 2 + 1) * f 0x1C 4), (f 0x20 4, f 0x20 4 + 64 + 16 * f 0xC 2)]
    ++ (if f 0xA 2 = 0 then [] else [(f 0x24 4, f 0x24 4 + 16 + 16 * 256)])

/-- No two ranges of a list overlap. -/
def rangesApart : List (Nat × Nat) → Bool
  | [] => true
  | r :: t => t.all (fun u => decide (r.2 ≤ u.1) || decide (u.2 ≤ r.1)) && rangesApart t

/-- GEN_SPACE does not apply (R201, R143). -/
def genSpaceOk (g : GenSt) (rcache : Nat) : Bool :=
  (genRegions g).all (fun r => decide (r.2 ≤ 0x400000 - (rcache % 8) * 0x40000)) && rangesApart (genRegions g)

/-- GENERATE (R200, R201, R388, R391): its loop state begins with the packet. -/
def execGenerate (q : QRef) (s : State) : Host.Outcome State Fault Refusal :=
  let p := q.part.val; let c := q.ctx.val
  let gen (b : List Byte) : GenSt := { queue := q.queue, payload := (b.drop 0x40).take 0x80 }
  .next (s.startPacket q (fun b => pkTyp b == 2)
    (fun s b => match s.imageCheck p c b true with
      | (s, .error k) => (s, some k)
      | (s, .ok img) =>
        let g := gen b
        (s, if !genParamOk g ((s.part p).pat.size (s.ctx p c).vd) ((fieldAt img 0x26 2).testBit 0) then some 0x0430
            else if !genSpaceOk g (fieldAt b 4 2) then some 0x0431
            else s.handleCode p 3 (g.fld 0x60 4)))
    (fun s b => match s.imageCheck p c b true with
      | (s, .ok img) => (s.updCtx p c (fun x => { x with genr := some (gen b) })).launchStart q img
      | (s, .error _) => s))

-- reading and writing as the leader

/-- Read for the loop: a fault of the path ends the GENERATE (R227), a translation fault waits for the host. -/
def State.genRead (s : State) (p c addr n : Nat) : State × Option (List Byte) :=
  match s.agentRead p c addr n with
  | (s, .ok (bs, false)) => (s, some bs)
  | (s, .ok (_, true)) => (s.runFail p c 0x8414 (fun _ => true), none)
  | (s, .error (.code k)) => (s.runFail p c k (fun _ => true), none)
  | (s, .error (.xlate e)) => (s.agentFault p c addr 2 e, none)

/-- Write a list of pieces for the loop, in order. -/
def genWrites (p c : Nat) : List (Nat × List Byte) → State → State × Bool
  | [], s => (s, true)
  | (a, bs) :: t, s =>
    match s.agentWrite p c a bs false with
    | (s, .ok _) => genWrites p c t s
    | (s, .error (.code k)) => (s.runFail p c k (fun _ => true), false)
    | (s, .error (.xlate e)) => (s.agentFault p c a 2 e, false)

/-- The same within a step's plan, whose slots and ends so far are `g`: a fault that ends the GENERATE finds them (R221, R223). -/
def State.genReadOf (s : State) (p c : Nat) (g : GenSt) (addr n : Nat) : State × Option (List Byte) :=
  let fail (s : State) (k : Nat) : State := (s.updCtx p c (fun x => { x with genr := some g })).runFail p c k (fun _ => true)
  match s.agentRead p c addr n with
  | (s, .ok (bs, false)) => (s, some bs)
  | (s, .ok (_, true)) => (fail s 0x8414, none)
  | (s, .error (.code k)) => (fail s k, none)
  | (s, .error (.xlate e)) => (s.agentFault p c addr 2 e, none)

/-- Change the loop state of a context. -/
def State.updGen (s : State) (p c : Nat) (f : GenSt → GenSt) : State :=
  s.updCtx p c (fun x => { x with genr := x.genr.map f })

-- sequence entries

/-- An FP32 that is 0 or finite and positive. -/
def fpFinitePos (v : Nat) (zeroOk : Bool) : Bool :=
  if fp32Abs v = 0 then zeroOk && decide (v < 2 ^ 31) else decide (v < 0x7F800000)

/-- A PREFILL entry meets R202. -/
def seqValid (e : List Byte) : Bool :=
  decide (fieldAt e 1 1 ≤ 1) && zeroAt e 3 1 && zeroAt e 0x3E 2
    && decide (1 ≤ fieldAt e 0x18 4) && decide (fieldAt e 0x18 4 ≤ 16777216)
    && decide (1 ≤ fieldAt e 0x24 4) && decide (fieldAt e 0x24 4 ≤ 16777216)
    && seqPos e == 0 && fieldAt e 0x20 4 == 0
    && ((decide (fieldAt e 0x10 8 / 2 ^ 60 = 1) && bitsAt (fieldAt e 0x10 8) 59 44 == 0)
        || (decide (fieldAt e 0x10 8 / 2 ^ 60 = 8) && bitsAt (fieldAt e 0x10 8) 59 57 == 0))
    && decide (fieldAt e 0x28 8 / 2 ^ 60 = 1) && bitsAt (fieldAt e 0x28 8) 59 44 == 0
    && fpFinitePos (fieldAt e 0x34 4) true
    && fpFinitePos (fieldAt e 0x38 4) false && decide (fieldAt e 0x38 4 ≤ 0x3F800000)
    && decide (1 ≤ fieldAt e 0x3C 2) && decide (fieldAt e 0x3C 2 ≤ 256)

/-- End a slot without a token: one record with LAST (R223). What the device keeps of the sequence goes with it. DESIGN CHOICE (log entry 81):
POSITION of a record without a token is the entry's. -/
def GenSt.endSlot (g : GenSt) (i stop reason : Nat) : GenSt :=
  let e := tabGet [] g.seqs i
  { g with seqs := tabSet g.seqs i (seqEnd e stop reason), ended := addOnce g.ended i, seen := dropAll g.seen i,
           recent := tabErase g.recent i,
           records := g.records ++ [outRecord 0xFFFFFFFF (fieldAt e 8 4) (seqPos e) i 2 stop] }

/-- Entries 0 to n-1 of a table's bytes. -/
def tableRows (bs : List Byte) (n w : Nat) : Tab (List Byte) := (natRange 0 n).map (fun i => (i, (bs.drop (w * i)).take w))

/-- Step 1's first part (R204, R222): entries newly seen as PREFILL are validated, cancels and END_NOW applied. -/
def GenSt.admitRows (g : GenSt) (endNow : Bool) : GenSt :=
  (natRange 0 g.slots).foldl (fun g i =>
    let e := tabGet [] g.seqs i
    if !seqActive e then { g with seen := dropAll g.seen i, recent := tabErase g.recent i }
    else
      let new := decide (seqState e = 1) && !hasNat g.seen i
      let g := if new then { g with seen := addOnce g.seen i, recent := tabErase g.recent i } else g
      if new && !seqValid e then g.endSlot i 6 0x0433
      else if endNow || (fieldAt e 1 1).testBit 0 then g.endSlot i 4 0
      else g) g

-- forming the plan (R205-R208)

/-- The last token a slot generated. A DECODE entry the device did not make has none: a free value (R203). -/
def GenSt.lastToken (g : GenSt) (i free : Nat) : Nat := ((tabGet [] g.recent i).getLast?).getD (free % 2 ^ 32)

/-- Decode rows: DECODE slots in rotation, up to DECODE_MAX; a slot past KV_LIMIT ends (R205, R206). DESIGN CHOICE (log entry 81): after a step
without a decode row the rotation starts where the last step that had one left it, and a DECODE slot that its runtime made with POSITION 0
has its row at position 0. -/
def GenSt.decodeRows (g : GenSt) (free : Nat) : GenSt :=
  let order := (natRange g.lastDecode (g.slots - g.lastDecode)) ++ natRange 0 g.lastDecode
  order.foldl (fun g i =>
    let e := tabGet [] g.seqs i
    if seqState e ≠ 2 ∨ g.plan.length ≥ g.fld 6 2 then g
    else if seqPos e - 1 ≥ seqLimit e then g.endSlot i 5 0
    else
      { g with plan := g.plan ++ [{ token := g.lastToken i free, position := seqPos e - 1, slot := i, kind := 1, parent := 0xFFFF,
                                    logitRow := 0xFFFF }],
               lastDecode := (i + 1) % g.slots }) { g with plan := [] }

/-- The plan row of a kept node's parent: the slot's decode row, or the row of the parent node. -/
def draftParent (g : GenSt) (rows : Tab Nat) (d : Draft) : Option Nat :=
  if d.parent = 0 then
    (match g.plan.findIdx? (fun r => decide (r.kind = 1) && decide (r.slot = d.slot)) with | some i => some i | none => none)
  else tabFind rows d.parent

/-- Draft rows (R205, R206, R218); `rows` maps a kept node's index, from 1, to its plan row. -/
def GenSt.draftRows (g : GenSt) : GenSt :=
  let r := ((natRange 1 g.drafts.length).zip g.drafts).foldl (fun (a : GenSt × Tab Nat × Nat) x =>
    let g := a.1
    let d := x.2
    match draftParent g a.2.1 d with
    | none => a
    | some pr =>
      let pos := (g.plan.getD pr { token := 0, position := 0, slot := 0, kind := 0, parent := 0, logitRow := 0 }).position + 1
      if pos ≥ seqLimit (tabGet [] g.seqs d.slot) ∨ a.2.2 ≥ g.draftMax ∨ g.plan.length ≥ g.budget then a
      else
        ({ g with plan := g.plan ++ [{ token := d.token, position := pos, slot := d.slot, kind := 3, parent := pr,
                                       logitRow := 0xFFFF, q := d.q, node := d.node }] },
         tabSet a.2.1 x.1 g.plan.length, a.2.2 + 1)) (g, [], 0)
  r.1

/-- A slot with prompt tokens left: PREFILL, and before the end of its prompt. A slot that its runtime has set back to PREFILL past that
point has none, and holds no other slot up (R203). -/
def GenSt.wantsChunk (g : GenSt) (i : Nat) : Bool :=
  let e := tabGet [] g.seqs i
  seqState e == 1 && decide (seqPos e < fieldAt e 0x18 4)

/-- The slot that receives a chunk (R205): last step's, if it is still PREFILL, else the lowest-numbered one. -/
def GenSt.chunkCand (g : GenSt) : Option Nat :=
  match g.lastChunk with
  | some i => if g.wantsChunk i then some i else (natRange 0 g.slots).find? g.wantsChunk
  | none => (natRange 0 g.slots).find? g.wantsChunk

/-- Choose the chunk's slot, ending those that KV_LIMIT leaves no position (R206). -/
def GenSt.chooseChunk (g : GenSt) : Nat → GenSt × Option Nat
  | 0 => (g, none)
  | fuel + 1 =>
    match g.chunkCand with
    | none => (g, none)
    | some i =>
      let e := tabGet [] g.seqs i
      if seqPos e ≥ seqLimit e then (g.endSlot i 5 0).chooseChunk fuel
      else (g, some i)

/-- Prefill rows of a slot from its prompt tokens (R205). -/
def GenSt.prefillRows (g : GenSt) (i : Nat) (toks : List Nat) : GenSt :=
  let e := tabGet [] g.seqs i
  let rows := (natRange 0 toks.length).zip toks |>.map (fun x =>
    ({ token := x.2, position := seqPos e + x.1, slot := i, kind := 2, parent := 0xFFFF, logitRow := 0xFFFF } : PlanRow))
  { g with plan := g.plan ++ rows, chunkSlot := i, lastChunk := some i }

/-- The plan row takes a logit row (R208): decode, draft, and the row of the prompt's last token. -/
def GenSt.takesLogit (g : GenSt) (r : PlanRow) : Bool :=
  r.kind == 1 || r.kind == 3 || (decide (r.position + 1 = fieldAt (tabGet [] g.seqs r.slot) 0x18 4))

/-- Number the logit rows in plan order (R208). -/
def GenSt.numberLogits (g : GenSt) : GenSt :=
  { g with plan := (g.plan.foldl (fun (a : List PlanRow × Nat) r =>
      if g.takesLogit r then (a.1 ++ [{ r with logitRow := a.2 }], a.2 + 1) else (a.1 ++ [r], a.2)) ([], 0)).1 }

/-- Rows of a kind. -/
def GenSt.kindCount (g : GenSt) (k : Nat) : Nat := (g.plan.filter (fun r => decide (r.kind = k))).length

/-- The bytes of the step plan (R207). -/
def GenSt.planBytes (g : GenSt) : List Byte :=
  let logits := (g.plan.filter (fun r => decide (r.logitRow ≠ 0xFFFF))).length
  leBytes 8 g.step ++ leBytes 2 g.plan.length ++ leBytes 2 (g.kindCount 1) ++ leBytes 2 (g.kindCount 3) ++ leBytes 2 (g.kindCount 2)
    ++ leBytes 2 logits ++ leBytes 2 g.chunkSlot ++ zeros 44
    ++ g.plan.flatMap (fun r => leBytes 4 r.token ++ leBytes 4 r.position ++ leBytes 2 r.slot ++ leBytes 1 r.kind ++ zeros 1
        ++ leBytes 2 r.parent ++ leBytes 2 r.logitRow)

-- step 7 (R224, R225)

/-- Step 7 (R225): records, sequence entries and the head, in that order, then the token fence; the step ends. Without ring space it waits
(R224). -/
def State.genFinish (s : State) (p c : Nat) : State :=
  match (s.ctx p c).genr with
  | none => s
  | some g =>
    match s.genRead p c (g.fld 0x50 8) 8 with
    | (s, none) => s.updGen p c (fun g => { g with ringWait := true })
    | (s, some tb) =>
      let n := g.records.length
      let entries := g.fld 0x40 4
      if leNat tb + entries < g.head + n then
        (s.updGen p c (fun g => { g with ringWait := true })).updPacket p c g.queue (fun r => { r with waiting := true })
      else
        let recs := ((natRange 0 n).zip g.records).map (fun x => (g.fld 0x38 8 + 16 * ((g.head + x.1) % entries), x.2))
        let seqs := (g.seqs.filter (fun e => seqActive e.2 || hasNat g.ended e.1)).flatMap (fun e => entryPieces (g.fld 0x28 8) e.1 e.2)
        match genWrites p c (recs ++ seqs ++ [(g.fld 0x48 8, leBytes 8 (g.head + n))]) s with
        | (s, false) => s.updGen p c (fun g => { g with ringWait := true })
        | (s, true) =>
          let cad := g.fld 0x44 4
          let s := s.updGen p c (fun g =>
            { g with head := g.head + n, records := [], ended := [], ringWait := false, inStep := false, step := g.step + bnat g.inStep,
                     plan := [], chunkSlot := 0xFFFF })
          let s := s.updPacket p c g.queue (fun r => { r with waiting := false })
          if g.head / cad < (g.head + n) / cad ∨ !g.ended.isEmpty then s.fenceSignal p (g.fld 0x60 4) (g.head + n) c else s

-- step 1 and 2

/-- Start a core for a step (R209 step 2, R210). -/
def stepCore (step planOff pc cycle : Nat) (k : CoreSt) : CoreSt :=
  { k with run := .running, pc := pc, brRemain := 0, nextFree := max k.nextFree cycle,
           sregs := tabSet (tabSet k.sregs 1 (BitVec.ofNat 64 step)) 2 (BitVec.ofNat 64 (0x400000 + planOff)) }

/-- Write the plan into every cluster and start the cores (R207, R209, R210). -/
def State.genStart (s : State) (p c : Nat) (g : GenSt) (r : PacketRun) : State :=
  let cls := s.runClusters p c
  let bs := g.planBytes
  let s := cls.foldl (fun s i => s.updCl i (fun k =>
    { k with cmem := memWrite k.cmem (g.fld 0x20 4) bs, poison := poisonAfter k.poison (g.fld 0x20 4) bs.length true false })) s
  let s := r.entries.foldl (fun s e => match cls[e.1]? with
    | some i => s.updCl i (fun k => k.updCo e.2.1 (stepCore g.step (g.fld 0x20 4) e.2.2 k.cycle))
    | none => s) s
  s.updCtx p c (fun x => { x with genr := some { g with inStep := true, drafts := [], keepWait := false } })

/-- The GENERATE ends (R222, R225): its completion fence is signalled, once every write of it is performed. -/
def State.genEnd (s : State) (p c queue : Nat) : State :=
  if s.runQuiet p c then (s.endRun p c (fun _ => true)).packetDone p c queue else s

/-- Form the step's plan and start it; the chunk's prompt tokens are read here (R205-R209). -/
def State.genPlan (s : State) (p c : Nat) (g : GenSt) (r : PacketRun) : State :=
  let (f, s) := s.fresh
  let g := (g.decodeRows f).draftRows
  let room := g.budget - g.plan.length
  let (g, chunk) := if g.fld 8 2 = 0 ∨ room = 0 then ({ g with lastChunk := none }, none) else g.chooseChunk (g.slots + 1)
  match chunk with
  | none => s.genStart p c { g with lastChunk := none }.numberLogits r
  | some i =>
    let e := tabGet [] g.seqs i
    let n := min (min (g.fld 8 2) room) (min (fieldAt e 0x18 4 - seqPos e) (seqLimit e - seqPos e))
    match s.genReadOf p c g (fieldAt e 0x10 8 + 4 * seqPos e) (4 * n) with
    | (s, none) => s
    | (s, some bs) => s.genStart p c (g.prefillRows i ((natRange 0 n).map (fun k => fieldAt bs (4 * k) 4))).numberLogits r

/-- Steps 1 and 2 of the step loop (R209, R222): END and KEEP_ALIVE decide where no slot is active. A step whose own cancels and ends leave
none runs with an empty plan. -/
def State.genStep (s : State) (p c : Nat) : State :=
  match (s.ctx p c).genr, (s.ctx p c).running with
  | some g, some (queue, r) =>
    match (s.updCtx p c (fun x => { x with genrBefore := some g })).genRead p c (g.fld 0x58 8) 8 with
    | (s, none) => s
    | (s, some cb) =>
      match s.genRead p c (g.fld 0x28 8) (64 * g.slots) with
      | (s, none) => s
      | (s, some tb) =>
        let ctl := leNat cb
        let g := { g with seqs := tableRows tb g.slots 64 }.admitRows (ctl.testBit 1)
        if g.seqs.any (fun e => seqActive e.2) || !g.ended.isEmpty then s.genPlan p c g r
        else if (g.fld 0xF 1).testBit 0 && !ctl.testBit 0 then
          (s.updCtx p c (fun x => { x with genr := some { g with keepWait := true } })).updPacket p c queue
            (fun r => { r with waiting := true })
        else s.genEnd p c queue
  | _, _ => s

/-- The loop may take a step: resident, not frozen, with no translation fault waiting, between steps. -/
def State.genReady (s : State) (p c : Nat) : Bool :=
  let x := s.ctx p c
  x.resident && !x.frozen && !s.batchBlocks p c && (match x.genr with | some g => !g.inStep && !g.ringWait | none => false)

/-- GENERATE_STEP_START (R209 steps 1 and 2). -/
def execGenerateStepStart (p : Fin 64) (c : Fin 256) (s : State) : Host.Outcome State Fault Refusal :=
  .next (if s.genReady p c && (match (s.ctx p c).genr with | some g => !g.keepWait | none => false) then s.genStep p c else s)

/-- The cause of a switched-out wait has cleared (R421, R422): the packet waits no longer, and the context is runnable. -/
def State.genWake (s : State) (p c queue : Nat) : State :=
  (s.updPacket p c queue (fun r => { r with waiting := false })).wake p c

/-- A switched-out GENERATE that waits with KEEP_ALIVE reads its table again (R222, R421). -/
def State.keepOut (s : State) (p c : Nat) (g : GenSt) : State :=
  match s.genRead p c (g.fld 0x58 8) 8 with
  | (s, none) => s
  | (s, some cb) =>
    match s.genRead p c (g.fld 0x28 8) (64 * g.slots) with
    | (s, none) => s
    | (s, some tb) =>
      if (leNat cb).testBit 0 || (tableRows tb g.slots 64).any (fun e => seqActive e.2) then
        (s.updGen p c (fun g => { g with keepWait := false })).genWake p c g.queue else s

/-- A switched-out GENERATE that waits for ring space reads the tail again (R224, R421). -/
def State.ringOut (s : State) (p c : Nat) (g : GenSt) : State :=
  match s.genRead p c (g.fld 0x50 8) 8 with
  | (s, none) => s
  | (s, some tb) => if leNat tb + g.fld 0x40 4 < g.head + g.records.length then s else s.genWake p c g.queue

/-- A switched-out context of an ENABLED partition. -/
def State.switchedOut (s : State) (p c : Nat) : Bool :=
  (s.ctx p c).saved && !(s.ctx p c).resident && !hasNat (s.part p).runnable c && (s.part p).runs

/-- KEEP_ALIVE_REREAD (R222): the leader reads the table again; an active slot or END ends the wait. -/
def execKeepAliveReread (p : Fin 64) (c : Fin 256) (s : State) : Host.Outcome State Fault Refusal :=
  match (s.ctx p c).genr with
  | some g =>
    .next (if g.keepWait && s.switchedOut p c then s.keepOut p c g
      else if s.genReady p c && g.keepWait then
        ((s.updGen p c (fun g => { g with keepWait := false })).updPacket p c g.queue (fun r => { r with waiting := false })).genStep p c
      else s)
  | none => .next s

-- steps 4 to 6

/-- The candidates of a logit row: each shard's tokens, ranked, the best K kept (R212, R213). -/
def State.rowCands (s : State) (cls : List Nat) (g : GenSt) (row k : Nat) : List Cand :=
  let l := g.shardLen
  topCands k ((natRange 0 (g.fld 0x16 2)).flatMap (fun t =>
    let cl := cls.getD (g.fld 0x14 2 + t) 0
    let n := min (g.fld 0x10 4) ((t + 1) * l) - t * l
    let bs := memRead (s.cl cl).cmem (g.fld 0x18 4 + row * g.fld 0x1C 4) (4 * n)
    topCands k ((natRange 0 n).map (fun i => (t * l + i, logitRead (fieldAt bs (4 * i) 4))))))

/-- NaN logits that a shard's sampler reads for a row (R213). -/
def shardNans (c : ClusterSt) (g : GenSt) (t row : Nat) : Nat :=
  let l := g.shardLen
  let n := min (g.fld 0x10 4) ((t + 1) * l) - t * l
  let bs := memRead c.cmem (g.fld 0x18 4 + row * g.fld 0x1C 4) (4 * n)
  ((natRange 0 n).filter (fun i => fp32IsNaN (fieldAt bs (4 * i) 4))).length

/-- Count the NaN logits on every shard cluster. -/
def State.countNans (s : State) (cls : List Nat) (g : GenSt) : State :=
  let rows := (g.plan.filter (fun r => decide (r.logitRow ≠ 0xFFFF))).map (fun r => r.logitRow)
  (natRange 0 (g.fld 0x16 2)).foldl (fun s t =>
    s.updCl (cls.getD (g.fld 0x14 2 + t) 0) (fun c =>
      { c with nanLogits := min (rows.foldl (fun a r => a + shardNans c g t r) c.nanLogits) 0xFFFFFFFF })) s

/-- The distribution of a plan row under its slot's parameters (R213, R214). -/
def State.planDist (s : State) (cls : List Nat) (g : GenSt) (i : Nat) : Dist :=
  let r := g.plan.getD i { token := 0, position := 0, slot := 0, kind := 0, parent := 0, logitRow := 0 }
  let e := tabGet [] g.seqs r.slot
  let k := min (fieldAt e 0x3C 2) (g.fld 0x10 4)
  rowDist (s.rowCands cls g r.logitRow k) (fieldAt e 0x34 4) (fieldAt e 0x38 4) k

/-- Emit a slot's tokens until one stops it (R221, R223). -/
def GenSt.emit (g : GenSt) (stops : List Byte) (i : Nat) : List (Nat × Bool) → GenSt
  | [] => g
  | (tok, drafted) :: t =>
    let e := tabGet [] g.seqs i
    let gen := fieldAt e 0x20 4 + 1
    let recent := tabGet [] g.recent i ++ [tok]
    let pos := seqPos e
    let e1 := patchAt e 0x1C (leBytes 4 (pos + 1) ++ leBytes 4 gen)
    let flags := bnat (gen = 1) + 4 * bnat drafted
    match stopOf e1 stops tok gen recent with
    | some st =>
      { g with seqs := tabSet g.seqs i (seqEnd e1 st 0), ended := addOnce g.ended i, seen := dropAll g.seen i,
               recent := tabErase g.recent i,
               records := g.records ++ [outRecord tok (fieldAt e 8 4) pos i (flags + 2) st] }
    | none =>
      { g with seqs := tabSet g.seqs i e1, recent := tabSet g.recent i (recent.drop (recent.length - 7)),
               records := g.records ++ [outRecord tok (fieldAt e 8 4) pos i flags 0] }.emit stops i t

/-- A slot's step 6 from plan row `x` (R219, R221): its tokens emitted, and its final row, while it stays DECODE. -/
def State.slotStep (s : State) (cls : List Nat) (seed : Nat) (stops : List Byte) (g : GenSt) (x : Placed) : GenSt × Option (Nat × Nat) :=
  let e := tabGet [] g.seqs x.2.slot
  let w : WalkCtx := { greedy := g.fld 0xE 1 == 0, seed := seed, tag := fieldAt e 8 4,
                       plan := (natRange 0 g.plan.length).zip g.plan, dist := s.planDist cls g }
  let r := walkRows w (g.plan.length + 1) x
  let g := if x.2.kind = 2 then
      { g with seqs := tabSet g.seqs x.2.slot (patchAt (patchAt e 0 [2#8]) 0x1C (leBytes 4 (x.2.position + 1))) } else g
  let g := g.emit stops x.2.slot r.1
  (g, if seqState (tabGet [] g.seqs x.2.slot) = 2 then some (x.2.slot, r.2) else none)

/-- Positions of a chunk that ends before the prompt does (R205). -/
def GenSt.chunkAdvance (g : GenSt) : GenSt :=
  if g.chunkSlot = 0xFFFF then g
  else
    let e := tabGet [] g.seqs g.chunkSlot
    if seqState e ≠ 1 then g
    else { g with seqs := tabSet g.seqs g.chunkSlot (patchAt e 0x1C (leBytes 4 (seqPos e + g.kindCount 2))) }

/-- A node of the draft table (R217). -/
def draftNode (bs : List Byte) (i : Nat) : List Byte := (bs.drop (16 + 16 * i)).take 16

/-- The draft table meets R217. -/
def draftTableOk (bs : List Byte) : Bool :=
  decide (fieldAt bs 0 2 ≤ 256) && zeroAt bs 2 14 &&
  (natRange 0 (fieldAt bs 0 2)).all (fun i =>
    let n := draftNode bs i
    (fieldAt n 10 1 == 0xFF || decide (fieldAt n 10 1 < i)) && zeroAt n 11 5)

/-- Keep drafts for the next step (R218): `finals` maps a slot still DECODE to its final row. -/
def keepDrafts (bs : List Byte) (finals : List (Nat × Nat)) (most : Nat) : List Draft :=
  ((natRange 0 (fieldAt bs 0 2)).foldl (fun (a : List Draft × Tab Nat) i =>
    let n := draftNode bs i
    match finals.find? (fun f => decide (f.2 = fieldAt n 8 2)) with
    | none => a
    | some f =>
      let par : Option Nat := if fieldAt n 10 1 = 0xFF then some 0 else tabFind a.2 (fieldAt n 10 1)
      match par with
      | none => a
      | some q =>
        if a.1.length ≥ most then a
        else
          let num := (a.1.filter (fun d => decide (d.slot = f.1))).length + 1
          (a.1 ++ [{ slot := f.1, token := fieldAt n 0 4, q := fieldAt n 4 4, parent := q, node := num }],
           tabSet a.2 i (a.1.length + 1))) ([], [])).1

/-- Rows from which a slot's walk starts: its decode row, or its last prefill row if that holds the prompt's last token. -/
def GenSt.walkStarts (g : GenSt) : List Placed :=
  ((natRange 0 g.plan.length).zip g.plan).filter (fun x =>
    x.2.kind == 1 || (x.2.kind == 2 && decide (x.2.logitRow ≠ 0xFFFF)))

/-- Steps 4 to 6, then step 7 (R209). -/
def State.genSample (s : State) (p c : Nat) (g : GenSt) : State :=
  let cls := s.runClusters p c
  let x := s.ctx p c
  let stopsR : State × Option (List Byte) :=
    if g.fld 0x30 8 = 0 then (s, some (zeros 768)) else s.genRead p c (g.fld 0x30 8) 768
  match stopsR with
  | (s, none) => s
  | (s, some stops) =>
    let s := s.countNans cls g
    let r := g.walkStarts.foldl (fun (a : GenSt × List (Nat × Nat)) row =>
      let o := s.slotStep cls x.seed stops a.1 row
      (o.1, match o.2 with | some f => a.2 ++ [f] | none => a.2)) (g, [])
    let g := r.1.chunkAdvance
    let tbl := if g.draftMax = 0 then zeros 16
      else memRead (s.cl (cls.getD (g.fld 0x14 2) 0)).cmem (g.fld 0x24 4) (16 + 16 * 256)
    let ok := draftTableOk tbl
    let g := { g with drafts := if ok then keepDrafts tbl r.2 g.draftMax else [] }
    let s := s.updCtx p c (fun x =>
      { x with genr := some g,
               stats := if ok then x.stats else { x.stats with draftIgnored := satInc32 x.stats.draftIgnored } })
    s.genFinish p c

/-- STEP_PROGRAM_HALTED (R209 steps 3 to 7): every core the image names has halted. -/
def execStepProgramHalted (p : Fin 64) (c : Fin 256) (s : State) : Host.Outcome State Fault Refusal :=
  match (s.ctx p c).genr, (s.ctx p c).running with
  | some g, some (_, r) =>
    .next (if g.inStep && !g.ringWait && !s.batchBlocks p c && s.runHalted p c r then s.genSample p c g else s)
  | _, _ => .next s

/-- RING_TAIL_REREAD (R224): the tail is read again, and step 7 goes on where there is space. -/
def execRingTailReread (p : Fin 64) (c : Fin 256) (s : State) : Host.Outcome State Fault Refusal :=
  match (s.ctx p c).genr with
  | some g =>
    .next (if g.ringWait && s.switchedOut p c then s.ringOut p c g
      else if g.ringWait && (s.ctx p c).resident && !s.batchBlocks p c && !(s.ctx p c).frozen then s.genFinish p c else s)
  | none => .next s

end Sys2Proof.Machine
end

