-- ==== Sys2Proof/Machine/Save.lean ====
section
/-! DEFINITION. The save area of a context (R82-R84, R425-R427): the bytes of core and cluster records, and what a restore takes
from them. -/

namespace Sys2Proof.Machine

-- records

/-- A landing entry's bytes (R83); a draw counter or a row counter has none, and has landed before a save. Which core's scratchpad a store
goes to, and its mask, have no place in the layout (log entry 15). DESIGN CHOICE (log entry 15): the 16 bytes of KINDs 1 and 2 hold the
value, and for KIND 2 the mask of the lanes it writes. -/
def landBytes (res : Nat) (w : LandKind) : List Byte :=
  let head (kind reg row arg : Nat) : List Byte :=
    leBytes 1 kind ++ leBytes 1 reg ++ leBytes 1 row ++ zeros 1 ++ leBytes 4 res ++ leBytes 8 arg
  match w with
  | .scalar r v => head 1 r 0 0 ++ leBytes 8 v.toNat ++ zeros 8
  | .pred r v m => head 2 r 0 0 ++ leBytes 8 v.toNat ++ leBytes 8 m.toNat
  | .vector r m v => head 3 r 0 m.toNat ++ leBytes 256 v.toNat
  | .accTile t ws => head 4 t 0 0 ++ ws.flatMap (leBytes 4)
  | .accRow t row m v => head 5 t row m.toNat ++ leBytes 256 v.toNat
  | .store core off data _ =>
    let n := data.length
    head 6 0 0 ((if core.isNone then 0x400000 else 0) + off + n * 2 ^ 32) ++ padTo (ceilDiv n 16 * 16) data
  | .draw _ _ | .counter _ _ => []

/-- The landing entries of a frozen core in landing order: what it has in flight, and one for each outside read whose translation fault
waits, the youngest of those with RESIDUAL 1 (R338, R427). -/
def CoreSt.allLandings (k : CoreSt) : List Landing :=
  byDue (k.parked ++ k.wait.map (fun r => { due := 1, what := readLands r.dest [] }))

/-- Those entries' bytes (R82, R83). -/
def CoreSt.landings (k : CoreSt) : List (List Byte) := k.allLandings.map (fun e => landBytes e.due e.what)

/-- Where a core's landing entries of faulted reads begin in its record. -/
def CoreSt.readsAt (k : CoreSt) : Nat := (k.parked.filter (fun e => decide (e.due ≤ 1))).length

/-- A transaction that a save treats as complete: its faulted accesses are saved apart (R338). -/
def DmaEntry.gone (e : DmaEntry) (t : Nat) : Bool := e.isDone t || !(e.faultsOf t).isEmpty

/-- Bytes of a plain DMA entry's completed transactions, or positions completed of DMA.IX: those before the first that has not gone. -/
def DmaEntry.doneCount (c : CoreSt) (e : DmaEntry) : Nat :=
  if !e.started then 0
  else
    let n := ((e.txs c).takeWhile e.gone).length
    if e.ix then n / max 1 (rowChunks (entryDesc c e)) else min e.len (256 * n)

/-- A DMA queue entry's bytes (R84). -/
def dmaEntryBytes (c : CoreSt) (e : DmaEntry) : List Byte :=
  let all := if e.ix then (entryDesc c e).count else e.len
  let n := e.doneCount c
  leBytes 8 e.src ++ leBytes 8 (if e.ix then (entryDesc c e).dst else e.dst) ++ leBytes 4 (all - n) ++ leBytes 4 n ++ leBytes 1 (if e.ix then 2 else 1)
    ++ leBytes 1 e.flags ++ leBytes 1 e.cnt ++ zeros 5

/-- A core save record (R82). DESIGN CHOICE (log entry 15): of landing entries that do not fit in LANDING's 43,008 bytes, which takes three
accumulator tiles in flight, the last are cut. -/
def CoreSt.record (k : CoreSt) : List Byte :=
  let lb := k.landings
  leBytes 4 1 ++ leBytes 2 lb.length ++ leBytes 1 k.brRemain ++ leBytes 1 (match k.run with | .faulted _ => 1 | _ => 0)
    ++ leBytes 4 k.pc ++ leBytes 4 k.brTarget ++ (natRange 0 4).flatMap (fun i => leBytes 8 (tabGet 0#64 k.draws i).toNat)
    ++ leBytes 8 k.issued ++ zeros 8
    ++ (natRange 0 32).flatMap (fun i => leBytes 8 (k.sreg i).toNat)
    ++ (natRange 0 8).flatMap (fun i => leBytes 8 (k.preg i).toNat)
    ++ zeros 128
    ++ (natRange 0 64).flatMap (fun i => leBytes 256 (k.vreg i).toNat)
    ++ (natRange 0 32768).flatMap (fun i => leBytes 4 (tabGet 0 k.accs i))
    ++ memRead k.scratch 0 0x40000
    ++ padTo 43008 lb.flatten
    ++ (natRange 0 16).flatMap (fun q => padTo 512 ((k.dma q).flatMap (dmaEntryBytes k)))

/-- Bit `r` set for each row of a poison map (R426). -/
def poisonBytes (rows n : Nat) (poison : List Nat) : List Byte :=
  (natRange 0 n).map (fun i => BitVec.ofNat 8 ((natRange 0 8).foldl (fun a b =>
    if 8 * i + b < rows ∧ hasNat poison (8 * i + b) then a + 2 ^ b else a) 0))

/-- A faulted access's bytes (R427). -/
def faultedBytes (kind core dq n addr dst : Nat) (data : List Byte) : List Byte :=
  leBytes 1 kind ++ leBytes 1 core ++ leBytes 1 dq ++ zeros 1 ++ leBytes 2 n ++ zeros 2 ++ leBytes 8 addr ++ leBytes 8 dst ++ zeros 8
    ++ padTo 256 data

/-- The faulted accesses of a core's DMA queues. -/
def CoreSt.faultedDma (core : Nat) (k : CoreSt) : List (List Byte) :=
  k.dmaq.flatMap (fun q => q.2.flatMap (fun e => e.faulted.map (fun f => faultedBytes 3 core q.1 f.n f.addr f.dst f.data)))

/-- The faulted accesses of a cluster (R427). -/
def ClusterSt.faultedAccesses (c : ClusterSt) (ws : List FabWrite) : List (List Byte) :=
  (c.cores.flatMap (fun e =>
    let base := e.2.readsAt
    ((natRange base e.2.wait.length).zip e.2.wait).map (fun r => faultedBytes 1 e.1 0 r.2.len r.2.addr r.1 []) ++ e.2.faultedDma e.1))
  ++ (ws.filter (fun w => w.faulted)).map (fun w => faultedBytes 2 w.k.core 0 w.data.length w.addr 0 w.data)

/-- A cluster record (R426); `ws` are its writes whose translation faults wait. -/
def ClusterSt.record (c : ClusterSt) (vc rcache : Nat) (ws : List FabWrite) : List Byte :=
  let fa := (c.faultedAccesses ws).take 256
  let running := (natRange 0 32).foldl (fun a i => match (c.co i).run with
    | .running | .halting => a + 2 ^ i | _ => a) 0
  leBytes 4 1 ++ leBytes 2 vc ++ leBytes 2 rcache ++ leBytes 4 running ++ leBytes 2 fa.length ++ zeros 2
    ++ leBytes 4 c.triInvalid ++ leBytes 4 c.nanLogits ++ zeros 40
    ++ (natRange 0 64).flatMap (fun i => leBytes 8 (tabGet 0 c.cnt i))
    ++ poisonBytes 16384 2048 c.poison ++ (natRange 0 32).flatMap (fun i => poisonBytes 1024 128 (c.co i).poison)
    ++ zeros 1472 ++ padTo 73728 fa.flatten
    ++ padTo 0x400000 (memRead c.cmem 0 (0x400000 - rcacheBytes rcache))
    ++ (natRange 0 32).flatMap (fun i => (c.co i).record)

/-- Bytes of a cluster record. -/
def clusterRecordLen : Nat := 0x1228000

/-- Bytes of a save area of `n` clusters (R423). -/
def saveLen (n : Nat) : Nat := 0x8000 + n * clusterRecordLen

/-- A save area (R425); the loop state is in the device's own format. -/
def saveBytes (c n kind : Nat) (faultWait : Bool) (rev image : Nat) (loop : List Byte) (clusters : List Byte) : List Byte :=
  leBytes 4 1 ++ leBytes 2 c ++ leBytes 2 n ++ leBytes 1 kind ++ leBytes 1 (bnat faultWait) ++ leBytes 2 rev ++ zeros 4
    ++ leBytes 8 image ++ zeros 4072 ++ padTo 28672 loop ++ clusters

-- what a restore takes

/-- Rows whose bit is set. -/
def poisonOf (rows : Nat) (bs : List Byte) : List Nat :=
  (natRange 0 rows).filter (fun r => (bs.getD (r / 8) 0#8).toNat.testBit (r % 8))

/-- A landing entry as its bytes give it (R83): its length, its RESIDUAL and what it writes. `old` is the entry kept beside it, for the
core and the mask of a store (log entry 15). -/
def landOf (core : Nat) (old : Option LandKind) (b : List Byte) : Option (Nat × Landing) :=
  let reg := fieldAt b 1 1
  let arg := fieldAt b 8 8
  let body := b.drop 16
  let e (n : Nat) (w : LandKind) : Option (Nat × Landing) := some (16 + n, { due := fieldAt b 4 4, what := w })
  match fieldAt b 0 1 with
  | 1 => e 16 (.scalar (reg % 32) (BitVec.ofNat 64 (fieldAt body 0 8)))
  | 2 => e 16 (.pred (reg % 8) (BitVec.ofNat 64 (fieldAt body 0 8)) (BitVec.ofNat 64 (fieldAt body 8 8)))
  | 3 => e 256 (.vector (reg % 64) (BitVec.ofNat 64 arg) (BitVec.ofNat 2048 (fieldAt body 0 256)))
  | 4 => e 16384 (.accTile (reg % 8) ((natRange 0 4096).map (fun i => fieldAt body (4 * i) 4)))
  | 5 => e 256 (.accRow (reg % 8) (fieldAt b 2 1 % 64) (BitVec.ofNat 64 arg) (BitVec.ofNat 2048 (fieldAt body 0 256)))
  | 6 =>
    let n := bitsAt arg 47 32
    let off := arg % 2 ^ 32 % 0x800000
    let data := body.take n
    let own : LandKind := if off ≥ 0x400000 then .store none (off - 0x400000) data [] else .store (some core) off data []
    e (ceilDiv n 16 * 16) (match old, own with
      | some (.store c o d m), .store a x _ _ => if o = x ∧ d.length = n ∧ c.isNone = a.isNone then .store c o data m else own
      | _, w => w)
  | _ => none

/-- A list without the places in `drop`. -/
def dropPlaces {α : Type} (l : List α) (drop : List Nat) : List α :=
  ((l.zip (natRange 0 l.length)).filter (fun e => !hasNat drop e.2)).map (fun e => e.1)

/-- The landing entries of a core's record, in order. -/
def landsOf (core : Nat) : Nat → List LandKind → List Byte → List Landing
  | 0, _, _ => []
  | n + 1, old, b =>
    match landOf core old.head? b with
    | some (len, e) => e :: landsOf core n old.tail (b.drop len)
    | none => []

/-- A DMA queue entry as its bytes give it (R84): it goes on from DONE. Its fence epoch, and whether it had started, are those kept beside
it. -/
def dmaEntryOf (old : Option DmaEntry) (b : List Byte) : DmaEntry :=
  let n := fieldAt b 0x14 4
  let k := old.getD { ix := false, src := 0, dst := 0, len := 0, flags := 0, cnt := 0, pc := 0, started := true }
  let ix := fieldAt b 0x18 1 == 2
  let len := fieldAt b 0x10 4 + n
  let e : DmaEntry :=
    { ix := ix, src := fieldAt b 0 8, dst := if ix then 0 else fieldAt b 8 8, len := if ix then 0 else len, flags := fieldAt b 0x19 1 % 32,
      cnt := fieldAt b 0x1A 1 % 64, pc := k.pc, epoch := k.epoch, started := k.started || decide (0 < n) }
  if !e.started then e
  else if ix then { e with total := 16 * len, skipped := natRange 0 n }
  else { e with total := ceilDiv len 256, done := natRange 0 (ceilDiv n 256) }

/-- The entries of DMA queue `q` in a core's record. -/
def dmaQueueOf (c : CoreSt) (b : List Byte) (q : Nat) : List DmaEntry :=
  (natRange 0 16).filterMap (fun i =>
    let e := (b.drop (512 * q + 32 * i)).take 32
    if fieldAt e 0x18 1 = 1 ∨ fieldAt e 0x18 1 = 2 then some (dmaEntryOf (c.dma q)[i]? e) else none)

/-- A core as its save record gives it (R82); what the layout has no byte for is kept beside it (log entry 15). Its held reads come back
with the cluster's faulted accesses, which name their landing entries. -/
def CoreSt.fromRecord (core : Nat) (halted : Bool) (reads : List Nat) (k : CoreSt) (b : List Byte) : CoreSt :=
  let x := { k with
    brRemain := fieldAt b 6 1 % 4, brTarget := fieldAt b 0x0C 4, pc := fieldAt b 8 4, issued := fieldAt b 0x30 8,
    draws := (natRange 0 4).map (fun i => (i, BitVec.ofNat 64 (fieldAt b (0x10 + 8 * i) 8))),
    sregs := (natRange 0 32).map (fun i => (i, BitVec.ofNat 64 (fieldAt b (0x40 + 8 * i) 8))),
    pregs := (natRange 0 8).map (fun i => (i, BitVec.ofNat 64 (fieldAt b (0x140 + 8 * i) 8))),
    vregs := (natRange 0 64).map (fun i => (i, BitVec.ofNat 2048 (fieldAt b (0x200 + 256 * i) 256))),
    accs := (natRange 0 32768).map (fun i => (i, fieldAt b (0x4200 + 4 * i) 4)),
    scratch := memWrite [] 0 ((b.drop 0x24200).take 0x40000),
    parked := dropPlaces (landsOf core (fieldAt b 4 2) (k.allLandings.map Landing.what) ((b.drop 0x64200).take 43008)) reads,
    run := if fieldAt b 7 1 = 1 then (match k.run with | .faulted c => .faulted c | _ => .faulted 0)
      else if halted then (match k.run with | .idle => .idle | _ => .stopped)
      else (match k.run with | .halting => .halting | _ => .running),
    fzDone := true, frozen := true, resuming := false, landing := [], mexec := none, mpend := none, wait := [] }
  { x with dmaq := (natRange 0 16).map (fun q => (q, dmaQueueOf x (b.drop 0x6EA00) q)) }

/-- The destination of a faulted read, as its landing entry gives it; how a load extends or widens is kept beside it (log entry 15). -/
def readDestOf (old : Option OutRead) (n : Nat) (b : List Byte) : ReadDest :=
  let reg := fieldAt b 1 1
  if fieldAt b 0 1 = 1 then
    .scalar (reg % 32) n (match old with | some { dest := .scalar _ _ s, .. } => s | _ => false)
  else
    .vector (reg % 64) (match old with | some { dest := .vector _ f _, .. } => f | _ => .fp32) (BitVec.ofNat 64 (fieldAt b 8 8))

/-- Where a core's landing entry number `n` lies in its record. -/
def landAt : Nat → List Byte → List Byte
  | 0, b => b
  | n + 1, b => match landOf 0 none b with | some (len, _) => landAt n (b.drop len) | none => b

/-- The faulted accesses of a cluster record: kind, core and bytes. -/
def faultedOf (b : List Byte) : List (Nat × Nat × List Byte) :=
  (natRange 0 (min 256 (fieldAt b 0x0C 2))).map (fun i =>
    let f := (b.drop (0x2000 + 288 * i)).take 288
    (fieldAt f 0 1, fieldAt f 1 1 % 32, f))

/-- The places of the landing entries of core `i`'s faulted reads. -/
def readPlaces (fs : List (Nat × Nat × List Byte)) (i : Nat) : List Nat :=
  (fs.filter (fun f => decide (f.1 = 1 ∧ f.2.1 = i))).map (fun f => fieldAt f.2.2 0x10 8 % 64)

/-- The held reads of core `i`: its faulted accesses of kind 1, to be issued again. -/
def readsOf (fs : List (Nat × Nat × List Byte)) (i : Nat) (old : List OutRead) (lands : List Byte) : List OutRead :=
  let mine := fs.filter (fun f => decide (f.1 = 1 ∧ f.2.1 = i))
  (mine.zip (natRange 0 mine.length)).map (fun e =>
    let b := e.1.2.2
    let k := old[e.2]?
    let n := fieldAt b 4 2
    let base : OutRead := k.getD { addr := 0, len := 0, dest := .scalar 0 8 false }
    { base with addr := fieldAt b 8 8, len := n, dest := readDestOf k n (landAt (fieldAt b 0x10 8 % 64) lands), faulted := false, sent := false })

/-- The faulted DMA accesses of a core, as pairs of the entry's place and the access; which transaction of which entry they belong to is kept
beside them (log entry 15). -/
def CoreSt.dmaFaults (k : CoreSt) (q : Nat) : List (Nat × DmaFault) :=
  ((natRange 0 (k.dma q).length).zip (k.dma q)).flatMap (fun e => e.2.faulted.map (fun f => (e.1, f)))

/-- A transaction that a record counts as complete is not: of a row of DMA.IX, the others are. -/
def DmaEntry.undo (d : DmaEntry) (t : Nat) : DmaEntry :=
  if d.ix && hasNat d.skipped (t / 16) then
    { d with skipped := dropAll d.skipped (t / 16), done := d.done ++ dropAll (natRange (16 * (t / 16)) 16) t }
  else { d with done := dropAll d.done t }

/-- Attach the faulted accesses of kind 3 of core `i` to its queue `q`, to be issued again (R338). -/
def attachFaults (fs : List (Nat × Nat × List Byte)) (i : Nat) (old k : CoreSt) (q : Nat) : CoreSt :=
  let mine := fs.filter (fun f => decide (f.1 = 3 ∧ f.2.1 = i ∧ fieldAt f.2.2 2 1 % 16 = q))
  (mine.zip (natRange 0 mine.length)).foldl (fun k e =>
    let b := e.1.2.2
    let h := (old.dmaFaults q)[e.2]?
    let n := fieldAt b 4 2
    let onWrite := decide (fieldAt b 8 8 = fieldAt b 0x10 8)
    let f : DmaFault :=
      { tx := (h.map (fun x => x.2.tx)).getD 0, onWrite := onWrite, addr := fieldAt b 8 8, dst := fieldAt b 0x10 8, n := n,
        data := if onWrite then (b.drop 0x20).take n else [], poison := (h.map (fun x => x.2.poison)).getD false, again := true }
    k.updEntry q ((h.map (fun x => x.1)).getD 0) (fun d => { d.undo f.tx with faulted := d.faulted ++ [f] })) k

/-- A cluster as its record gives it (R426, R427). -/
def ClusterSt.fromRecord (c : ClusterSt) (b : List Byte) : ClusterSt :=
  let fs := faultedOf b
  { c with triInvalid := fieldAt b 0x10 4, nanLogits := fieldAt b 0x14 4,
           cnt := (natRange 0 64).map (fun i => (i, fieldAt b (0x40 + 8 * i) 8)),
           poison := poisonOf 16384 (b.drop 0x240),
           cmem := memWrite [] 0 ((b.drop 0x14000).take 0x400000),
           cores := (natRange 0 32).map (fun i =>
             let r := (b.drop (0x414000 + 0x70A00 * i)).take 0x70A00
             let old := c.co i
             let lands := r.drop 0x64200
             let reads := readsOf fs i old.wait lands
             let k := old.fromRecord i (!(fieldAt b 8 4).testBit i) (readPlaces fs i) r
             let k := (natRange 0 16).foldl (fun k q => attachFaults fs i old k q) k
             (i, { k with wait := reads, poison := poisonOf 1024 (b.drop (0x240 + 2048 + 128 * i)) })) }

/-- The faulted stores of a cluster record, their masks, fence epochs and counters as kept beside them (log entry 15). -/
def storesOf (b : List Byte) (old : List FabWrite) : List FabWrite :=
  let mine := (faultedOf b).filter (fun f => decide (f.1 = 2))
  (mine.zip (natRange 0 mine.length)).filterMap (fun e =>
    ((old.filter (fun w => w.faulted))[e.2]?).map (fun w =>
      { w with addr := fieldAt e.1.2.2 8 8, data := (e.1.2.2.drop 0x20).take (fieldAt e.1.2.2 4 2) }))

/-- A restored record is of this layout and virtual cluster (R428). -/
def recordOk (vc : Nat) (b : List Byte) : Bool := fieldAt b 0 4 == 1 && fieldAt b 4 2 == vc

-- accesses that wait for a translation fault's answer

/-- Faulted accesses of a core are issued again, under the current revision and generation (R338). -/
def CoreSt.reissue (rev gen : Nat) (k : CoreSt) : CoreSt :=
  let dma (e : DmaEntry) : DmaEntry := { e with faulted := e.faulted.map (fun f => { f with again := true }) }
  { k with wait := k.wait.map (fun r => { r with faulted := false, rev := rev, gen := gen }),
           dmaq := k.dmaq.map (fun q => (q.1, q.2.map dma)) }

/-- Faulted accesses of a cluster's cores are issued again. -/
def ClusterSt.reissue (rev gen : Nat) (c : ClusterSt) : ClusterSt :=
  { c with cores := c.cores.map (fun e => (e.1, e.2.reissue rev gen)) }

/-- A saved cluster on a physical cluster: the latter's clock and settings, an empty read cache. Residuals count from the
cluster's present cycle (R79), which is at least that of the freeze. -/
def placeCluster (h : HostCtx) (saved now : ClusterSt) : ClusterSt :=
  { saved with cycle := max saved.cycle now.cycle, cache := [], ctx := some h, expired := none, landedNow := [], fencesNow := [], readNow := false, op := now.op, gap := now.gap,
               thermal := now.thermal, pendingOp := now.pendingOp }

/-- Put saved clusters on physical clusters, in virtual order. -/
def State.placeAll (s : State) (p c q : Nat) (r : PacketRun) (saved : List ClusterSt) (cls : List Nat) : State :=
  ((cls.zip saved).zip (natRange 0 cls.length)).foldl (fun s e =>
    let formats := match e.1.2.ctx with | some h => h.formats | none => 0
    let h := s.hostCtx p c q e.2 formats (fieldAt r.bytes 4 2)
    s.updCl e.1.1 (fun c => { (placeCluster h e.1.2 c).renew (s.part p).revision with ref := max c.ref s.ticks })) s

/-- Writes of a context's clusters, each named by its virtual cluster. -/
def State.takeWrites (s : State) (cls : List Nat) : List FabWrite :=
  (s.writes.filter (fun w => hasNat cls w.k.cl && !w.orphan)).filterMap (fun w =>
    (coreIdOf (indexIn cls w.k.cl) w.k.core).map (fun k => { w with k := k }))

/-- Writes of a context's clusters leave the list. -/
def State.dropWrites (s : State) (cls : List Nat) : State := { s with writes := s.writes.filter (fun w => !hasNat cls w.k.cl || w.orphan) }

/-- Saved writes go out again from the clusters that now hold their virtual clusters. -/
def State.reissueWrites (s : State) (p : Nat) (cls : List Nat) (ws : List FabWrite) : State :=
  ws.foldl (fun s w =>
    match coreIdOf (cls.getD w.k.cl 0) w.k.core with
    | some k => s.sendWrite { w with k := k, faulted := false, served := false, moved := false, rev := (s.part p).revision,
                                     gen := (s.part p).generation }
    | none => s) s

end Sys2Proof.Machine
end

