-- ==== Sys2Proof/Machine/Residency.lean ====
section
/-! DEFINITION. Residency, time slices and switches (R417-R430), and what a change of the pattern does to a context that runs: a move
(R260) and a change of shape (R261-R264). -/

namespace Sys2Proof.Machine

-- blocked and runnable contexts

/-- A commit that has reached its step 3 holds the VD of a context frozen, because it changes the VD's clusters (R253, R430). -/
def PartSt.holds (x : PartSt) (c : Nat) : Bool :=
  match x.commit, x.stage with
  | some r, some pat =>
    let vd := (tabGet ({} : CtxSt) x.ctxs c).vd
    r.frozen && decide (x.pat.clusters vd ≠ pat.clusters vd)
  | _, _ => false

/-- Clusters of the VD of a context in the live pattern. -/
def State.vdOf (s : State) (p c : Nat) : List Nat := (s.part p).pat.clusters (s.ctx p c).vd

/-- Two lists share an element. -/
def meets (a b : List Nat) : Bool := a.any (fun x => hasNat b x)

/-- The oldest runnable context needs a cluster that the context holds (R420, R422). -/
def State.oldestNeeds (s : State) (p c : Nat) : Bool :=
  match (s.part p).runnable with
  | o :: _ => decide (o ≠ c) && meets (s.vdOf p o) (s.runClusters p c)
  | [] => false

/-- The save object of a context (R423): its PLA. -/
def State.saveObject (s : State) (p c : Nat) : Option Nat :=
  match (s.part p).dir with
  | none => none
  | some d =>
    let r := s.memRec p c
    let fl := fieldAt r 0x18 1
    if decide (c < d.memobjs) && fl.testBit 0 && !fl.testBit 2 && fieldAt r 0x1A 2 == c
        && decide (saveLen (s.runClusters p c).length ≤ fieldAt r 8 8)
    then some (fieldAt r 0 8 % 2 ^ 44) else none

-- switching out

/-- A GENERATE stands between the halt of its step program and the end of step 7, and is not waiting for ring space or for a translation
fault of its sequencer (R226, R338). -/
def State.genMid (s : State) (p c : Nat) : Bool :=
  let x := s.ctx p c
  match x.genr, x.running with
  | some g, some (_, r) => g.inStep && !g.ringWait && s.runHalted p c r &&
      !(s.part p).batches.any (fun b => b.recs.any (fun r => decide (r.ctx = c) && decide (r.source = 2)))
  | _, _ => false

/-- A freeze of the context is complete (R78, R226): its clusters are still, and a GENERATE is not in the middle of a step. -/
def State.freezeDone (s : State) (p c : Nat) : Bool := s.ctxStill p c && !s.genMid p c

/-- The clusters of a context that has been saved are free, and its statistics are written (R424 step 2, R384, R433). -/
def State.savedOut (s : State) (p c : Nat) (cls : List Nat) (ws : List FabWrite) : State :=
  let saved := cls.map (fun i => { s.cl i with landedNow := [], fencesNow := [], readNow := false })
  let s := (s.memAdd p c 1).dropWrites cls
  let s := (s.slowdown p c).statsWrite p c
  let s := cls.foldl (fun s i => s.updCl i (fun k => { k.quiet with triInvalid := 0, nanLogits := 0 })) s
  let s := s.updCtx p c (fun x => { x with resident := false, residentVd := [], switching := 0, frozen := false, saved := true,
                                           sliceOver := false, savedCls := saved, savedWrites := ws })
  s.wake p c

/-- The save of a frozen context to its save object (R424 step 2). A context that a fault met while it froze is saved, and does not
resume (R81). -/
def State.saveOut (s : State) (p c base : Nat) (r : PacketRun) : State :=
  let s := s.batchPost p c false
  let cls := s.runClusters p c
  let x := s.ctx p c
  let ws := s.takeWrites cls
  let (f, s) := s.fresh
  let recs := ((cls.zip (natRange 0 cls.length)).map (fun e =>
    (s.cl e.1).record e.2 (fieldAt r.bytes 4 2) (ws.filter (fun w => decide (w.k.cl.val = e.2))))).flatten
  let wait := (s.part p).batches.any (fun b => b.number.isSome && b.recs.any (fun r => decide (r.ctx = c)))
  let bytes := saveBytes c cls.length r.typ wait (s.part p).revision (fieldAt r.bytes 0x18 8)
    (if x.genr.isSome then Config.ownFormat 1 f else []) recs
  match s.agentWrite p c (plaAddr base) bytes false with
  | (s, .error (.code k)) => s.runFail p c k (fun _ => true)
  | (s, .error (.xlate _)) => s
  | (s, .ok _) =>
    match x.faulted with
    | some code => s.runFail p c (s.faultFence p c code) (fun _ => true)
    | none => s.savedOut p c cls ws

/-- A context may be switched out now: resident, ENABLED, no commit holding it (R430), with a save object (R423). -/
def State.maySwitch (s : State) (p c : Nat) : Bool :=
  (s.ctx p c).resident && decide ((s.ctx p c).switching = 0) && (s.part p).runs && !(s.part p).holds c && (s.saveObject p c).isSome

/-- Start a switch-out for the oldest runnable context: the context freezes (R424 step 1). -/
def State.switchStart (s : State) (p c : Nat) : State :=
  ((s.freezeCtx p c).updCtx p c (fun x => { x with switching := 1, sliceOver := false })).updPart p
    (fun x => { x with incoming := match x.runnable with | o :: _ => addOnce x.incoming o | [] => x.incoming })

/-- The end of a context's slice (R420, R422): it is switched out if the oldest runnable context needs one of its clusters; otherwise a new
slice starts. -/
def State.sliceEnds (s : State) (p c : Nat) : State :=
  if s.oldestNeeds p c && s.maySwitch p c then s.switchStart p c
  else s.updCtx p c (fun x => { x with sliceFrom := s.ticks, sliceOver := false })

/-- SLICE_END (R420, R422). While a commit holds the VD frozen, it waits for the commit's step 7 (R430). -/
def execSliceEnd (p : Fin 64) (c : Fin 256) (s : State) : Host.Outcome State Fault Refusal :=
  let x := s.ctx p c
  .next (if !x.resident || !(s.part p).runs then s
    else if (s.part p).holds c then s.updCtx p c (fun x => { x with sliceOver := true })
    else if x.frozen then s
    else s.sliceEnds p c)

/-- CONTEXT_SWITCH (R422, R424): a blocked context in the way of the oldest runnable one starts its switch at once; once frozen, it
is saved. -/
def execContextSwitch (p : Fin 64) (c : Fin 256) (s : State) : Host.Outcome State Fault Refusal :=
  let s := if s.ctxBlocked p c && s.oldestNeeds p c && s.maySwitch p c then s.switchStart p c else s
  match (s.ctx p c).running, s.saveObject p c with
  | some (_, r), some base =>
    .next (if (s.ctx p c).resident && decide ((s.ctx p c).switching = 1) && s.freezeDone p c then s.saveOut p c base r else s)
  | _, _ => .next s

-- becoming resident

/-- No resident context holds the cluster (R417). -/
def PartSt.holdsNo (x : PartSt) (i : Nat) : Bool := x.ctxs.all (fun e => !e.2.resident || !hasNat e.2.residentVd i)

/-- A runnable context may become resident (R418, R419): its clusters are free, and no older runnable context needs one. While the
partition freezes, only one for which a switch was in progress does (R430). -/
def State.mayEnter (s : State) (p c : Nat) : Bool :=
  let x := s.part p
  let cls := s.vdOf p c
  (x.runs || (decide (x.pstate = .enabled) && hasNat x.incoming c)) && !x.holds c && decide ((s.ctx p c).state = 1)
    && hasNat x.runnable c
    && !(s.ctx p c).resident && cls.all x.holdsNo
    && (x.runnable.takeWhile (fun o => decide (o ≠ c))).all (fun o => !meets (s.vdOf p o) cls)

/-- A context that has become resident while its partition freezes freezes in place (R430). -/
def State.freezeIn (s : State) (p c : Nat) : State := if (s.part p).runs then s else s.freezeCtx p c

/-- A context takes every cluster of its VD (R418, R424 step 3): saved state is read by SWITCH_RESTORE, and a new packet's image is
loaded. -/
def State.enter (s : State) (p c q : Nat) (r : PacketRun) : State :=
  let s := s.updPart p (fun x => { x with runnable := dropAll x.runnable c, incoming := dropAll x.incoming c })
  if (s.ctx p c).saved then
    s.updCtx p c (fun x => { x with resident := true, residentVd := s.vdOf p c, switching := 2, frozen := true })
  else (s.loadImage p c q r).freezeIn p c

-- a change of shape (R261, R262, R264)

/-- The record of an image set for a cluster count (R261): `none` where the set is malformed or has no such record. -/
def imageSetRecord (bs : List Byte) (n : Nat) : Option (List Byte) :=
  let k := fieldAt bs 4 2
  let rec_ (i : Nat) : List Byte := (bs.drop (16 + 32 * i)).take 32
  let ns := (natRange 0 k).map (fun i => fieldAt (rec_ i) 0 4)
  if fieldAt bs 0 4 ≠ 1 ∨ k = 0 ∨ k > 64 ∨ !zeroAt bs 6 10 ∨ dupNat ns ∨ bs.length < 16 + 32 * k then none
  else ((natRange 0 k).map rec_).find? (fun r => fieldAt r 0 4 == n && zeroAt r 0x16 10)

/-- Read an image set and the record for a count. -/
def State.readSet (s : State) (p c addr n : Nat) : Option (List Byte) :=
  if addr = 0 then none
  else
    match s.agentRead p c addr 16 with
    | (s, .ok (h, false)) =>
      (match s.agentRead p c addr (16 + 32 * fieldAt h 4 2) with
       | (_, .ok (bs, false)) => imageSetRecord bs n
       | _ => none)
    | _ => none

/-- The payload with the fields of a record (R261). -/
def reshapePayload (g r : List Byte) : List Byte :=
  patchAt (patchAt (patchAt g 0x14 ((r.drop 4).take 4)) 0x1C ((r.drop 0x10).take 4)) 0x0C ((r.drop 0x14).take 2)

/-- The selected image and payload for `n` clusters pass R88 and R201 in the partition's live pattern. -/
def State.reshapeImage (s : State) (p c : Nat) (r : PacketRun) (n : Nat) : Option (List Byte × List Byte) :=
  match (s.ctx p c).genr, s.readSet p c (fieldAt r.bytes 0x20 8) n with
  | some g, some rc =>
    (match s.readImage p c (fieldAt rc 8 8) with
     | (s, .ok (img, false)) =>
       let pay := reshapePayload g.payload rc
       let g := { g with payload := pay }
       if plaOrVa (fieldAt rc 8 8) && imageValid img true && s.imageShape p (s.ctx p c).vd img (fieldAt r.bytes 4 2)
           && genParamOk g n ((fieldAt img 0x26 2).testBit 0) && genSpaceOk g (fieldAt r.bytes 4 2)
       then some (img, pay) else none
     | _ => none)
  | _, _ => none

/-- The loop state a reshape goes on from (R262): a step that step 3 abandoned runs again from step 1. -/
def CtxSt.loopFrom (x : CtxSt) : Option GenSt :=
  x.genr.map (fun g => if g.inStep && !g.ringWait then { (x.genrBefore.getD g) with head := g.head, step := g.step } else g)

/-- Change a GENERATE's shape onto the clusters its VD has now (R262, R264): its image is loaded again and every register starts
at zero, the draw counters among them; RESHAPE_FAILED ends it. -/
def State.reshape (s : State) (p c q : Nat) (r : PacketRun) : State :=
  let cls := s.vdOf p c
  match s.reshapeImage p c r cls.length with
  | none => s.ctxLose p c 0x8202 (fun _ => true)
  | some (img, pay) =>
    let s := s.discardSaved p c
    let g := (s.ctx p c).loopFrom.map (fun g => { g with payload := pay })
    let s := s.updCtx p c (fun x => { x with genr := g, genrBefore := none, draws := [], issuedKeep := [], switching := 0 })
    let r := { r with entries := imageCores img, image := img }
    let s := s.updPacket p c q (fun y =>
      { y with entries := r.entries, plaMin := fieldAt img 0x18 8, linkMin := fieldAt img 0x20 4, forN := cls.length })
    (s.loadImage p c q r).freezeIn p c

/-- A GENERATE that has not been resident yet and whose VD has changed its size enters in the shape of its new size (R264). -/
def State.entersReshaped (s : State) (p c : Nat) (r : PacketRun) : Bool :=
  r.typ == 2 && !(s.ctx p c).saved && decide (r.forN ≠ (s.vdOf p c).length)

/-- CONTEXT_RESIDENT (R418, R419, R264). -/
def execContextResident (p : Fin 64) (c : Fin 256) (s : State) : Host.Outcome State Fault Refusal :=
  match (s.ctx p c).running with
  | none => .next s
  | some (q, r) =>
    .next (if !s.mayEnter p c then s
      else if s.entersReshaped p c r then
        (s.updPart p (fun x => { x with runnable := dropAll x.runnable c, incoming := dropAll x.incoming c })).reshape p c q r
      else s.enter p c q r)

-- restoring

/-- A context goes on in place, unless an unanswered batch of switch-out mode holds it (R339), its partition is FROZEN (R284), or it is
being switched out; a slice that ended while a commit held it ends now (R430). -/
def State.resume (s : State) (p c : Nat) : State :=
  if s.batchBlocks p c || !(s.part p).runs || decide ((s.ctx p c).switching = 1) then s
  else
    let late := (s.ctx p c).sliceOver
    let s := s.thawCtx p c
    if late && (s.ctx p c).resident then s.sliceEnds p c else s

/-- Accesses that wait for an answer stay so: those of a context that is restored while its partition freezes (R438). -/
def CoreSt.withhold (k : CoreSt) : CoreSt :=
  let dma (e : DmaEntry) : DmaEntry := { e with faulted := e.faulted.map (fun f => { f with again := false }) }
  { k with wait := k.wait.map (fun r => { r with faulted := true }), dmaq := k.dmaq.map (fun q => (q.1, q.2.map dma)) }

/-- The saved contexts' records and faulted stores, as the save object now holds them; `none` on a mismatch (R428). -/
def restoreRecords (saved : List ClusterSt) (ws : List FabWrite) (bs : List Byte) : Option (List ClusterSt × List FabWrite) :=
  let rec_ (i : Nat) : List Byte := (bs.drop (0x8000 + clusterRecordLen * i)).take clusterRecordLen
  let n := saved.length
  if (natRange 0 n).all (fun i => recordOk i (rec_ i)) then
    some (((natRange 0 n).zip saved).map (fun e => e.2.fromRecord (rec_ e.1)),
      (natRange 0 n).flatMap (fun i => storesOf (rec_ i) (ws.filter (fun w => decide (w.k.cl.val = i)))) ++ ws.filter (fun w => !w.faulted))
  else none

/-- Restored records are put on the context's clusters, and its faulted accesses are issued again before its first bundle (R424 steps 3 and
4, R338). In a partition that freezes they wait for the thaw (R438), and in a VD that a commit holds for its step 7 (R253). -/
def State.restored (s : State) (p c q : Nat) (r : PacketRun) (cs : List ClusterSt) (ws : List FabWrite) : State :=
  let y := s.part p
  let cls := (s.ctx p c).residentVd
  let go := y.runs && !y.holds c
  let fit (k : ClusterSt) : ClusterSt :=
    if go then k.reissue y.revision y.generation else { k with cores := k.cores.map (fun e => (e.1, e.2.withhold)) }
  let s := s.placeAll p c q r (cs.map fit) cls
  let s := s.reissueWrites p cls ws
  let s := if go then s else { s with writes := s.writes.map (fun w =>
    if w.part = p ∧ w.ctx = c ∧ w.orphan = false ∧ ws.any (fun v => v.faulted && decide (v.addr = w.addr)) then { w with faulted := true } else w) }
  let s := cls.foldl (fun s i => s.sendHeld i) (s.dropSaved p c)
  let s := s.updCtx p c (fun x => { x with switching := 0, faultWait := false })
  if go then s.thawCtx p c else s

/-- SWITCH_RESTORE (R424 steps 3 and 4, R428, R429): the records are read onto the clusters that the live pattern maps, and the
context resumes; a GENERATE of another shape is reshaped. -/
def State.restoreIn (s : State) (p c q base : Nat) (r : PacketRun) : State :=
  let x := s.ctx p c
  match s.agentRead p c (plaAddr base) 0x1000 with
  | (s, .error (.code k)) => s.ctxLose p c k (fun _ => true)
  | (s, .error (.xlate _)) => s
  | (s, .ok (h, poison)) =>
    if poison then s.ctxLose p c 0x8414 (fun _ => true)
    else if fieldAt h 0 4 ≠ 1 ∨ fieldAt h 4 2 ≠ c ∨ fieldAt h 8 1 ≠ r.typ ∨ (r.typ = 1 ∧ fieldAt h 6 2 ≠ x.residentVd.length) then
      s.ctxLose p c 0x8404 (fun _ => true)
    else if r.typ = 2 ∧ (fieldAt h 6 2 ≠ x.residentVd.length ∨ x.savedCls.length ≠ x.residentVd.length) then s.reshape p c q r
    else
      match s.agentRead p c (plaAddr base) (saveLen x.savedCls.length) with
      | (s, .error (.code k)) => s.ctxLose p c k (fun _ => true)
      | (s, .error (.xlate _)) => s
      | (s, .ok (bs, poison)) =>
        if poison then s.ctxLose p c 0x8414 (fun _ => true)
        else
          match restoreRecords x.savedCls x.savedWrites bs with
          | none => s.ctxLose p c 0x8404 (fun _ => true)
          | some (cs, ws) => s.restored p c q r cs ws

/-- SWITCH_RESTORE. -/
def execSwitchRestore (p : Fin 64) (c : Fin 256) (s : State) : Host.Outcome State Fault Refusal :=
  match (s.ctx p c).running with
  | some (q, r) =>
    .next (if (s.ctx p c).resident && decide ((s.ctx p c).switching = 2) then
        s.restoreIn p c q (fieldAt (s.memRec p c) 0 8 % 2 ^ 44) r else s)
  | none => .next s

-- what a commit does to a resident context (R253 step 7, R260, R262)

/-- The clusters of a context that leaves them, as they stood, and its writes on their way. -/
def State.takeOff (s : State) (cls : List Nat) : State × List ClusterSt × List FabWrite :=
  let saved := cls.map (fun i => s.cl i)
  let ws := s.takeWrites cls
  (cls.foldl (fun s i => s.updCl i (fun k => { k.quiet with triInvalid := 0, nanLogits := 0 })) (s.dropWrites cls), saved, ws)

/-- Put clusters that were taken off, and their writes, on others of the same number: what waits for a fault's answer, or for the end of
a switch, goes on waiting (R339); the rest is issued again. -/
def State.putOn (s : State) (p c q : Nat) (r : PacketRun) (saved : List ClusterSt) (ws : List FabWrite) (cls : List Nat) : State :=
  let y := s.part p
  let hold := s.batchBlocks p c || decide ((s.ctx p c).switching = 1)
  let s := s.placeAll p c q r (if hold then saved else saved.map (fun k => k.reissue y.revision y.generation)) cls
  let s := if hold then { s with writes := s.writes ++ ws.filterMap (fun w =>
      (coreIdOf (cls.getD w.k.cl 0) w.k.core).map (fun k => { w with k := k })) }
    else s.reissueWrites p cls ws
  s.updCtx p c (fun x => { x with residentVd := cls })

/-- A resident context whose VD changed: released from the old clusters; moved to the new ones with its state, or, where N changed,
its GENERATE is reshaped. One that a fault met while it froze ends with that (R81), and a slice that ended meanwhile is over now (R430). -/
def State.recast (s : State) (p c : Nat) : State :=
  let x := s.ctx p c
  let cls := s.vdOf p c
  match x.running with
  | none => s
  | some (q, r) =>
    if x.switching = 2 then s.updCtx p c (fun x => { x with residentVd := cls })
    else if x.faulted.isSome then s.thawCtx p c
    else if x.residentVd = cls then s.resume p c
    else if x.residentVd.length = cls.length then
      let t := s.takeOff x.residentVd
      (t.1.putOn p c q r t.2.1 t.2.2 cls).resume p c
    else
      let s := s.gatherCounts p c
      let s := ((s.takeOff x.residentVd).1).reshape p c q r
      if x.sliceOver && (s.ctx p c).resident then s.sliceEnds p c else s

/-- Count a discarded completion (R476); the hub's count has number 4. -/
def State.countStitch (s : State) (d : Nat) : State :=
  { s with recov := { s.recov with stitches := tabSet s.recov.stitches d (satAdd (2 ^ 64 - 1) (tabGet 0 s.recov.stitches d) 1) } }

/-- A die is taped off, and step 3 of R465 is over: answers to its requests are late. -/
def State.dieLate (s : State) (d : Nat) : Bool := s.recov.domains.any (fun r => decide (r.step ≠ 1) && domIsDie r.dom d)

/-- A completion arrives (R434, R475): with another tag than its entry's, another generation than its partition's, or for a request of a
taped-off domain after step 3 of R465, it is discarded and counted; else it is delivered, by the command of its own kind of access. That
step 3 has advanced the tag of every entry that a lost cluster held, so a late answer to one is known by its tag. -/
def State.fabricCompletion (s : State) (d entry tag part gen : Nat) : State :=
  if tabGet 0 (s.tracker d).tags entry % 256 ≠ tag ∨ (s.part part).generation ≠ gen ∨ s.dieLate d then s.countStitch d else s

/-- FABRIC_COMPLETION (R434, R475), at a die or, with number 4, at the hub. -/
def execFabricCompletion (d : Fin 5) (entry : Nat) (tag : Byte) (part : Fin 64) (gen : BitVec 16) (s : State) :
    Host.Outcome State Fault Refusal := .next (s.fabricCompletion d entry tag.toNat part gen.toNat)

end Sys2Proof.Machine
end

