-- ==== Sys2Proof/Machine/Pattern.lean ====
section
/-! DEFINITION. The pattern table (R232-R237, R243) and the edits of a stage (R239-R246): items, casts and bind-offs as functions of a
pattern. -/

namespace Sys2Proof.Machine

-- nodes

/-- Node numbers that VDs, link shares, groups and vacant ranges have. -/
def Pattern.used (p : Pattern) : List Nat :=
  p.vds.flatMap (fun v => v.node :: v.links.map (fun l => l.node)) ++ p.map.map (fun i => i.node)

/-- The lowest node number that is free (log entry 20). -/
def Pattern.freshNode (p : Pattern) : Nat := ((natRange 1 4095).find? (fun n => !hasNat p.used n)).getD 4095

/-- The node is a VD. -/
def Pattern.isVd (p : Pattern) (n : Nat) : Bool := (p.vd n).isSome

/-- Change a VD. -/
def Pattern.updVd (p : Pattern) (n : Nat) (f : VdNode → VdNode) : Pattern :=
  { p with vds := p.vds.map (fun v => if v.node = n then f v else v) }

/-- Link modules of exclusive shares. -/
def VdNode.modules (v : VdNode) : List Nat :=
  v.links.flatMap (fun l => if l.exclusive then maskModules l.edge l.modules else [])

/-- Entries of a kind that the pattern holds (R229). -/
def Pattern.entries (p : Pattern) (kind : Nat) : List Nat :=
  if kind = 1 then p.vds.flatMap (fun v => v.clusters)
  else if kind = 2 then p.map.flatMap (fun i => i.chans)
  else p.vds.flatMap VdNode.modules

/-- Every entry of a pattern as kind and index. -/
def Pattern.allEntries (p : Pattern) : List (Nat × Nat) :=
  (p.entries 1).map (fun i => (1, i)) ++ (p.entries 2).map (fun i => (2, i)) ++ (p.entries 3).map (fun i => (3, i))

/-- Cut a list into pieces of `n`, each with the place of its first element. -/
def pieces (n : Nat) : Nat → Nat → List Nat → List (Nat × List Nat)
  | 0, _, _ => []
  | fuel + 1, at_, l => if l.isEmpty then [] else (at_, l.take n) :: pieces n fuel (at_ + n) (l.drop n)

/-- Runs of a VD. -/
def VdNode.runs (v : VdNode) : List (Nat × List Nat) := pieces 12 v.clusters.length 0 v.clusters
/-- List nodes of a group. -/
def PlaItem.lists (i : PlaItem) : List (Nat × List Nat) := pieces 7 i.chans.length 0 i.chans

/-- Free node numbers, the highest first: run and list nodes have them (log entry 20). -/
def Pattern.freeDown (p : Pattern) : List Nat := ((natRange 0 4095).map (fun i => 4095 - i)).filter (fun n => !hasNat p.used n)

/-- Run and list nodes: the node that holds each, its place, its members. -/
def Pattern.leaves (p : Pattern) : List (Nat × Nat × List Nat) :=
  p.vds.flatMap (fun v => v.runs.map (fun r => (v.node, r))) ++ p.map.flatMap (fun i => i.lists.map (fun r => (i.node, r)))

/-- Node number of the first leaf of a node, or none. -/
def Pattern.firstLeaf (p : Pattern) (n : Nat) : Nat :=
  match p.leaves.findIdx? (fun l => decide (l.1 = n)) with | some i => p.freeDown.getD i 0xFFFF | none => 0xFFFF

/-- The element of a list that follows `n`, 0xFFFF for none. -/
def nextIn (l : List Nat) (n : Nat) : Nat := l.getD (indexIn l n + 1) 0xFFFF

/-- Node header (R232). -/
def nodeHead (kind next parent : Nat) : List Byte := leBytes 1 kind ++ zeros 1 ++ leBytes 2 next ++ leBytes 2 parent ++ zeros 2

/-- VDs with a parent, in creation order. -/
def Pattern.children (p : Pattern) (n : Nat) : List Nat := (p.vds.filter (fun v => decide (v.parent = n))).map (fun v => v.node)

/-- The 32 bytes of a VD node (R234). -/
def Pattern.vdBytes (p : Pattern) (v : VdNode) (enable busy : Bool) : List Byte :=
  nodeHead 2 (nextIn (p.children v.parent) v.node) v.parent ++ leBytes 2 (p.firstLeaf v.node)
    ++ leBytes 2 ((p.children v.node).headD 0xFFFF) ++ leBytes 2 ((v.links.map (fun l => l.node)).headD 0xFFFF)
    ++ leBytes 2 (p.size v.node) ++ leBytes 2 v.clusters.length
    ++ leBytes 1 (bnat enable + 2 * bnat v.route03 + 4 * bnat v.route12 + 8 * bnat busy) ++ zeros 1 ++ leBytes 2 v.reason ++ zeros 10

/-- The 32 bytes of a link share (R235). -/
def linkBytes (v : VdNode) (l : LinkShare) : List Byte :=
  nodeHead 6 (nextIn (v.links.map (fun l => l.node)) l.node) v.node ++ leBytes 1 l.edge ++ leBytes 1 (if l.exclusive then 1 else 2)
    ++ leBytes 1 l.modules ++ leBytes 1 (bnat l.spill) ++ leBytes 4 l.gbps ++ zeros 16

/-- The 32 bytes of a channel group or a vacant range (R235). -/
def Pattern.itemBytes (p : Pattern) (i : PlaItem) : List Byte :=
  let next := nextIn (p.map.map (fun i => i.node)) i.node
  if i.chans.isEmpty then nodeHead 7 next 0 ++ zeros 8 ++ leBytes 8 i.base ++ leBytes 8 i.vacLen
  else nodeHead 4 next 0 ++ leBytes 8 i.base ++ leBytes 1 i.chans.length.log2 ++ zeros 1 ++ leBytes 2 (p.firstLeaf i.node) ++ zeros 12

/-- The 32 bytes of a run or list node (R235). -/
def Pattern.leafBytes (p : Pattern) (k : Nat) : List Byte :=
  match p.leaves[k]? with
  | none => zeros 32
  | some l =>
    let next := match p.leaves[k + 1]? with | some m => if m.1 = l.1 then p.freeDown.getD (k + 1) 0xFFFF else 0xFFFF | none => 0xFFFF
    if p.isVd l.1 then
      nodeHead 3 next l.1 ++ leBytes 2 l.2.1 ++ leBytes 1 l.2.2.length ++ zeros 1 ++ padTo 12 (l.2.2.flatMap (leBytes 1)) ++ zeros 8
    else nodeHead 5 next l.1 ++ leBytes 1 l.2.1 ++ leBytes 1 l.2.2.length ++ padTo 14 (l.2.2.flatMap (leBytes 2)) ++ zeros 8

/-- The 32 bytes of any node (R232-R235): `enabled` gives ENABLE (log entry 21), `busy` the VDs with a packet in progress. -/
def Pattern.nodeBytes (p : Pattern) (n revision seq : Nat) (enabled busy : Nat → Bool) : List Byte :=
  if n = 0 then
    nodeHead 1 0xFFFF 0xFFFF ++ leBytes 2 ((p.children 0).headD 0xFFFF) ++ leBytes 2 ((p.map.map (fun i => i.node)).headD 0xFFFF)
      ++ leBytes 2 revision ++ leBytes 2 p.nodes ++ leBytes 8 p.top ++ leBytes 4 seq ++ zeros 4
  else
    match p.vd n, p.map.find? (fun i => decide (i.node = n)),
        p.vds.findSome? (fun v => (v.links.find? (fun l => decide (l.node = n))).map (fun l => (v, l))) with
    | some v, _, _ => p.vdBytes v (enabled n) (busy n)
    | _, some i, _ => p.itemBytes i
    | _, _, some (v, l) => linkBytes v l
    | _, _, _ => (match p.freeDown.findIdx? (fun m => decide (m = n)) with | some k => p.leafBytes k | none => zeros 32)

-- items (R239)

/-- A skein item, with the channels that follow a group. -/
structure SkeinItem where
  kind : Nat
  flags : Nat
  index : Nat
  value : Nat
  chans : List Nat := []
  deriving DecidableEq, Repr

/-- The 8-byte items of a command. -/
def rawItems (pkt : List Byte) : List SkeinItem :=
  (natRange 0 (par pkt 2 2)).map (fun i =>
    { kind := par pkt (8 + 8 * i) 1, flags := par pkt (9 + 8 * i) 1, index := par pkt (10 + 8 * i) 2, value := par pkt (12 + 8 * i) 4 })

/-- A size a group may have (R176). -/
def groupSizeOk (g : Nat) : Bool := powTwoIn g 1 64

/-- One item's own layout. -/
def itemOk (cast : Bool) (i : SkeinItem) : Bool :=
  match i.kind with
  | 1 => decide (i.index < 192) && ((i.flags == 0 && i.value == 0) || (cast && i.flags == 1 && decide (i.value < 4096)))
  | 2 => i.value == 0 && (if cast then decide (i.flags ≤ 1) else i.flags == 0 || i.flags == 2)
  | 3 => cast && i.flags == 0 && i.value == 0 && decide (i.index < 320)
  | 4 => i.flags == 0 && decide (i.index < 4) && decide (1 ≤ i.value) && decide (i.value < 64)
  | 5 => i.flags == 0 && decide (i.index < 4) && (if cast then decide (1 ≤ i.value) else i.value == 0)
  | _ => false

/-- Give each group the channel items that follow it; a channel item elsewhere breaks the layout. -/
def gatherItems : List SkeinItem → Option (List SkeinItem) :=
  List.foldl (fun a i =>
    match a with
    | none => none
    | some l =>
      if i.kind ≠ 3 then some (l ++ [i])
      else
        match l.getLast? with
        | some g => if g.kind = 2 then some (l.dropLast ++ [{ g with chans := g.chans ++ [i.index] }]) else none
        | none => none) (some [])

/-- Parse the items of a cast-on or bind-off: `none` is ITEM_INVALID (R239). A group item has as many channel items after it as its G
states; whether G is a size a group may have is a check of R176. -/
def parseItems (pkt : List Byte) (cast : Bool) : Option (List SkeinItem) :=
  let raw := rawItems pkt
  if par pkt 2 2 = 0 ∨ pktLen pkt ≠ 8 + 8 * par pkt 2 2 ∨ par pkt 4 1 > 1 ∨ !parZero pkt 5 3 ∨ raw.isEmpty ∨ raw.length > 507 ∨ !raw.all (itemOk cast) then none
  else
    match gatherItems raw with
    | none => none
    | some l =>
      if l.all (fun i => i.kind != 2 || !cast || i.chans.length == i.index) then some l else none

/-- Pool entries that an item of a cast-on names. -/
def SkeinItem.names (i : SkeinItem) : List (Nat × Nat) :=
  match i.kind with
  | 1 => [(1, i.index)]
  | 2 => i.chans.map (fun c => (2, c))
  | 4 => (maskModules i.index i.value).map (fun m => (3, m))
  | _ => []

-- edits (R240-R242, R244, R245)

/-- Add a group (R244): at PLA_TOP, or with FILL in the lowest vacant range of exactly its size. -/
def Pattern.addGroup (p : Pattern) (chans : List Nat) (fill : Bool) : Except Nat Pattern :=
  if !groupSizeOk chans.length ∨ dupNat chans ∨ meets chans (p.entries 2) then .error 0x0205
  else
    let size := chans.length * 3000000000
    if fill then
      match p.map.findIdx? (fun i => i.chans.isEmpty && decide (i.vacLen = size)) with
      | none => .error 0x0205
      | some k => .ok { p with map := p.map.modify k (fun i => { i with chans := chans, vacLen := 0 }) }
    else if p.top + size > 2 ^ 44 then .error 0x0205
    else .ok { p with map := p.map ++ [{ node := p.freshNode, base := p.top, chans := chans }], top := p.top + size }

/-- Remove vacant ranges that end at PLA_TOP (R245): the map is in PLA order. -/
def trimTop : Nat → Pattern → Pattern
  | 0, p => p
  | fuel + 1, p =>
    match p.map.getLast? with
    | some i => if i.chans.isEmpty && decide (i.base + i.vacLen = p.top) then
        trimTop fuel { p with map := p.map.dropLast, top := i.base } else p
    | none => { p with top := 0 }

/-- Remove a group (R245): the topmost one, or one bound off as VACATED; its channels come with the pattern. -/
def Pattern.removeGroup (p : Pattern) (node : Nat) (vacated : Bool) : Except Nat (Pattern × List Nat) :=
  match p.map.findIdx? (fun i => decide (i.node = node) && !i.chans.isEmpty), p.map.find? (fun i => decide (i.node = node)) with
  | some k, some i =>
    if k + 1 = p.map.length then
      .ok (trimTop (p.map.length + 1) { p with map := p.map.dropLast, top := i.base }, i.chans)
    else if !vacated then .error 0x0207
    else .ok ({ p with map := p.map.modify k (fun i => { i with chans := [], vacLen := i.len }) }, i.chans)
  | _, _ => .error 0x0202

/-- The share of a kind on an edge. -/
def VdNode.share (v : VdNode) (edge : Nat) (excl : Bool) : Option LinkShare :=
  v.links.find? (fun l => decide (l.edge = edge) && decide (l.exclusive = excl))

/-- Add modules to an exclusive share, or GB/s to a pooled one, creating the share where the VD has none (R240). -/
def Pattern.addLink (p : Pattern) (vd edge mask gbps : Nat) (excl : Bool) : Except Nat Pattern :=
  match p.vd vd with
  | none => .error 0x0201
  | some v =>
    match v.share edge excl with
    | some l =>
      if !excl && decide (l.gbps + gbps > 1536) then .error 0x020D
      else .ok (p.updVd vd (fun v => { v with links := v.links.map (fun m =>
        if m.node = l.node then { m with modules := m.modules ||| mask, gbps := m.gbps + gbps } else m) }))
    | none =>
      if gbps > 1536 then .error 0x020D
      else .ok (p.updVd vd (fun v => { v with links := v.links ++
        [{ node := p.freshNode, edge := edge, exclusive := excl, modules := mask, gbps := gbps }] }))

/-- Apply an item of a cast-on (R240): the pattern, and the cluster that a REPLACE removes. -/
def Pattern.castItem (p : Pattern) (vd : Nat) (i : SkeinItem) : Except Nat (Pattern × List (Nat × Nat)) :=
  match i.kind with
  | 1 =>
    (match p.vd vd with
     | none => .error 0x0201
     | some v =>
       if i.flags = 0 then .ok (p.updVd vd (fun v => { v with clusters := v.clusters ++ [i.index] }), [])
       else
         match v.clusters[i.value]? with
         | none => .error 0x020D
         | some old => .ok (p.updVd vd (fun v => { v with clusters := v.clusters.set i.value i.index }), [(1, old)]))
  | 2 => (match p.addGroup i.chans (i.flags == 1) with | .ok p => .ok (p, []) | .error c => .error c)
  | 4 => (match p.addLink vd i.index i.value 0 true with | .ok p => .ok (p, []) | .error c => .error c)
  | _ => (match p.addLink vd i.index 0 i.value false with | .ok p => .ok (p, []) | .error c => .error c)

/-- Apply an item of a bind-off (R241): the pattern and the entries that leave it. -/
def Pattern.bindOffItem (p : Pattern) (vd : Nat) (i : SkeinItem) : Except Nat (Pattern × List (Nat × Nat)) :=
  match i.kind with
  | 1 =>
    (match p.vd vd with
     | none => .error 0x0201
     | some v =>
       if hasNat v.clusters i.index then .ok (p.updVd vd (fun v => { v with clusters := dropAll v.clusters i.index }), [(1, i.index)])
       else .error 0x0202)
  | 2 => (match p.removeGroup i.index (i.flags == 2) with
      | .ok (p, cs) => .ok (p, cs.map (fun c => (2, c)))
      | .error c => .error c)
  | 4 =>
    (match (p.vd vd).bind (fun v => v.share i.index true) with
     | none => .error 0x0202
     | some l =>
       if i.value &&& l.modules ≠ i.value then .error 0x0202
       else
         let left := l.modules ^^^ i.value
         let keep (ls : List LinkShare) : List LinkShare :=
           if left = 0 then ls.filter (fun m => decide (m.node ≠ l.node))
           else ls.map (fun m => if m.node = l.node then { m with modules := left } else m)
         .ok (p.updVd vd (fun v => { v with links := keep v.links }),
           (maskModules i.index i.value).map (fun m => (3, m))))
  | _ =>
    (match (p.vd vd).bind (fun v => v.share i.index false) with
     | none => .error 0x0202
     | some l => .ok (p.updVd vd (fun v => { v with links := v.links.filter (fun m => decide (m.node ≠ l.node)) }), []))

/-- Apply items one after another. -/
def applyItems (f : Pattern → SkeinItem → Except Nat (Pattern × List (Nat × Nat))) :
    List SkeinItem → Pattern × List (Nat × Nat) → Except Nat (Pattern × List (Nat × Nat))
  | [], a => .ok a
  | i :: t, a =>
    match f a.1 i with
    | .error c => .error c
    | .ok (p, out) => applyItems f t (p, a.2 ++ out)

/-- Remove a VD with its sub-VDs (R242): the pattern and the entries that leave it. -/
def Pattern.dissolve (p : Pattern) (vd : Nat) : Pattern × List (Nat × Nat) :=
  let gone := p.below vd
  let vs := p.vds.filter (fun v => hasNat gone v.node)
  ({ p with vds := p.vds.filter (fun v => !hasNat gone v.node) },
   vs.flatMap (fun v => v.clusters.map (fun c => (1, c)) ++ v.modules.map (fun m => (3, m))))

end Sys2Proof.Machine
end

