-- ==== Sys2Proof/Machine/Compose.lean ====
section
/-! DEFINITION. Composition commands and commits (R228-R267). -/

namespace Sys2Proof.Machine

-- the stage (R238)

/-- The pattern an edit starts from: the stage, or a copy of the live pattern. -/
def PartSt.staged (x : PartSt) : Pattern := x.stage.getD x.pat

/-- An edit is accepted: the stage, what it removes and whether that ends FREE, and STAGE_SEQ. Entries cast on again leave the
removed list. -/
def State.acceptEdit (s : State) (p : Nat) (pat : Pattern) (out : List (Nat × Nat)) (release : Bool) : State :=
  s.updPart p (fun x =>
    let rel := x.stageRelease.filter (fun r => !(pat.allEntries.any (fun e => decide (e.1 = r.1) && decide (e.2 = r.2.1))))
    let rel := rel.filter (fun r => !(out.any (fun e => decide (e.1 = r.1) && decide (e.2 = r.2.1))))
    { x with stage := some pat, stageSeq := (x.stageSeq + 1) % 2 ^ 32, stageRelease := rel ++ out.map (fun e => (e.1, e.2, release)) })

/-- Run an edit command: STAGE_LOCKED while a commit runs, then the edit's own checks (R238). -/
def State.edit (s : State) (ch p : Nat) (f : State → Except Nat (Pattern × List (Nat × Nat) × Bool × List Byte)) : State :=
  if (s.part p).commit.isSome then s.refuse ch 0x020F
  else
    match f s with
    | .error c => s.refuse ch c
    | .ok (pat, out, release, res) => (s.acceptEdit p pat out release).done ch res

/-- VD_DEFINE (R242). -/
def execVdDefine (ch : Fin 5) (pkt : List Byte) (s : State) : Host.Outcome State Fault Refusal :=
  .next (s.admCommand ch pkt (isOp 0x0201) (fun s b =>
    let p := pktTarget b
    s.edit ch p (fun s =>
      let pat := (s.part p).staged
      let n := pat.freshNode
      if par b 2 1 > 3 ∨ !parZero b 3 5 then .error 0x0003
      else if par b 0 2 ≠ 0 ∧ !pat.isVd (par b 0 2) then .error 0x0201
      else if pat.nodes + 1 > 4096 then .error 0x0204
      else
        let v : VdNode := { node := n, parent := par b 0 2, route03 := (par b 2 1).testBit 0, route12 := (par b 2 1).testBit 1 }
        .ok ({ pat with vds := pat.vds ++ [v] }, [], false, leBytes 2 n))))

/-- VD_DISSOLVE (R242). -/
def execVdDissolve (ch : Fin 5) (pkt : List Byte) (s : State) : Host.Outcome State Fault Refusal :=
  .next (s.admCommand ch pkt (isOp 0x0206) (fun s b =>
    let p := pktTarget b
    s.edit ch p (fun s =>
      let pat := (s.part p).staged
      if par b 2 1 > 1 ∨ !parZero b 3 5 then .error 0x0003
      else if !pat.isVd (par b 0 2) then .error 0x0201
      else
        let r := pat.dissolve (par b 0 2)
        .ok (r.1, r.2, par b 2 1 == 1, []))))

/-- VD 0 only when every item is a group or a channel; otherwise a VD of the stage (R239). -/
def vdNamed (pat : Pattern) (vd : Nat) (items : List SkeinItem) : Bool :=
  if vd = 0 then items.all (fun i => i.kind == 2) else pat.isVd vd

/-- VD_BIND_OFF (R241, R245). -/
def execVdBindOff (ch : Fin 5) (pkt : List Byte) (s : State) : Host.Outcome State Fault Refusal :=
  .next (s.admCommand ch pkt (isOp 0x0203) (fun s b =>
    let p := pktTarget b
    s.edit ch p (fun s =>
      let pat := (s.part p).staged
      match parseItems b false with
      | none => .error 0x020D
      | some items =>
        if !vdNamed pat (par b 0 2) items then .error 0x0201
        else
          match applyItems (fun q i => q.bindOffItem (par b 0 2) i) items (pat, []) with
          | .error c => .error c
          | .ok (q, out) => if q.nodes > 4096 then .error 0x0204 else .ok (q, out, par b 4 1 == 1, []))))

-- VD_CAST_ON (R229, R240)

/-- An entry a cast-on may name (R229): FREE, or BOUND to the partition and held by neither live pattern nor stage. One that the latest
commit removed is not idle: it passes through the strip engine first (R230). -/
def State.castable (s : State) (p kind i : Nat) : Bool :=
  let e := s.entry kind i
  let x := s.part p
  (kind != 3 || s.lmUp i) && !e.isOut &&
  match e.state with
  | .free => true
  | .bound => decide (e.owner = p) && !hasNat (x.pat.entries kind) i && !hasNat (x.staged.entries kind) i
      && !x.leaving.any (fun l => decide (l.1 = kind) && decide (l.2.1 = i))
  | _ => false

/-- Two entries of a list are equal. -/
def dupPair : List (Nat × Nat) → Bool
  | [] => false
  | x :: t => t.any (fun y => decide (y = x)) || dupPair t

/-- Entries of a cast-on that are FREE now. -/
def State.freshOf (s : State) (es : List (Nat × Nat)) : List (Nat × Nat) :=
  es.filter (fun e => decide ((s.entry e.1 e.2).state = .free))

/-- The share ceiling of a port for a kind (R286). -/
def PrsSt.ceiling (r : PrsSt) (port kind : Nat) : Nat :=
  let v := fieldAt r.regs (0x10 + 4 * port) 4
  if kind = 1 then bitsAt v 7 0 else if kind = 2 then bitsAt v 16 8 else bitsAt v 28 24

/-- Entries of a kind that count against a port's ceiling (R286). -/
def State.portHeld (s : State) (kind port : Nat) : Nat :=
  (s.parts.filter (fun e => e.2.present && decide (e.2.desc.ownerPort = port))).foldl (fun a e => a + s.held kind e.1) 0

/-- A partition's cap for a kind (R277). -/
def PartDesc.cap (d : PartDesc) (kind : Nat) : Nat := if kind = 1 then d.clusterCap else if kind = 2 then d.channelCap else d.linkCap

/-- Binding `n` more entries of a kind stays within the partition's cap and the owner port's ceiling (R229, R280, R286). -/
def State.bindFits (s : State) (p kind n : Nat) : Bool :=
  let d := (s.part p).desc
  n == 0 || (decide (s.held kind p + n ≤ d.cap kind) && decide (s.portHeld kind d.ownerPort + n ≤ s.prs.ceiling d.ownerPort kind))

/-- Entries of a kind in a list. -/
def countKind (kind : Nat) (es : List (Nat × Nat)) : Nat := (es.filter (fun e => decide (e.1 = kind))).length

/-- Pooled modules of an edge (R248): in service and FREE. -/
def State.pooledModules (s : State) (edge : Nat) : List Nat :=
  (natRange (6 * edge) 6).filter (fun m => s.lmUp m && decide ((s.lmEntry m).state = .free))

/-- Pooled guarantees of a pattern on an edge. -/
def Pattern.pooled (p : Pattern) (edge : Nat) : Nat :=
  (p.vds.flatMap (fun v => v.links)).foldl (fun a l => if !l.exclusive && decide (l.edge = edge) then a + l.gbps else a) 0

/-- The pooled guarantees that a partition is admitted to on an edge: those of its live pattern, and of the one a commit that has passed its
check is about to publish. -/
def PartSt.admitted (x : PartSt) (edge : Nat) : Nat :=
  match x.commit, x.stage with
  | some c, some g => if c.checked then max (x.pat.pooled edge) (g.pooled edge) else x.pat.pooled edge
  | _, _ => x.pat.pooled edge

/-- The guarantees admitted on an edge, with partition `p` counted by a pattern (R248). -/
def State.guarantees (s : State) (p : Nat) (pat : Pattern) (edge : Nat) : Nat :=
  (s.parts.filter (fun e => decide (e.1 ≠ p))).foldl (fun a e => a + e.2.admitted edge) (pat.pooled edge)

/-- An exclusive cast-on would leave too few pooled modules for the guarantees admitted (R248). -/
def State.castShort (s : State) (p : Nat) (fresh : List (Nat × Nat)) : Bool :=
  (natRange 0 4).any (fun e =>
    let took := (fresh.filter (fun x => decide (x.1 = 3) && decide (lmEdge x.2 = e))).length
    decide (0 < took) && decide (256 * ((s.pooledModules e).length - took) < s.guarantees p (s.part p).pat e))

/-- The checks of a VD_CAST_ON in the order of R229: the new stage, what leaves it, and the entries to bind. -/
def State.castCheck (s : State) (p : Nat) (b : List Byte) : Except Nat (Pattern × List (Nat × Nat) × List (Nat × Nat)) :=
  let pat := (s.part p).staged
  let vd := par b 0 2
  match parseItems b true with
  | none => .error 0x020D
  | some items =>
    if !vdNamed pat vd items then .error 0x0201
    else
      let names := items.flatMap SkeinItem.names
      if !names.all (fun e => s.castable p e.1 e.2) ∨ dupPair (names.filter (fun e => decide (e.1 ≠ 2))) then .error 0x0202
      else
        match applyItems (fun q i => q.castItem vd i) (items.filter (fun i => decide (i.kind = 2))) (pat, []) with
        | .error c => .error c
        | .ok _ =>
          match applyItems (fun q i => q.castItem vd i) items (pat, []) with
          | .error c => .error c
          | .ok (q, out) =>
            let fresh := s.freshOf names
            if s.castShort p fresh then .error 0x0206
            else if !([1, 2, 3].all (fun k => s.bindFits p k (countKind k fresh))) then .error 0x0203
            else if q.nodes > 4096 then .error 0x0204
            else .ok (q, out, fresh)

/-- The FREE entries of a cast-on pass through STRIPPING to BOUND. -/
def State.bindAll (s : State) (p : Nat) (fresh : List (Nat × Nat)) : State :=
  fresh.foldl (fun s e => s.startStrip e.1 e.2 p true) s

/-- Entries that the accepted VD_CAST_ON of a channel named. -/
def State.castNames (s : State) (ch : Nat) : List (Nat × Nat) :=
  match parseItems (s.admch ch).copy true with | some items => items.flatMap SkeinItem.names | none => []

/-- Reply to a VD_CAST_ON whose entries have all left STRIPPING (R229). -/
def State.castSettle (s : State) (ch : Nat) : State :=
  let a := s.admch ch
  if a.running && a.started && pktOp a.copy == 0x0202
      && !(s.castNames ch).any (fun e => decide ((s.entry e.1 e.2).state = .stripping)) then s.done ch []
  else s

/-- VD_CAST_ON (R229, R240). -/
def execVdCastOn (ch : Fin 5) (pkt : List Byte) (s : State) : Host.Outcome State Fault Refusal :=
  .next (s.admCommand ch pkt (isOp 0x0202) (fun s b =>
    let p := pktTarget b
    if (s.part p).commit.isSome then s.refuse ch 0x020F
    else
      match s.castCheck p b with
      | .error c => s.refuse ch c
      | .ok (q, out, fresh) => ((s.acceptEdit p q out (par b 4 1 == 1)).bindAll p fresh).castSettle ch))

/-- VD_QUERY (R243). -/
def execVdQuery (ch : Fin 5) (pkt : List Byte) (s : State) : Host.Outcome State Fault Refusal :=
  .next (s.admCommand ch pkt (isOp 0x0205) (fun s b =>
    let x := s.part (pktTarget b)
    let first := par b 0 2
    let n := par b 2 2
    if par b 4 1 > 1 ∨ !parZero b 5 3 then s.refuse ch 0x0003
    else if n < 1 ∨ n > 127 ∨ first + n > 4096 then s.refuse ch 0x0005
    else
      let pat := if par b 4 1 = 0 then x.pat else x.staged
      s.done ch (leBytes 2 x.revision ++ zeros 2 ++ leBytes 4 x.stageSeq ++ leBytes 4 x.movedLast ++ leBytes 4 x.refusedLast
        ++ (natRange first n).flatMap (fun i => pat.nodeBytes i x.revision x.stageSeq x.pat.isVd x.vdBusy))))

-- the check of a commit (R252)

/-- VDs that hold any of the entries; a channel concerns every VD. -/
def Pattern.concerned (p : Pattern) (es : List (Nat × Nat)) : List Nat :=
  if es.any (fun e => decide (e.1 = 2)) then p.vds.map (fun v => v.node)
  else (p.vds.filter (fun v => es.any (fun e => if e.1 = 1 then hasNat v.clusters e.2 else hasNat v.modules e.2))).map (fun v => v.node)

/-- An entry that a commit may publish: bound to the partition and not under tape-off. A link module that is out of service for good is left
to the check of link shares, whose refusal R31 and R247 name (DEDUCED, log entry 80). -/
def State.publishable (s : State) (p : Nat) (e : Nat × Nat) : Bool :=
  let x := s.entry e.1 e.2
  if e.1 = 3 && x.isOut then true
  else decide (x.state = .bound) && decide (x.owner = p) && !x.isOut
    && !(if e.1 = 1 then s.clTaped e.2 else if e.1 = 2 then s.chTaped e.2
         else s.dieTaped (edgeDies (lmEdge e.2)).1 || s.dieTaped (edgeDies (lmEdge e.2)).2)

/-- PLA ranges of a map. -/
def Pattern.ranges (p : Pattern) : List (Nat × Nat) := p.map.map (fun i => (i.base, i.base + i.len))

/-- Edges on which a pattern's shares break R247 or R248: the sum of the guarantees is checked where the pattern has a pooled share or takes
modules out of the pool. -/
def State.shortEdges (s : State) (p : Nat) (pat : Pattern) : List Nat :=
  (natRange 0 4).filter (fun e =>
    let mods := (pat.entries 3).filter (fun m => decide (lmEdge m = e))
    mods.any (fun m => !s.lmUp m) || dupNat mods
      || ((decide (0 < pat.pooled e) || mods.any (fun m => !hasNat ((s.part p).pat.entries 3) m)) && decide (256 * (s.pooledModules e).length < s.guarantees p pat e)))

/-- VDs with a packet of a type in progress whose N changes. -/
def PartSt.reshaped (x : PartSt) (pat : Pattern) (typ : Nat) : List (Nat × Nat) :=
  x.ctxs.flatMap (fun e =>
    if e.2.packets.any (fun r => decide (r.typ = typ)) && decide (x.pat.size e.2.vd ≠ pat.size e.2.vd) then [(e.1, e.2.vd)] else [])

/-- Contexts whose programs in progress the pattern no longer fits (R252, R88, R201). -/
def State.misfits (s : State) (p : Nat) (pat : Pattern) : List Nat :=
  let x := s.part p
  let t := s.updPart p (fun x => { x with pat := pat })
  (x.ctxs.filter (fun e => e.2.packets.any (fun r => r.resident && (r.typ == 1 || r.typ == 2) &&
    (if r.typ = 2 ∧ x.pat.size e.2.vd ≠ pat.size e.2.vd then (t.reshapeImage p e.1 r (pat.size e.2.vd)).isNone
     else decide (pat.space < r.plaMin) || decide (t.linkShareOf pat e.2.vd < r.linkMin))))).map (fun e => e.2.vd)

/-- The consistency check of R252, in table order: the first failure's code and the VDs it concerns. -/
def State.commitCheck (s : State) (p : Nat) (pat : Pattern) : Option (Nat × List Nat) :=
  let x := s.part p
  let all := pat.vds.map (fun v => v.node)
  let bad := pat.allEntries.filter (fun e => !s.publishable p e)
  let short := s.shortEdges p pat
  let launches := x.reshaped pat 1
  let noImage := (x.reshaped pat 2).filter (fun e =>
    (x.ctx e.1).packets.any (fun r => decide (r.typ = 2) && (s.readSet p e.1 (fieldAt r.bytes 0x20 8) (pat.size e.2)).isNone))
  let mis := s.misfits p pat
  if !bad.isEmpty then some (0x0202, pat.concerned bad)
  else if dupNat (pat.entries 1) then some (0x020D, all)
  else if !pat.map.all (fun i => i.chans.isEmpty || (groupSizeOk i.chans.length)) || dupNat (pat.entries 2) || !rangesApart pat.ranges
  then some (0x0205, all)
  else if !short.isEmpty then
    some (0x0206, (pat.vds.filter (fun v => v.links.any (fun l => hasNat short l.edge))).map (fun v => v.node))
  else if pat.nodes > 4096 then some (0x0204, all)
  else if !launches.isEmpty then some (0x020A, launches.map (fun e => e.2))
  else if !noImage.isEmpty then some (0x0209, noImage.map (fun e => e.2))
  else if !mis.isEmpty then some (0x020B, mis)
  else none

/-- REASON of VDs (R252, R373). -/
def Pattern.setReason (p : Pattern) (vds : List Nat) (code : Nat) : Pattern :=
  { p with vds := p.vds.map (fun v => if hasNat vds v.node then { v with reason := code } else v) }

/-- A commit fails its check: REASON of the VDs concerned, nothing published. -/
def State.commitFails (s : State) (ch p code : Nat) (vds : List Nat) : State :=
  (s.updPart p (fun x => { x with pat := x.pat.setReason vds code, stage := x.stage.map (fun g => g.setReason vds code),
                                  commit := none })).refuse ch code

/-- Resident contexts whose VD gains or loses clusters. -/
def PartSt.moving (x : PartSt) (pat : Pattern) : List Nat :=
  (x.ctxs.filter (fun e => e.2.resident && decide (x.pat.clusters e.2.vd ≠ pat.clusters e.2.vd))).map (fun e => e.1)

/-- Step 3 of R253: the contexts that a commit changes freeze. -/
def State.commitFreeze (s : State) (p : Nat) (pat : Pattern) : State :=
  let s := s.updPart p (fun x => { x with commit := x.commit.map (fun c => { c with frozen := true }) })
  ((s.part p).moving pat).foldl (fun s c => if (s.ctx p c).frozen then s else s.freezeCtx p c) s

/-- Steps 2 and 3 of R253 for a commit that has passed its check: it waits for the previous grace window, then freezes. -/
def State.commitGoes (s : State) (p : Nat) : State :=
  let x := s.part p
  match x.commit, x.stage with
  | some c, some pat => if c.checked && !c.frozen && x.prev.isNone then s.commitFreeze p pat else s
  | _, _ => s

/-- Results of VD_COMMIT (R251). -/
def PartSt.commitResult (x : PartSt) : List Byte := leBytes 2 x.revision ++ zeros 2 ++ leBytes 4 x.stageSeq

/-- Fields of VD_COMMIT. -/
def commitFieldsOk (b : List Byte) : Bool := decide (par b 4 1 ≤ 1) && parZero b 5 3

/-- VD_COMMIT (R251-R253): the check, then the freezes; COMMIT_PUBLISH does the rest. -/
def execVdCommit (ch : Fin 5) (pkt : List Byte) (s : State) : Host.Outcome State Fault Refusal :=
  .next (s.admCommand ch pkt (fun b => isOp 0x0204 b && !(par b 4 1).testBit 0) (fun s b =>
    let p := pktTarget b
    let x := s.part p
    if !commitFieldsOk b then s.refuse ch 0x0003
    else if par b 0 4 ≠ x.stageSeq then s.refuse ch 0x0208
    else
      match x.stage with
      | none => s.done ch x.commitResult
      | some pat =>
        match s.commitCheck p pat with
        | some (code, vds) => s.commitFails ch p code vds
        | none => (s.updPart p (fun x => { x with commit := some { ch := ch } })).commitGoes p))

/-- VD_COMMIT with DISCARD (R251). -/
def execVdCommitDiscard (ch : Fin 5) (pkt : List Byte) (s : State) : Host.Outcome State Fault Refusal :=
  .next (s.admCommand ch pkt (fun b => isOp 0x0204 b && (par b 4 1).testBit 0) (fun s b =>
    let p := pktTarget b
    let x := s.part p
    if !commitFieldsOk b then s.refuse ch 0x0003
    else if par b 0 4 ≠ x.stageSeq then s.refuse ch 0x0208
    else
      let s := if x.stage.isNone then s else
        s.updPart p (fun x => { x with stage := none, stageRelease := [], stageSeq := (x.stageSeq + 1) % 2 ^ 32 })
      s.done ch (s.part p).commitResult))

-- publishing (R253 steps 4 to 7)

/-- Entries that a commit removed enter the strip engine (R230, R253 step 9). -/
def State.stripLeaving (s : State) (p : Nat) : State :=
  ((s.part p).leaving.foldl (fun s e => s.startStrip e.1 e.2.1 p (!e.2.2)) s).updPart p (fun x => { x with leaving := [] })

/-- Kept draw counters and ISSUED counts of virtual clusters at or above a new N are dropped (R566). -/
def CtxSt.trimKept (x : CtxSt) (n : Nat) : CtxSt :=
  { x with draws := x.draws.filter (fun e => decide (e.1 / 128 < n)), issuedKeep := x.issuedKeep.filter (fun e => decide (e.1 / 32 < n)) }

/-- The new pattern is live: the previous one stands until the grace window closes (R253 steps 4 and 5). -/
def PartSt.flip (x : PartSt) (pat : Pattern) (c : CommitRun) : PartSt :=
  let pat := pat.setReason (pat.vds.map (fun v => v.node)) 0
  { x with pat := pat, prev := some x.pat, revision := (x.revision + 1) % 65536, stage := none, stageSeq := (x.stageSeq + 1) % 2 ^ 32,
           movedLast := 0, leaving := x.leaving ++ x.stageRelease, stageRelease := [], commit := none,
           takeSet := if c.take then x.takeSet ++ c.whole else x.takeSet,
           ctxs := x.ctxs.map (fun e => (e.1, if x.pat.size e.2.vd = pat.size e.2.vd then e.2 else e.2.trimKept (pat.size e.2.vd))) }

/-- Publish a commit (R253 steps 4 to 7, R260-R264). -/
def State.publish (s : State) (p : Nat) (pat : Pattern) (c : CommitRun) : State :=
  let x := s.part p
  if pat = x.pat then
    let s := s.updPart p (fun x => { x with pat := pat.setReason (pat.vds.map (fun v => v.node)) 0, stage := none, stageSeq := (x.stageSeq + 1) % 2 ^ 32, leaving := x.leaving ++ x.stageRelease,
                                            stageRelease := [], commit := none })
    (s.stripLeaving p).done c.ch (s.part p).commitResult
  else
    let moved := x.moving pat
    let s := s.updPart p (fun x => x.flip pat c)
    let s := s.done c.ch (if pktOp (s.admch c.ch).copy = 0x0204 then (s.part p).commitResult else [])
    moved.foldl (fun s k => s.recast p k) s

/-- COMMIT_PUBLISH (R253): once the previous window has closed and every freeze is complete. A whole-device take is checked here,
when its entries are BOUND. -/
def execCommitPublish (p : Fin 64) (s : State) : Host.Outcome State Fault Refusal :=
  let x := s.part p
  match x.commit, x.stage with
  | some c, some pat =>
    let strips := c.whole.any (fun e => decide ((s.entry e.1 e.2).state = .stripping))
    if strips then .next s
    else
      match (if c.checked then none else s.commitCheck p pat) with
      | some (code, vds) => .next ((s.updPart p (fun x => { x with stage := none })).commitFails c.ch p code vds)
      | none =>
        let s := (s.updPart p (fun x => { x with commit := some { c with checked := true } })).commitGoes p
        .next (if x.prev.isNone && (x.moving pat).all (fun k => s.freezeDone p k) then s.publish p pat { c with checked := true } else s)
  | _, _ => .next s

/-- GRACE_WINDOW_CLOSE (R253 steps 8 and 9). -/
def execGraceWindowClose (p : Fin 64) (s : State) : Host.Outcome State Fault Refusal :=
  .next (if (s.part p).prev.isNone then s
    else ((s.updPart p (fun x => { x with prev := none, refusedLast := 0, windowClosedAt := some s.ticks })).stripLeaving p).commitGoes p)

/-- REVISION_EXPIRED_NOTICE (R257). -/
def execRevisionExpiredNotice (p : Fin 64) (s : State) : Host.Outcome State Fault Refusal :=
  let x := s.part p
  if x.windowClosedAt.isNone then .next s
  else
    let s := s.updPart p (fun x => { x with windowClosedAt := none })
    .next (if x.refusedLast = 0 then s
      else s.notice p 0 0x8201 0xFFFF (leBytes 4 x.refusedLast ++ leBytes 2 x.revision ++ zeros 8))

-- the whole device (R265-R267)

/-- FREE entries of a kind in service. -/
def State.freeOf (s : State) (kind n : Nat) : List Nat :=
  (natRange 0 n).filter (fun i => decide ((s.entry kind i).state = .free) && !(s.entry kind i).isOut && (kind != 3 || s.lmUp i))

/-- Cut a die's channels into groups of falling powers of two, each at most 64 (R266). -/
def powerGroups : Nat → List Nat → List (List Nat)
  | 0, _ => []
  | fuel + 1, l =>
    if l.isEmpty then []
    else
      let g := min 64 (2 ^ l.length.log2)
      l.take g :: powerGroups fuel (l.drop g)

/-- The pattern a take composes (R266). -/
def Pattern.takeAll (pat : Pattern) (vd : Nat) (cls chs lms : List Nat) : Except Nat Pattern :=
  let pat := pat.updVd vd (fun v => { v with clusters := v.clusters ++ cls })
  let groups := (natRange 0 4).flatMap (fun d => let l := chs.filter (fun c => decide (chDie c = d)); powerGroups l.length l)
  match groups.foldl (fun a g => match a with | .ok p => p.addGroup g false | .error c => .error c) (.ok pat : Except Nat Pattern) with
  | .error c => .error c
  | .ok pat =>
    (natRange 0 4).foldl (fun a e =>
      match a with
      | .error c => .error c
      | .ok p =>
        let mask := lms.foldl (fun m x => if lmEdge x = e then m + 2 ^ (x % 6) else m) 0
        if mask = 0 then .ok p else p.addLink vd e mask 0 true) (.ok pat : Except Nat Pattern)

/-- Checks that a take and a release share: reserved bytes, the VD, VD_BUSY. -/
def State.wholeCheck (s : State) (p : Nat) (b : List Byte) : Option Nat :=
  let x := s.part p
  if !parZero b 2 6 then some 0x0003
  else if !x.pat.isVd (par b 0 2) then some 0x0201
  else none

/-- WHOLE_DEVICE_TAKE (R265, R266). -/
def execWholeDeviceTake (ch : Fin 5) (pkt : List Byte) (s : State) : Host.Outcome State Fault Refusal :=
  .next (s.admCommand ch pkt (isOp 0x0207) (fun s b =>
    let p := pktTarget b
    let x := s.part p
    let cls := s.freeOf 1 192; let chs := s.freeOf 2 320; let lms := s.freeOf 3 24
    match s.wholeCheck p b with
    | some c => s.refuse ch c
    | none =>
      if !(s.entriesWhere (fun e => decide (e.state = .bound) && decide (e.owner ≠ p))).isEmpty then s.refuse ch 0x020C
      else if x.vdBusy (par b 0 2) then s.refuse ch 0x020A
      else if x.stage.isSome then s.refuse ch 0x020F
      else if !(s.bindFits p 1 cls.length && s.bindFits p 2 chs.length && s.bindFits p 3 lms.length) then s.refuse ch 0x0203
      else if s.castShort p (lms.map (fun i => (3, i))) then s.refuse ch 0x0206
      else
        match x.pat.takeAll (par b 0 2) cls chs lms with
        | .error c => s.refuse ch c
        | .ok pat =>
          let es := cls.map (fun i => (1, i)) ++ chs.map (fun i => (2, i)) ++ lms.map (fun i => (3, i))
          (s.updPart p (fun x => { x with stage := some pat, commit := some { ch := ch, checked := false, take := true, whole := es } })).bindAll p es))

/-- A VD without the clusters and exclusive modules of a take. -/
def VdNode.releaseOwn (has : Nat → Nat → Bool) (v : VdNode) : VdNode :=
  let cut (l : LinkShare) : LinkShare :=
    if l.exclusive then
      { l with modules := (natRange 0 6).foldl (fun m i => if l.modules.testBit i && !has 3 (6 * l.edge + i) then m + 2 ^ i else m) 0 }
    else l
  { v with clusters := v.clusters.filter (fun c => !has 1 c),
           links := (v.links.map cut).filter (fun l => !l.exclusive || decide (l.modules ≠ 0)) }

/-- The pattern without the entries of a take (R267): groups among them go topmost first; a group that shares channels with
others stays. -/
def Pattern.releaseAll (pat : Pattern) (es : List (Nat × Nat)) : Pattern :=
  let has (k i : Nat) : Bool := es.any (fun e => decide (e = (k, i)))
  let pat : Pattern := { vds := pat.vds.map (VdNode.releaseOwn has), map := pat.map, top := pat.top }
  let gone := (pat.map.filter (fun i => !i.chans.isEmpty && i.chans.all (has 2))).map (fun i => i.node)
  gone.reverse.foldl (fun p n => match p.removeGroup n true with | .ok (q, _) => q | .error _ => p) pat

/-- WHOLE_DEVICE_RELEASE (R267). -/
def execWholeDeviceRelease (ch : Fin 5) (pkt : List Byte) (s : State) : Host.Outcome State Fault Refusal :=
  .next (s.admCommand ch pkt (isOp 0x0208) (fun s b =>
    let p := pktTarget b
    let x := s.part p
    match s.wholeCheck p b with
    | some c => s.refuse ch c
    | none =>
      if x.vdBusy (par b 0 2) then s.refuse ch 0x020A
      else if x.stage.isSome then s.refuse ch 0x020F
      else
        let es := x.takeSet.filter (fun e =>
          let y := s.entry e.1 e.2; decide (y.owner = p) && decide (y.state = .bound))
        let pat := x.pat.releaseAll es
        match s.commitCheck p pat with
        | some (code, vds) => s.commitFails ch p code vds
        | none =>
          let out := es.filter (fun e => !hasNat (pat.entries e.1) e.2)
          (s.updPart p (fun x => { x with stage := some pat, takeSet := [], commit := some { ch := ch },
                                          stageRelease := out.map (fun e => (e.1, e.2, true)) })).commitGoes p))

end Sys2Proof.Machine
end

