-- ==== Sys2Proof/Machine/Work.lean ====
section
/-! DEFINITION. Work packets that the sequencers and the hub carry out: FILL, SIGNAL, WAIT, BARRIER, REF_ADD, REF_DROP and NOP
(R389-R403, R411, R412). COPY and the KV transfers have files of their own. -/

namespace Sys2Proof.Machine

/-- What a sequencer's access that does not complete does: a translation fault waits for the host, with the packet in progress;
a code fails the packet. -/
def State.workFails (s : State) (p c q addr : Nat) : AccErr → State
  | .xlate e =>
    let hub := match (s.queue p c q).cur with | some r => r.typ == 0x0B || r.typ == 0x0C | none => false
    s.packetFault p c q addr (if hub then 3 else 2) e
  | .code k => s.packetFail p c q k

/-- FILL (R395): its bytes are performed by COPY_COMPLETE. -/
def execFill (q : QRef) (s : State) : Host.Outcome State Fault Refusal :=
  .next (s.startPacket q (fun b => pkTyp b == 4)
    (fun s b =>
      let dst := pay b 0 8; let n := pay b 8 8
      (s, if !payZero b 0x18 40 ∨ !plaOrVa dst ∨ dst % 8 ≠ 0 ∨ n % 8 ≠ 0 ∨ n < 8 ∨ n > 2 ^ 40 then some 0x0401 else none))
    (fun s _ => s))

/-- A fence handle that must name a live fence. -/
def State.fenceCode (s : State) (p h : Nat) : Option Nat := match s.handleIdx p 3 h with | .ok _ => none | .error c => some c

/-- SIGNAL (R399). -/
def execSignal (q : QRef) (s : State) : Host.Outcome State Fault Refusal :=
  .next (s.startPacket q (fun b => pkTyp b == 5)
    (fun s b => (s, if !payZero b 4 4 ∨ !payZero b 16 48 then some 0x0401
      else match s.fenceCode q.part (pay b 0 4) with
        | some k => some k
        | none => if bitAt (pay b 8 8) 63 then some 0x0405 else none))
    (fun s b => (s.fenceSignal q.part (pay b 0 4) (pay b 8 8) q.ctx).packetDone q.part q.ctx q.queue))

/-- A WAIT looks at its fence (R401, R403): it completes, fails with the fence's error, or goes on waiting. -/
def State.waitLook (s : State) (p c q : Nat) (b : List Byte) : State :=
  match s.handleIdx p 3 (pay b 0 4) with
  | .error _ => s.packetFail p c q 0x8402
  | .ok i =>
    let v := fieldAt (s.fenceRec p i) 0 8
    if v.testBit 63 then
      (if (pay b 4 1).testBit 0 then s.packetDone p c q else s.packetFail p c q (v % 65536))
    else if pay b 8 8 ≤ v then s.packetDone p c q
    else s

/-- WAIT (R389, R401): a fence that satisfies it already completes it at once. -/
def execWait (q : QRef) (s : State) : Host.Outcome State Fault Refusal :=
  .next (s.startPacket q (fun b => pkTyp b == 6)
    (fun s b => (s, if !payZero b 5 3 ∨ !payZero b 16 48 ∨ pay b 4 1 > 1 then some 0x0401 else s.fenceCode q.part (pay b 0 4)))
    (fun s b => s.waitLook q.part q.ctx q.queue b))

/-- WAIT_SATISFIED (R401, R403, R438): a waiting WAIT looks at its fence again, unless the partition is FROZEN. -/
def execWaitSatisfied (q : QRef) (s : State) : Host.Outcome State Fault Refusal :=
  match s.runningPacket q 6 with
  | none => .next s
  | some r => .next (if (s.part q.part).pstate = .frozen then s else s.waitLook q.part q.ctx q.queue r.bytes)

/-- BARRIER (R389, R391): in progress until every packet the context started before it is complete. -/
def execBarrier (q : QRef) (s : State) : Host.Outcome State Fault Refusal :=
  .next (s.startPacket q (fun b => pkTyp b == 7) (fun s _ => (s, none)) (fun s _ => s))

/-- BARRIER_COMPLETE (R391): every packet the context started before it is complete, and no write of a run that has ended is left to be
performed. -/
def execBarrierComplete (q : QRef) (s : State) : Host.Outcome State Fault Refusal :=
  match s.runningPacket q 7 with
  | none => .next s
  | some r =>
    let x := s.ctx q.part q.ctx
    let earlier := x.qs.any (fun e => match e.2.cur with | some y => decide (y.order < r.order) | none => false)
    let writes := s.writes.any (fun w => w.orphan && w.part == q.part.val && w.ctx == q.ctx.val)
    .next (if earlier ∨ writes ∨ (s.part q.part).pstate = .frozen then s else s.packetDone q.part q.ctx q.queue)

-- reference tables (R411, R412)

/-- PLA of a context's reference table (R380). -/
def DirSt.refs (d : DirSt) (c : Nat) : Nat := d.base + 0x50000 + 4096 * c

/-- A context's reference table as memory holds it. -/
def State.refTable (s : State) (p c : Nat) : List Byte :=
  match (s.part p).dir with | some d => s.plaRead p (d.refs c) 4096 | none => zeros 4096

/-- A context's reference table is read out of the host's caches, before what it says is acted on (R322). -/
def State.refSync (s : State) (p c : Nat) : State := match (s.part p).dir with | some d => s.plaSync p (d.refs c) 4096 | none => s

/-- COUNT of the entry of an object, 0 where none is listed. -/
def refCount (t : List Byte) (i : Nat) : Nat :=
  match (natRange 0 512).find? (fun k => decide (fieldAt t (8 * k) 2 = i ∧ fieldAt t (8 * k + 4) 4 ≠ 0)) with
  | some k => fieldAt t (8 * k + 4) 4
  | none => 0

/-- The place of an object's entry: its own, or the first free one. -/
def refPlace (t : List Byte) (i : Nat) : Option Nat :=
  match (natRange 0 512).find? (fun k => decide (fieldAt t (8 * k) 2 = i ∧ fieldAt t (8 * k + 4) 4 ≠ 0)) with
  | some k => some k
  | none => (natRange 0 512).find? (fun k => fieldAt t (8 * k + 4) 4 == 0)

/-- Set a context's entry for an object. -/
def State.refPut (s : State) (p c i n : Nat) : State :=
  match (s.part p).dir, refPlace (s.refTable p c) i with
  | some d, some k => s.plaWrite p (d.refs c + 8 * k) (if n = 0 then zeros 8 else leBytes 2 i ++ zeros 2 ++ leBytes 4 n)
  | _, _ => s

/-- Fields of REF_ADD and REF_DROP. -/
def refPacketOk (b : List Byte) : Bool := decide (1 ≤ pay b 4 4) && decide (pay b 4 4 ≤ 65535) && payZero b 8 56

/-- REF_ADD (R390, R412). -/
def execRefAdd (q : QRef) (s : State) : Host.Outcome State Fault Refusal :=
  let p := q.part.val; let c := q.ctx.val
  .next (s.startPacket q (fun b => pkTyp b == 8)
    (fun s b => (s, if !refPacketOk b then some 0x0401
      else match s.handleIdx p 4 (pay b 0 4) with
        | .error k => some k
        | .ok i => if bitAt (fieldAt (s.memRec p i) 0x18 1) 2 then some 0x0404
                   else if (refPlace (s.refTable p c) i).isNone then some 0x040A else none))
    (fun s b =>
      let s := s.refSync p c
      match s.handleIdx p 4 (pay b 0 4) with
      | .ok i => ((s.memAdd p i (pay b 4 4)).refPut p c i (refCount (s.refTable p c) i + pay b 4 4)).packetDone p c q.queue
      | .error _ => s))

/-- REF_DROP (R390, R412, R413). -/
def execRefDrop (q : QRef) (s : State) : Host.Outcome State Fault Refusal :=
  let p := q.part.val; let c := q.ctx.val
  .next (s.startPacket q (fun b => pkTyp b == 9)
    (fun s b => (s, if !refPacketOk b then some 0x0401
      else match s.handleIdx p 4 (pay b 0 4) with
        | .error k => some k
        | .ok i => if pay b 4 4 > refCount (s.refTable p c) i ∨ pay b 4 4 > fieldAt (s.memRec p i) 0x10 4 then some 0x040A
                   else none))
    (fun s b =>
      let s := s.refSync p c
      match s.handleIdx p 4 (pay b 0 4) with
      | .ok i => ((s.refPut p c i (refCount (s.refTable p c) i - pay b 4 4)).memDrop p i (pay b 4 4) c).packetDone p c q.queue
      | .error _ => s))

/-- NOP (R389). -/
def execNop (q : QRef) (s : State) : Host.Outcome State Fault Refusal :=
  .next (s.startPacket q (fun b => pkTyp b == 0x0D) (fun s _ => (s, none)) (fun s _ => s.packetDone q.part q.ctx q.queue))

end Sys2Proof.Machine
end

