-- ==== Sys2Proof/Machine/Copy.lean ====
section
/-! DEFINITION. COPY and FILL (R395), sealed transfers (R303-R305), and their completion (R391). -/

namespace Sys2Proof.Machine

/-- COPY_FLAGS. -/
def copyFlags (b : List Byte) : Nat := pay b 0x18 1

/-- The checks of every COPY (R395): reserved bits, flags, and addresses. -/
def copyFormOk (b : List Byte) : Bool :=
  decide (copyFlags b < 8) && !((copyFlags b).testBit 1 && (copyFlags b).testBit 2) && payZero b 0x19 3 && payZero b 0x20 32
    && plaOrVa (pay b 0 8) && plaOrVa (pay b 8 8)

/-- The packet is a COPY with or without SEAL and UNSEAL; one with both, which is refused, counts as a plain COPY. -/
def isCopy (sl us : Bool) (b : List Byte) : Bool :=
  let f := copyFlags b
  let both := f.testBit 1 && f.testBit 2
  pkTyp b == 3 && (if both then !sl && !us else f.testBit 1 == sl && f.testBit 2 == us)

/-- COPY (R395). -/
def execCopy (q : QRef) (s : State) : Host.Outcome State Fault Refusal :=
  .next (s.startPacket q (isCopy false false)
    (fun s b => (s, if !copyFormOk b ∨ pay b 0x1C 4 ≠ 0 ∨ pay b 0x10 8 < 1 ∨ pay b 0x10 8 > 2 ^ 40 then some 0x0401 else none))
    (fun s _ => s))

-- sealed buffers (R303, R304)

/-- Plaintext bytes a sealed buffer may hold. -/
def sealMax : Nat := 67108864

/-- An open session of a partition. -/
def State.openSession (s : State) (p id : Nat) : Option Session :=
  s.sessions.find? (fun x => decide (x.id = id) && decide (x.part = p) && !x.closed)

/-- The session a COPY in progress uses. -/
def State.copySession (s : State) (p id : Nat) : Option Session := s.sessions.find? (fun x => decide (x.id = id) && decide (x.part = p))

/-- Change a session. -/
def State.updSession (s : State) (id : Nat) (f : Session → Session) : State :=
  { s with sessions := s.sessions.map (fun x => if x.id = id then f x else x) }

/-- The first 32 bytes of a sealed buffer: its additional data. -/
def sealHead (id seq len p : Nat) : List Byte :=
  leBytes 4 0x4C414553 ++ leBytes 4 id ++ leBytes 8 seq ++ leBytes 8 len ++ leBytes 1 p ++ zeros 7

/-- AES-GCM encryption or decryption of a byte string: the key stream added to it. -/
def gcmXor (key nonce bs : List Byte) : List Byte :=
  (bs.zip (natRange 0 bs.length)).map (fun e => e.1 ^^^ Config.gcmStream key nonce e.2)

/-- The nonce of a sealed buffer (R304). -/
def sealNonce (head : List Byte) : List Byte := (head.drop 4).take 12

/-- COPY with SEAL (R303-R305). -/
def execCopySeal (q : QRef) (s : State) : Host.Outcome State Fault Refusal :=
  .next (s.startPacket q (isCopy true false)
    (fun s b => (s, if !copyFormOk b then some 0x0401
      else if (s.openSession q.part (pay b 0x1C 4)).isNone then some 0x0121
      else if pay b 0x10 8 < 1 ∨ pay b 0x10 8 > sealMax then some 0x0123
      else none))
    (fun s _ => s))

/-- The checks of an UNSEAL on the buffer's header (R304, R305). -/
def unsealCode (x : Session) (p len : Nat) (h : List Byte) : Option Nat :=
  let seq := fieldAt h 8 8
  if len < 1 ∨ len > sealMax ∨ fieldAt h 0x10 8 ≠ len ∨ fieldAt h 0x18 1 ≠ p then some 0x0123
  else if !bitAt seq 63 || (match x.openCount with | some c => decide (seq % 2 ^ 63 ≤ c) | none => false) then some 0x0122
  else none

/-- COPY with UNSEAL (R303-R305): the header is read and its count accepted at the start. -/
def execCopyUnseal (q : QRef) (s : State) : Host.Outcome State Fault Refusal :=
  let p := q.part.val; let c := q.ctx.val
  .next (s.startPacket q (isCopy false true)
    (fun s b =>
      if !copyFormOk b then (s, some 0x0401)
      else match s.openSession p (pay b 0x1C 4) with
        | none => (s, some 0x0121)
        | some x =>
          match s.agentRead p c (pay b 0 8) 64 true with
          | (s, .error (.xlate e)) => (s.agentFault p c (pay b 0 8) 3 e, some 0)
          | (s, .error (.code k)) => (s, some k)
          | (s, .ok (h, _)) => (s, unsealCode x p (pay b 0x10 8) h))
    (fun s b =>
      match s.agentRead p c (pay b 0 8) 64 true with
      | (s, .ok (h, _)) => s.updSession (pay b 0x1C 4) (fun x => { x with openCount := some (fieldAt h 8 8 % 2 ^ 63) })
      | (s, .error _) => s))

-- completion (R391)

/-- Copy bytes one transaction at a time, poison with them (R174). -/
def copyBytes (p c : Nat) : Nat → Nat → Nat → Nat → State → State × Except (Nat × AccErr) Unit
  | 0, _, _, _, s => (s, .ok ())
  | fuel + 1, src, dst, n, s =>
    if n = 0 then (s, .ok ())
    else
      let m := min n (min (256 - src % 256) (256 - dst % 256))
      match s.agentRead p c src m with
      | (s, .error e) => (s, .error (src, e))
      | (s, .ok (bs, poison)) =>
        match s.agentWrite p c dst bs poison with
        | (s, .error e) => (s, .error (dst, e))
        | (s, .ok _) => copyBytes p c fuel (src + m) (dst + m) (n - m) s

/-- An 8-byte pattern over a range (R395). -/
def patternBytes (pat n : Nat) : List Byte := (List.replicate (n / 8) (leBytes 8 pat)).flatten

/-- A sealed copy's access that does not complete: the hub's agents make them (R332). -/
def State.sealFails (s : State) (p c q addr : Nat) : AccErr → State
  | .xlate e => s.packetFault p c q addr 3 e
  | .code k => s.packetFail p c q k

/-- Perform a SEAL: the buffer is written and the device's count advances; a session whose count reaches 2^63 closes (R304). -/
def State.sealRun (s : State) (p c q : Nat) (b : List Byte) : State :=
  let src := pay b 0 8; let dst := pay b 8 8; let n := pay b 0x10 8
  match s.copySession p (pay b 0x1C 4) with
  | none => s.packetFail p c q 0x0121
  | some x =>
    match s.agentRead p c src n true with
    | (s, .error e) => s.sealFails p c q src e
    | (s, .ok (bs, poison)) =>
      let head := sealHead x.id x.sealCount n p
      let ct := gcmXor x.secret (sealNonce head) bs
      match s.agentWrite p c dst (head ++ Config.gcmTag x.secret (sealNonce head) head ct ++ zeros 16 ++ ct) poison true with
      | (s, .error e) => s.sealFails p c q dst e
      | (s, .ok _) =>
        (s.updSession x.id (fun y => { y with sealCount := y.sealCount + 1, closed := y.closed || decide (y.sealCount + 1 ≥ 2 ^ 63) })).packetDone
          p c q

/-- Perform an UNSEAL: the plaintext, or zeros over the whole destination and UNSEAL_FAILED where the tag does not match (R305). -/
def State.unsealRun (s : State) (p c q : Nat) (b : List Byte) : State :=
  let src := pay b 0 8; let dst := pay b 8 8; let n := pay b 0x10 8
  match s.copySession p (pay b 0x1C 4) with
  | none => s.packetFail p c q 0x0121
  | some x =>
    match s.agentRead p c src (64 + n) true with
    | (s, .error e) => s.sealFails p c q src e
    | (s, .ok (bs, poison)) =>
      let head := bs.take 32
      let ct := bs.drop 64
      let good := Config.gcmTag x.secret (sealNonce head) head ct == (bs.drop 32).take 16
      match s.agentWrite p c dst (if good then gcmXor x.secret (sealNonce head) ct else zeros n) (poison && good) true with
      | (s, .error e) => s.sealFails p c q dst e
      | (s, .ok _) => if good then s.packetDone p c q else s.packetFail p c q 0x8103

/-- A COPY or FILL has a chance to issue (R454): the state after it, and whether tension lets it go. -/
def State.copyGate (s : State) (p c : Nat) (r : PacketRun) : State × Bool :=
  let b := r.bytes
  let v := s.agentVia p c ((copyFlags b).testBit 1 || (copyFlags b).testBit 2) none
  s.tensionGate v.src p v.label (if r.typ = 4 then s.crossingsAt v p c (pay b 0 8) true
    else s.crossingsAt v p c (pay b 0 8) false ++ s.crossingsAt v p c (pay b 8 8) true)

/-- The bytes of a COPY or FILL move, and it completes or faults. -/
def State.copyRun (s : State) (p c q : Nat) (r : PacketRun) : State :=
  let b := r.bytes
  if r.typ = 4 then
    match s.agentWrite p c (pay b 0 8) (patternBytes (pay b 0x10 8) (pay b 8 8)) false with
    | (s, .error e) => s.workFails p c q (pay b 0 8) e
    | (s, .ok _) => s.packetDone p c q
  else if (copyFlags b).testBit 1 then s.sealRun p c q b
  else if (copyFlags b).testBit 2 then s.unsealRun p c q b
  else
    match copyBytes p c (2 * (pay b 0x10 8 / 256) + 4) (pay b 0 8) (pay b 8 8) (pay b 0x10 8) s with
    | (s, .error (a, e)) => s.workFails p c q a e
    | (s, .ok _) => s.packetDone p c q

/-- COPY_COMPLETE (R391, R395): every byte of a COPY or FILL is performed at its destination, and the packet completes; it waits while tension
holds it (R454). -/
def execCopyComplete (q : QRef) (s : State) : Host.Outcome State Fault Refusal :=
  let p := q.part.val; let c := q.ctx.val
  match (s.queue p c q.queue).cur with
  | none => .next s
  | some r =>
    if (s.part p).pstate ≠ .enabled ∨ (r.typ ≠ 3 ∧ r.typ ≠ 4) then .next s
    else
      .next (match s.copyGate p c r with
        | (s, false) => s
        | (s, true) => s.copyRun p c q.queue r)

end Sys2Proof.Machine
end

