-- ==== Sys2Proof/Machine/Kv.lean ====
section
/-! DEFINITION. The KV service (R268-R275): slots, grants, the transfers of KV_PUT and KV_GET, and the service's failures. -/

namespace Sys2Proof.Machine

/-- Blocks of 64 KiB in a KV channel (R268). -/
def kvChannelBlocks : Nat := 45776

/-- Blocks of a KV channel that no slot holds and no strip still clears. -/
def State.kvFreeList (s : State) (ch : Nat) : List Nat :=
  let held := (s.kv.slots.filter (fun e => decide (e.2.channel = ch) && (e.2.live || e.2.stripping))).flatMap (fun e => e.2.places)
  (natRange 0 kvChannelBlocks).filter (fun b => !hasNat held b)

/-- Free blocks of a KV channel. -/
def State.kvFree (s : State) (ch : Nat) : Nat :=
  kvChannelBlocks - (s.kv.slots.filter (fun e => decide (e.2.channel = ch) && (e.2.live || e.2.stripping))).foldl
    (fun a e => a + e.2.places.length) 0

/-- A slot. -/
def State.slot (s : State) (i : Nat) : KvSlot := tabGet {} s.kv.slots i

/-- What every KV command and packet is refused with first (R268, R274). -/
def State.kvGate (s : State) : Option Nat :=
  if s.prs.kvChans.isEmpty then some 0x0605 else if !s.kv.up then some 0x0608 else none

/-- SLOT of a handle (R269). -/
def handleSlot (h : Nat) : Nat := bitsAt h 47 32
/-- GEN of a handle. -/
def handleGen (h : Nat) : Nat := bitsAt h 63 48

/-- The slot a handle names, or the code of R272 and R274: KV_BAD_HANDLE, KV_LOST, KV_STALE. -/
def State.kvLook (s : State) (h : Nat) : Except Nat Nat :=
  let i := handleSlot h
  let k := s.slot i
  if bitsAt h 31 20 ≠ 0 ∨ (k.gen = 0 ∧ !k.live) then .error 0x0602
  else if hasNat k.lostGens (handleGen h) then .error 0x8601
  else if handleGen h < k.gen then .error 0x0609
  else if handleGen h > k.gen ∨ !k.live then .error 0x0602
  else .ok i

/-- RIGHTS of a partition on a slot: its owner has all. -/
def KvSlot.rights (k : KvSlot) (p : Nat) : Nat :=
  if k.owner = p then 7 else match k.grants.find? (fun g => decide (g.1 = p)) with | some g => g.2 | none => 0

/-- The admin command's slot: the gate, the handle, then the owner's right (R270). -/
def State.kvOwned (s : State) (b : List Byte) : Except Nat Nat :=
  match s.kvGate with
  | some c => .error c
  | none =>
    match s.kvLook (par b 0 8) with
    | .error c => .error c
    | .ok i => if (s.slot i).owner = pktTarget b then .ok i else .error 0x0603

/-- The first slot that may be allocated: not live, not stripping, its generations not spent (R275). -/
def State.kvSlotFree (s : State) : Option Nat :=
  (natRange 0 65536).find? (fun i => let k := s.slot i; !k.live && !k.stripping && decide (k.gen < 0xFFFF))

/-- KV_ALLOC (R268, R270): the channel is the device's free choice among those with room. -/
def execKvAlloc (ch : Fin 5) (pkt : List Byte) (s : State) : Host.Outcome State Fault Refusal :=
  .next (s.admCommand ch pkt (isOp 0x0601) (fun s b =>
    let n := par b 0 4
    match s.kvGate with
    | some c => s.refuse ch c
    | none =>
      if !parZero b 4 4 then s.refuse ch 0x0003
      else if n < 1 ∨ n > kvChannelBlocks then s.refuse ch 0x0005
      else
        let fits := s.kvServing.filter (fun c => decide (n ≤ s.kvFree c))
        let (f, s) := s.fresh
        match fits[f % fits.length]?, s.kvSlotFree with
        | some c, some i =>
          let k := s.slot i
          let s := s.setSlot i { k with live := true, channel := c, places := (s.kvFreeList c).take n, owner := pktTarget b, grants := [],
                                        sealed := false, stripping := false }
          s.done ch (leBytes 8 (kvHandle i k.gen))
        | _, _ => s.refuse ch 0x0601))

/-- A transfer of the slot is moving data (R275). -/
def State.slotMoving (s : State) (i : Nat) : Bool := (s.slotPackets i).any (fun e => !e.2.2.2.waiting)

/-- KV_FREE (R275). -/
def execKvFree (ch : Fin 5) (pkt : List Byte) (s : State) : Host.Outcome State Fault Refusal :=
  .next (s.admCommand ch pkt (isOp 0x0602) (fun s b =>
    match s.kvOwned b with
    | .error c => s.refuse ch c
    | .ok i => if s.slotMoving i then s.refuse ch 0x0607 else (s.kvFreeSlot i).done ch []))

/-- KV_GRANT (R271). With TRANSFER the former owner keeps no right, not even one it had granted itself. -/
def execKvGrant (ch : Fin 5) (pkt : List Byte) (s : State) : Host.Outcome State Fault Refusal :=
  .next (s.admCommand ch pkt (isOp 0x0603) (fun s b =>
    let g := par b 8 1
    let r := par b 9 1
    match s.kvGate with
    | some c => s.refuse ch c
    | none =>
      if r > 7 ∨ !parZero b 10 6 then s.refuse ch 0x0003
      else if g > 63 then s.refuse ch 0x0005
      else
        match s.kvOwned b with
        | .error c => s.refuse ch c
        | .ok i =>
          let k := s.slot i
          let others := k.grants.filter (fun x => decide (x.1 ≠ g))
          if r.testBit 2 then (s.setSlot i { k with owner := g, grants := others.filter (fun x => decide (x.1 ≠ k.owner)) }).done ch []
          else if r = 0 then (s.setSlot i { k with grants := others }).done ch []
          else if others.length ≥ 4 then s.refuse ch 0x0606
          else (s.setSlot i { k with grants := others ++ [(g, r)] }).done ch []))

/-- KV_QUERY (R270). -/
def execKvQuery (ch : Fin 5) (pkt : List Byte) (s : State) : Host.Outcome State Fault Refusal :=
  .next (s.admCommand ch pkt (isOp 0x0604) (fun s b =>
    match (match s.kvGate with | some c => .error c | none => s.kvLook (par b 0 8) : Except Nat Nat) with
    | .error c => s.refuse ch c
    | .ok i =>
      let k := s.slot i
      let p := pktTarget b
      if k.owner ≠ p ∧ !k.grants.any (fun g => decide (g.1 = p)) then s.refuse ch 0x0603
      else
        s.done ch (leBytes 4 k.places.length ++ leBytes 1 (bnat k.sealed) ++ leBytes 1 k.owner ++ leBytes 1 k.grants.length ++ zeros 1
          ++ padTo 4 (k.grants.flatMap (fun g => leBytes 1 g.1)) ++ padTo 4 (k.grants.flatMap (fun g => leBytes 1 g.2))
          ++ leBytes 8 (s.kvServing.foldl (fun a c => a + s.kvFree c) 0) ++ leBytes 2 s.kvServing.length ++ zeros 6)))

-- transfers (R272, R273)

/-- A packet that names a lost generation fails with the fault; every other check of R272 refuses. The service's own refusals come first
(R268, R274). -/
def State.kvPacketCheck (s : State) (p : Nat) (b : List Byte) (right : Nat) : Option Nat :=
  let h := pay b 0 8
  match s.kvGate with
  | some c => some c
  | none =>
    if pay b 0x14 1 > 1 ∨ !payZero b 0x15 11 ∨ !payZero b 0x20 32 ∨ !plaOrVa (pay b 8 8) ∨ pay b 8 8 % 256 ≠ 0 then some 0x0401
    else
      match s.kvLook h with
      | .error c => some c
      | .ok i =>
        let k := s.slot i
        if bitsAt h 19 0 + pay b 0x10 4 > k.places.length then some 0x0604
        else if !(k.rights p).testBit right ∨ (right = 1 ∧ k.sealed) then some 0x0603
        else none

/-- KV_PUT (R272). -/
def execKvPut (q : QRef) (s : State) : Host.Outcome State Fault Refusal :=
  .next (s.startPacket q (fun b => pkTyp b == 0x0B) (fun s b => (s, s.kvPacketCheck q.part b 1)) (fun s _ => s))

/-- KV_GET (R272, R273): with WAIT on an open slot, it waits for the seal. -/
def execKvGet (q : QRef) (s : State) : Host.Outcome State Fault Refusal :=
  .next (s.startPacket q (fun b => pkTyp b == 0x0C) (fun s b => (s, s.kvPacketCheck q.part b 0))
    (fun s b =>
      let wait := (pay b 0x14 1).testBit 0 && !(s.slot (handleSlot (pay b 0 8))).sealed
      (s.updPacket q.part q.ctx q.queue (fun r => { r with waiting := wait })).wake q.part q.ctx))

/-- Channel offsets of the 256-byte rows that a packet moves, in order. -/
def kvRows (k : KvSlot) (b : List Byte) : List Nat :=
  ((k.places.drop (bitsAt (pay b 0 8) 19 0)).take (pay b 0x10 4)).flatMap (fun x => (natRange 0 256).map (fun r => 65536 * x + 256 * r))

/-- A row of the store is served (R444): by the KV service, on the hub path of its channel's die, and at its memory stop. -/
def State.kvServed (s : State) (p c ch : Nat) (w : Bool) : State :=
  s.served .hub p (s.ctx p c).label ({ reg := .kv } :: s.crossings p 0 .hub (.chan ch 0) w) 256

/-- Copy rows from `addr` into the store. -/
def kvPutRows (p c ch : Nat) : List Nat → Nat → State → State × Except (Nat × AccErr) Unit
  | [], _, s => (s, .ok ())
  | off :: t, a, s =>
    match s.agentRead p c a 256 true with
    | (s, .error e) => (s, .error (a, e))
    | (s, .ok (bs, poison)) => kvPutRows p c ch t (a + 256) ((s.writeLoc (.chan ch off) bs [] poison).kvServed p c ch true)

/-- Copy rows of the store to `addr`. -/
def kvGetRows (p c ch : Nat) : List Nat → Nat → State → State × Except (Nat × AccErr) Unit
  | [], _, s => (s, .ok ())
  | off :: t, a, s =>
    let s := (s.eccRead (.chan ch off) 256).kvServed p c ch false
    let r := s.readLoc (.chan ch off) 256
    match s.agentWrite p c a r.1 r.2 true with
    | (s, .error e) => (s, .error (a, e))
    | (s, .ok _) => kvGetRows p c ch t (a + 256) s

/-- A slot is sealed (R273): waiting KV_GETs of it go on, and their contexts' cause clears. -/
def State.kvSeal (s : State) (i : Nat) : State :=
  let ws := (s.slotPackets i).filter (fun e => decide (e.2.2.2.typ = 0x0C) && e.2.2.2.waiting)
  let s := s.setSlot i { s.slot i with sealed := true }
  ws.foldl (fun s e => (s.updPacket e.1 e.2.1 e.2.2.1 (fun r => { r with waiting := false })).wake e.1 e.2.1) s

/-- A KV_PUT or KV_GET has a chance to issue (R454): the state after it, and whether tension lets it go. -/
def State.kvTension (s : State) (p c ch addr : Nat) (put : Bool) : State × Bool :=
  let v := s.agentVia p c true none
  s.tensionGate v.src p v.label (s.crossingsAt v p c addr (!put) ++ { reg := .kv } :: s.crossings p 0 .hub (.chan ch 0) put)

/-- KV_PUT_COMPLETE (R272, R273): the data is in the store, the slot seals under SEAL, and the packet completes. -/
def execKvPutComplete (q : QRef) (s : State) : Host.Outcome State Fault Refusal :=
  let p := q.part.val; let c := q.ctx.val
  match s.runningPacket q 0x0B with
  | none => .next s
  | some r =>
    if (s.part p).pstate ≠ .enabled then .next s
    else
      let i := handleSlot (pay r.bytes 0 8)
      let k := s.slot i
      match s.kvTension p c k.channel (pay r.bytes 8 8) true with
      | (s, false) => .next s
      | (s, true) =>
      match kvPutRows p c k.channel (kvRows k r.bytes) (pay r.bytes 8 8) s with
      | (s, .error (a, e)) => .next (s.workFails p c q.queue a e)
      | (s, .ok _) =>
        let s := if (pay r.bytes 0x14 1).testBit 0 then s.kvSeal i else s
        .next (s.packetDone p c q.queue)

/-- KV_GET_COMPLETE (R272, R273): the data is performed at ADDR before the fence. -/
def execKvGetComplete (q : QRef) (s : State) : Host.Outcome State Fault Refusal :=
  let p := q.part.val; let c := q.ctx.val
  match s.runningPacket q 0x0C with
  | none => .next s
  | some r =>
    if (s.part p).pstate ≠ .enabled ∨ r.waiting then .next s
    else
      let k := s.slot (handleSlot (pay r.bytes 0 8))
      match s.kvTension p c k.channel (pay r.bytes 8 8) false with
      | (s, false) => .next s
      | (s, true) =>
      match kvGetRows p c k.channel (kvRows k r.bytes) (pay r.bytes 8 8) s with
      | (s, .error (a, e)) => .next (s.workFails p c q.queue a e)
      | (s, .ok _) => .next (s.packetDone p c q.queue)

-- failures of the service (R274)

/-- KV_SERVICE_FAILURE (R274): every slot is lost, and the service is down. -/
def execKvServiceFailure (s : State) : Host.Outcome State Fault Refusal :=
  let ids := (s.kv.slots.filter (fun e => e.2.live)).map (fun e => e.1)
  let s := ids.foldl (fun s i => s.kvLose i) s
  .next ({ s with kv := { s.kv with up := false } }.irqRaise 5)

/-- KV_SERVICE_RESET_DONE (R274, R301): the service is up again, under the next generation of its key. -/
def execKvServiceResetDone (s : State) : Host.Outcome State Fault Refusal :=
  .next (if s.kv.up then s else { s with kv := { s.kv with up := true, keyGen := s.kv.keyGen + 1 } })

end Sys2Proof.Machine
end

