-- ==== Sys2Proof/Machine/Queues.lean ====
section
/-! DEFINITION. Descriptors of contexts, work queues, the control queue and event queues (R382, R385, R404): their layouts, their
checks (R386), the copies the device keeps of them in memory, and the flush of a queue (R393). -/

namespace Sys2Proof.Machine

-- layouts

/-- A context descriptor (R382). -/
def CtxSt.bytes (x : CtxSt) (c gen : Nat) : List Byte :=
  leBytes 4 1 ++ leBytes 2 c ++ leBytes 2 x.vd ++ leBytes 8 x.xs1 ++ leBytes 8 x.xg ++ leBytes 8 x.seed ++ leBytes 1 x.queues
    ++ leBytes 1 x.state ++ leBytes 2 x.reason ++ leBytes 2 gen ++ leBytes 1 x.slice ++ leBytes 1 x.label ++ zeros 24

/-- A work-queue descriptor (R385). -/
def QueueSt.bytes (q : QueueSt) (i c : Nat) : List Byte :=
  leBytes 4 1 ++ leBytes 1 (bnat q.enabled + 2 * bnat q.stopped) ++ leBytes 1 i ++ leBytes 2 q.reason ++ leBytes 8 q.ring
    ++ leBytes 4 q.entries ++ leBytes 4 q.head ++ leBytes 4 q.tail ++ leBytes 4 q.stopAt ++ leBytes 2 c ++ zeros 30

/-- An event-queue descriptor (R404). -/
def EvqSt.bytes (q : EvqSt) (i : Nat) : List Byte :=
  leBytes 4 1 ++ leBytes 1 (bnat q.enabled + 2 * bnat q.fast) ++ leBytes 1 i ++ leBytes 2 q.reason ++ leBytes 8 q.ring
    ++ leBytes 4 q.entries ++ leBytes 4 q.producer ++ leBytes 4 q.consumer ++ leBytes 4 q.lost ++ leBytes 8 q.targets
    ++ leBytes 2 q.ctx ++ zeros 2 ++ leBytes 4 q.bad ++ zeros 16

-- copies in memory

/-- Write bytes in PLA space where they differ from what memory holds. -/
def State.plaKeep (s : State) (p pla : Nat) (bs : List Byte) : State :=
  let s := s.plaSync p pla bs.length
  if s.plaRead p pla bs.length = bs then s else s.plaWrite p pla bs

/-- The directory's copy of a context descriptor. -/
def State.keepCtx (s : State) (p c : Nat) : State :=
  match (s.part p).dir with
  | none => s
  | some d => s.plaKeep p (d.base + 64 * c) ((s.ctx p c).bytes c ((s.part p).gen 1 c % 65536))

/-- The directory's copy of a work-queue descriptor. -/
def State.keepQueue (s : State) (p c q : Nat) : State :=
  match (s.part p).dir with
  | none => s
  | some d => s.plaKeep p (d.base + 0x8000 + 64 * (16 * c + q)) ((s.queue p c q).bytes q c)

/-- The directory's copy of an event-queue descriptor. -/
def State.keepEvq (s : State) (p q : Nat) : State :=
  match (s.part p).dir with
  | none => s
  | some d => s.plaKeep p (d.base + 0x48000 + 64 * q) (((s.part p).evq q).bytes q)

/-- Write device-written fields of one of the partition's own three descriptors, where they differ from what memory holds. -/
def State.ownKeep (s : State) (p addr : Nat) (bs : List Byte) : State :=
  match s.agentRead p 0 addr bs.length true (some 0) with
  | (s, .ok r) => if r.1 = bs then s else (s.agentWrite p 0 addr bs false true (some 0)).1
  | (s, .error _) => s

/-- The partition's own three descriptors catch up with the hub (R385, R397, R404). -/
def State.keepOwn (s : State) (p : Nat) : State :=
  let d := (s.part p).desc
  let evq (s : State) (a q : Nat) : State :=
    let e := (s.part p).evq q
    if e.enabled then
      (s.ownKeep p (a + 0x14) (leBytes 4 e.producer ++ leBytes 4 e.consumer ++ leBytes 4 e.lost)).ownKeep p (a + 0x2C) (leBytes 4 e.bad)
    else s
  let c := (s.part p).cq
  let s := if c.enabled then s.ownKeep p (d.controlQueue + 0x14) (leBytes 4 c.head ++ leBytes 4 c.tail ++ leBytes 4 c.stopAt) else s
  evq (evq s d.eventQueue 0) d.faultQueue 1

/-- Every copy of a partition's descriptors catches up (R382, R385, R397). -/
def State.keepAll (s : State) (p : Nat) : State :=
  let x := s.part p
  match x.pstate with
  | .disabled | .enabled | .frozen =>
    let s := s.keepOwn p
    let s := x.ctxs.foldl (fun s e => e.2.qs.foldl (fun s q => s.keepQueue p e.1 q.1) (s.keepCtx p e.1)) s
    x.evqs.foldl (fun s e => s.keepEvq p e.1) s
  | _ => s

-- checks (R386)

/-- A PLA in the form of R137. -/
def isPla (a : Nat) : Bool := decide (a / 2 ^ 60 = 1) && bitsAt a 59 44 == 0
/-- An HPA in the form of R379. -/
def isHpa (a : Nat) : Bool := decide (a / 2 ^ 60 = 9) && bitsAt a 59 52 == 0
/-- A VA in the form of R139. -/
def isVa (a : Nat) : Bool := decide (a / 2 ^ 60 = 8) && bitsAt a 59 57 == 0

/-- A ring can be read (R386): every transaction of it, through the context that its descriptor names. -/
def State.ringReads (s : State) (p c ring n : Nat) : State × Bool :=
  match s.agentRead p c ring n with
  | (s, .ok _) => (s, true)
  | (s, .error _) => (s, false)

/-- Fields of a work-queue or control-queue descriptor meet R385. ENABLE is the caller's to check; the fields that the device writes
are ignored. -/
def queueDescOk (d : List Byte) (hpa : Bool) : Bool :=
  let ring := fieldAt d 8 8
  fieldAt d 0 4 == 1 && decide (fieldAt d 4 1 < 4) && ring % 4096 == 0 && powTwoIn (fieldAt d 0x10 4) 64 1048576
    && zeroAt d 0x22 30 && (isPla ring || (if hpa then isHpa ring else isVa ring))

/-- Fields of an event-queue descriptor meet R404 for an index; RING, ENTRIES and CTX count only where the queue is to be enabled. -/
def evqDescOk (d : List Byte) (q : Nat) (en : Bool) : Bool :=
  let ring := fieldAt d 8 8
  let ctx := fieldAt d 0x28 2
  fieldAt d 0 4 == 1 && decide (fieldAt d 4 1 < 4) && fieldAt d 5 1 == q && zeroAt d 0x2A 2 && zeroAt d 0x30 16
    && (!en || (ring % 4096 == 0 && powTwoIn (fieldAt d 0x10 4) 16 65536
        && (if q < 2 then (isPla ring || isHpa ring) && ctx == 0xFFFF
            else (isPla ring && ctx == 0xFFFF) || (isVa ring && decide (ctx < 256)))))

/-- An event queue's descriptor passes its check to be enabled (R386). -/
def State.evqCheck (s : State) (p q : Nat) (d : List Byte) : State × Bool :=
  let ctx := fieldAt d 0x28 2
  if !evqDescOk d q true || (ctx != 0xFFFF && decide ((s.ctx p ctx).state ≠ 1)) then (s, false)
  else s.ringReads p (if ctx = 0xFFFF then 0 else ctx) (fieldAt d 8 8) (32 * fieldAt d 0x10 4)

/-- Enable an event queue from its descriptor (R386, R407): PRODUCER and CONSUMER restart, the counts go on, and records held for it
are written first. -/
def State.evqEnable (s : State) (p q : Nat) (d : List Byte) : State :=
  let s := s.updEvq p q (fun e =>
    { e with enabled := true, fast := (fieldAt d 4 1).testBit 1, reason := 0, ring := fieldAt d 8 8, entries := fieldAt d 0x10 4,
             producer := 0, consumer := 0, targets := fieldAt d 0x20 8, ctx := fieldAt d 0x28 2, claimed := [], completed := [] })
  let s := drainHeld p q 64 s
  if q = 1 then drainFaults p (s.part p).faultHeld.length s else s

/-- A queue as an enable leaves it (R386). -/
def queueFresh (d : List Byte) : QueueSt := { enabled := true, ring := fieldAt d 8 8, entries := fieldAt d 0x10 4 }

/-- Read one of the partition's descriptors. -/
def State.readDesc (s : State) (p addr : Nat) : State × Option (List Byte) :=
  if isPla addr || isHpa addr then
    match s.agentRead p 0 addr 64 true (some 0) with
    | (s, .ok (d, false)) => (s, some d)
    | (s, _) => (s, none)
  else (s, none)

/-- Write ENABLE, and REASON, of one of the partition's descriptors in memory (R386). -/
def State.writeEnable (s : State) (p addr : Nat) (d : List Byte) (en : Bool) (code : Nat) : State :=
  (s.agentWrite p 0 (addr + 4) (leBytes 1 (fieldAt d 4 1 % 256 / 2 * 2 + bnat en) ++ leBytes 1 (fieldAt d 5 1) ++ leBytes 2 code) false true (some 0)).1

/-- The check of the partition's three queues at PART_ENABLE (R278, R386): their descriptors, where all three pass. The one that fails
is written with ENABLE 0 and its REASON. -/
def State.partQueues (s : State) (p : Nat) (d : PartDesc) : State × Option (List Byte × List Byte × List Byte) :=
  match s.readDesc p d.controlQueue with
  | (s, none) => (s, none)
  | (s, some c) =>
    match s.readDesc p d.eventQueue with
    | (s, none) => (s, none)
    | (s, some e) =>
      match s.readDesc p d.faultQueue with
      | (s, none) => (s, none)
      | (s, some f) =>
        let fails (s : State) (a : Nat) (b : List Byte) : State × Option (List Byte × List Byte × List Byte) :=
          (s.writeEnable p a b false 0x0406, none)
        if !(queueDescOk c true && fieldAt c 5 1 == 0 && fieldAt c 0x20 2 == 0xFFFF) then fails s d.controlQueue c
        else
          match s.ringReads p 0 (fieldAt c 8 8) (64 * fieldAt c 0x10 4) with
          | (s, false) => fails s d.controlQueue c
          | (s, true) =>
            match s.evqCheck p 0 e with
            | (s, false) => fails s d.eventQueue e
            | (s, true) =>
              match s.evqCheck p 1 f with
              | (s, false) => fails s d.faultQueue f
              | (s, true) => (s, some (c, e, f))

/-- Enable the partition's three queues (R386). -/
def State.partQueuesOn (s : State) (p : Nat) (d : PartDesc) (q : List Byte × List Byte × List Byte) : State :=
  let s := s.updPart p (fun x => { x with cq := { queueFresh q.1 with cur := x.cq.cur } })
  let s := ((s.writeEnable p d.controlQueue (patchAt q.1 4 (zeros 1)) true 0).writeEnable p d.eventQueue q.2.1 true 0).writeEnable p d.faultQueue q.2.2 true 0
  ((s.evqEnable p 0 q.2.1).evqEnable p 1 q.2.2).keepOwn p

-- flushing (R393, R414, R299)

/-- Discard the packets of a work queue that have not started: each DONE_FENCE takes a code. -/
def flushFrom (p c q code : Nat) : Nat → State → State
  | 0, s => s
  | fuel + 1, s =>
    let x := s.queue p c q
    let n := x.waitingSlots
    if n = 0 then s
    else
      match ringSlots p c x.ring x.entries 1 x.head s with
      | (s, .error _) => flushFrom p c q code fuel (s.updQueue p c q (fun x => { x with head := (x.head + 1) % 2 ^ 32 }))
      | (s, .ok (h, _)) =>
        let s := s.fenceError p (pkFence h) code c
        flushFrom p c q code fuel (s.updQueue p c q (fun x => { x with head := (x.head + min n (pkSlots h)) % 2 ^ 32 }))

/-- Flush a work queue: HEAD reaches TAIL_SEEN. -/
def State.flushQueue (s : State) (p c q code : Nat) : State := flushFrom p c q code (s.queue p c q).waitingSlots s

/-- Discard the packets of the control queue that have not started. -/
def flushControl (p code : Nat) : Nat → State → State
  | 0, s => s
  | fuel + 1, s =>
    let x := (s.part p).cq
    let n := x.waitingSlots
    let past (s : State) (k : Nat) : State := s.updPart p (fun y => { y with cq := { y.cq with head := (y.cq.head + k) % 2 ^ 32 } })
    if n = 0 then s
    else
      match ringSlots p 0 x.ring x.entries 1 x.head s with
      | (s, .error _) => flushControl p code fuel (past s 1)
      | (s, .ok (h, _)) => flushControl p code fuel (past (s.fenceError p (pkFence h) code 0xFFFF) (min n (pkSlots h)))

end Sys2Proof.Machine
end

