-- ==== Sys2Proof/Machine/Objects.lean ====
section
/-! DEFINITION. Control-queue packets (R389), the teardown of a context (R414), memory objects (R411-R413), and the claim and complete
registers of event queues (R409, R410). -/

namespace Sys2Proof.Machine

/-- A control packet that acts at once. -/
def State.control (s : State) (p : Nat) (mine : List Byte → Bool) (check : State → List Byte → Option Nat)
    (run : State → List Byte → State) : State := s.startControl p mine check (fun s b => (run s b, true))

-- DIR_SET (R380, R389)

/-- Bytes of a directory. -/
def dirLen (f m : Nat) : Nat := 0x150000 + 32 * f + 32 * m

/-- DIR_SET (R380, R389): the directory reads zero, and every generation is 1 (R378). -/
def execDirSet (p : Fin 64) (s : State) : Host.Outcome State Fault Refusal :=
  .next (s.control p (fun b => pkTyp b == 0x10)
    (fun s b =>
      let base := pay b 0 8; let f := pay b 8 4; let m := pay b 12 4
      if !payZero b 16 48 then some 0x0401
      else if (s.part p).dir.isSome ∨ !isPla base ∨ base % 65536 ≠ 0 ∨ !powTwoIn f 64 65536 ∨ !powTwoIn m 64 65536
        ∨ (s.part p).pat.top < base % 2 ^ 44 + dirLen f m then some 0x0409
      else none)
    (fun s b =>
      let f := pay b 8 4; let m := pay b 12 4
      let s := s.plaZero p (pay b 0 8 % 2 ^ 44) (dirLen f m)
      let s := s.updPart p (fun x => { x with dir := some { base := pay b 0 8 % 2 ^ 44, fences := f, memobjs := m }, gens := [] })
      (s.part p).evqs.foldl (fun s e => s.keepEvq p e.1) s))

-- contexts (R383, R414)

/-- Generations of an index that have not been spent (R378). -/
def PartSt.genLeft (x : PartSt) (kind i : Nat) : Bool := decide (x.gen kind i ≤ 4095)

/-- CTX_CREATE (R382-R384). -/
def execCtxCreate (p : Fin 64) (s : State) : Host.Outcome State Fault Refusal :=
  .next (s.control p (fun b => pkTyp b == 0x11)
    (fun s b =>
      let c := pay b 4 2
      let x := s.part p
      if pay b 0 4 ≠ 1 ∨ pay b 0x20 1 < 1 ∨ pay b 0x20 1 > 16 ∨ pay b 0x26 1 > 100 ∨ pay b 0x27 1 > 15 ∨ !payZero b 0x28 24 then some 0x0408
      else if c ≥ x.desc.ctxMax ∨ (s.ctx p c).state ≠ 0 ∨ !x.genLeft 1 c then some 0x0408
      else if !x.pat.isVd (pay b 6 2) then some 0x0408
      else if !xlateOk (pay b 8 8) (pay b 0x10 8) then some 0x0801
      else none)
    (fun s b =>
      let c := pay b 4 2
      let x : CtxSt :=
        { state := 1, vd := pay b 6 2, xs1 := pay b 8 8, xg := pay b 0x10 8, seed := pay b 0x18 8, queues := pay b 0x20 1,
          slice := pay b 0x26 1, label := pay b 0x27 1 }
      ((s.updCtx p c (fun _ => x)).keepCtx p c).statsWrite p c))

/-- Step 1 of R414: the context is ABORTING. -/
def State.abortStart (s : State) (p c : Nat) : State :=
  (s.updCtx p c (fun x => { x with state := 2, abortStep := 1 })).keepCtx p c

/-- CTX_DESTROY (R389, R414, R415): it completes when the teardown has run; while one runs already, at once. A CTX that names no context
is a field out of range (R388; R416 gives CTX_INVALID to R383 alone). -/
def execCtxDestroy (p : Fin 64) (s : State) : Host.Outcome State Fault Refusal :=
  .next (s.startControl p (fun b => pkTyp b == 0x12)
    (fun s b =>
      let c := pay b 0 2
      if !payZero b 2 62 ∨ c ≥ 256 ∨ (s.ctx p c).state = 0 then some 0x0401 else none)
    (fun s b =>
      let c := pay b 0 2
      if (s.ctx p c).state = 2 then (s, true) else (s.abortStart p c, false)))

/-- Queues of a context that exist. -/
def CtxSt.queueIds (x : CtxSt) : List Nat := x.qs.map (fun q => q.1)

/-- Records of a context leave the fault batches; a batch left with none counts as answered (R342). -/
def State.dropBatches (s : State) (p c : Nat) : State :=
  s.updPart p (fun x => { x with
    batches := (x.batches.map (fun b => { b with recs := b.recs.filter (fun r => decide (r.ctx ≠ c)) })).filter (fun b => !b.recs.isEmpty),
    faultHeld := x.faultHeld.filter (fun r => decide (fieldAt r 0x18 2 ≠ c)) })

/-- Step 3 of R414: everything of the context in progress is discarded. -/
def State.abortRun (s : State) (p c : Nat) : State :=
  let s := s.discardSaved p c
  let s := if (s.ctx p c).resident then s.endRun p c (fun _ => true) else s.updCtx p c (fun x => { x with genr := none })
  let s := (s.updPart p (fun x => { x with runnable := dropAll x.runnable c })).dropBatches p c
  let s := s.updCtx p c (fun x => { x with faultWait := false, genrBefore := none })
  (s.ctx p c).queueIds.foldl (fun s q => s.packetAbandon p c q 0x8404) s

/-- Step 4 of R414: the references of the context's table are dropped, and the table is cleared. -/
def State.abortRefs (s : State) (p c : Nat) : State :=
  match (s.part p).dir with
  | none => s
  | some d =>
    let s := s.refSync p c
    let t := s.refTable p c
    let s := (natRange 0 512).foldl (fun s k =>
      let n := fieldAt t (8 * k + 4) 4
      if n = 0 ∨ fieldAt t (8 * k) 2 ≥ d.memobjs then s else s.memDrop p (fieldAt t (8 * k) 2) n c) s
    s.plaZero p (d.refs c) 4096

/-- LIVE fences that a context owns. -/
def State.ownedFences (s : State) (p c : Nat) : List Nat :=
  match (s.part p).dir with
  | none => []
  | some d => (natRange 0 d.fences).filter (fun i =>
      let r := s.fenceRec p i
      bitAt (fieldAt r 0x15 1) 0 && fieldAt r 0x16 2 == c && !bitAt (fieldAt r 0 8) 63)

/-- The control packet in progress is a CTX_DESTROY of the context. -/
def PartSt.destroying (x : PartSt) (c : Nat) : Bool :=
  match x.cq.cur with | some r => r.typ == 0x12 && pay r.bytes 0 2 == c | none => false

/-- Step 6 of R414. -/
def State.abortEnd (s : State) (p c : Nat) : State :=
  let s := s.updCtx p c (fun x => { x with state := 0, abortStep := 0, reason := 0x8404,
                                           qs := x.qs.map (fun q => (q.1, { q.2 with enabled := false })) })
  let s := ((s.genAdvance p 1 c).keepCtx p c)
  let s := (s.ctx p c).queueIds.foldl (fun s q => s.keepQueue p c q) s
  if (s.part p).destroying c then s.controlDone p else s

/-- CONTEXT_TEARDOWN_STEP (R414): the next of steps 2 to 6 of a context that is ABORTING. -/
def execContextTeardownStep (p : Fin 64) (c : Fin 256) (s : State) : Host.Outcome State Fault Refusal :=
  let x := s.ctx p c
  let on (s : State) (n : Nat) : State := s.updCtx p c (fun x => { x with abortStep := n })
  .next (if x.state ≠ 2 then s
    else match x.abortStep with
      | 1 => on (x.queueIds.foldl (fun s q => s.flushQueue p c q 0x8404) s) 2
      | 2 => on (s.abortRun p c) 3
      | 3 => on (s.abortRefs p c) 4
      | 4 => on ((s.ownedFences p c).foldl (fun s i => s.fenceErrorIdx p i 0x8404 c) s) 5
      | _ => s.abortEnd p c)

-- queues (R386, R393)

/-- A descriptor that fails its check leaves the code in REASON (R373). -/
def State.queueReason (s : State) (p c q code : Nat) : State :=
  if c < 256 ∧ q < 16 then (s.updQueue p c q (fun x => { x with reason := code })).keepQueue p c q else s

/-- The packet's payload. -/
def payload (b : List Byte) : List Byte := padTo 64 ((b.drop 0x40).take 64)

/-- QUEUE_SET (R386). The check reads RING before the packet is accepted. -/
def execQueueSet (p : Fin 64) (s : State) : Host.Outcome State Fault Refusal :=
  .next (s.startControl p (fun b => pkTyp b == 0x13) (fun _ _ => none)
    (fun s b =>
      let d := payload b
      let c := fieldAt d 0x20 2; let q := fieldAt d 5 1
      let slot := (match (s.part p).cq.cur with | some r => r.slot | none => 0)
      let bad (s : State) : State × Bool :=
        let s := s.queueReason p c q 0x0406
        let s := s.updPart p (fun y => { y with cq := { y.cq with cur := none } })
        ((s.objRefDrop p (fieldAt b 0x0C 4)).controlRefuse p slot b 0x0406, false)
      let x := s.ctx p c
      if !queueDescOk d false || !(fieldAt d 4 1).testBit 0 || decide (c ≥ 256) || decide (x.state ≠ 1) || decide (q ≥ x.queues)
        || (x.queue q).cur.isSome then bad s
      else
        match s.ringReads p c (fieldAt d 8 8) (64 * fieldAt d 0x10 4) with
        | (s, false) => bad s
        | (s, true) => ((s.updQueue p c q (fun _ => queueFresh d)).keepQueue p c q, true)))

/-- The operation a QUEUE_CTL carries, as its row: 1 stands for every value without a row of its own. -/
def ctlOp (b : List Byte) : Nat := let o := pay b 3 1; if 2 ≤ o ∧ o ≤ 4 then o else 1

/-- The effect of QUEUE_CTL at a packet boundary (R393). -/
def State.queueCtl (s : State) (p c q op : Nat) : State :=
  let s := if op = 1 then s else s.flushQueue p c q 0x8401
  (s.updQueue p c q (fun x =>
    { x with ctl := [], enabled := x.enabled && op != 4,
             stopped := x.stopped && !(op == 1 || op == 3), reason := if op == 1 || op == 3 then 0 else x.reason })).keepQueue p c q

/-- QUEUE_CTL with one operation (R393): at once where the queue is at a packet boundary; else it waits there, and the row's next
command completes it. A CTX or QUEUE that names no enabled queue is a field out of range (R388; R416 gives QUEUE_INVALID to R386
alone). -/
def State.queueCtlRow (s : State) (p op : Nat) : State :=
  match (s.part p).cq.cur with
  | some r =>
    let c := pay r.bytes 0 2; let q := pay r.bytes 2 1
    if r.typ ≠ 0x14 ∨ ctlOp r.bytes ≠ op ∨ (s.queue p c q).cur.isSome ∨ !(s.part p).runs then s
    else (s.queueCtl p c q op).controlDone p
  | none =>
    s.startControl p (fun b => pkTyp b == 0x14 && ctlOp b == op)
      (fun s b =>
        let c := pay b 0 2; let q := pay b 2 1
        if !payZero b 4 60 ∨ pay b 3 1 ≠ op ∨ c ≥ 256 ∨ (s.ctx p c).state = 0 ∨ q ≥ 16 ∨ !(s.queue p c q).enabled then some 0x0401
        else none)
      (fun s b =>
        let c := pay b 0 2; let q := pay b 2 1
        if (s.queue p c q).cur.isSome then (s.updQueue p c q (fun x => { x with ctl := [op] }), false)
        else (s.queueCtl p c q op, true))

/-- QUEUE_CTL resume (R393). -/
def execQueueCtlResume (p : Fin 64) (s : State) : Host.Outcome State Fault Refusal := .next (s.queueCtlRow p 1)
/-- QUEUE_CTL flush (R393). -/
def execQueueCtlFlush (p : Fin 64) (s : State) : Host.Outcome State Fault Refusal := .next (s.queueCtlRow p 2)
/-- QUEUE_CTL flush and resume (R393). -/
def execQueueCtlFlushResume (p : Fin 64) (s : State) : Host.Outcome State Fault Refusal := .next (s.queueCtlRow p 3)
/-- QUEUE_CTL disable (R393). -/
def execQueueCtlDisable (p : Fin 64) (s : State) : Host.Outcome State Fault Refusal := .next (s.queueCtlRow p 4)

/-- EVQ_SET with ENABLE 1 (R386, R407). -/
def execEvqSet (p : Fin 64) (s : State) : Host.Outcome State Fault Refusal :=
  .next (s.startControl p (fun b => pkTyp b == 0x15 && (pay b 4 1).testBit 0) (fun _ _ => none)
    (fun s b =>
      let d := payload b
      let q := fieldAt d 5 1
      let slot := (match (s.part p).cq.cur with | some r => r.slot | none => 0)
      let bad (s : State) : State × Bool :=
        let s := if 2 ≤ q ∧ q < 64 then (s.updEvq p q (fun e => { e with reason := 0x0406 })).keepEvq p q else s
        let s := s.updPart p (fun y => { y with cq := { y.cq with cur := none } })
        ((s.objRefDrop p (fieldAt b 0x0C 4)).controlRefuse p slot b 0x0406, false)
      if q < 2 ∨ q ≥ 64 then bad s
      else
        match s.evqCheck p q d with
        | (s, false) => bad s
        | (s, true) => ((s.evqEnable p q d).keepEvq p q, true)))

/-- EVQ_SET with ENABLE 0 (R386, R407): records held for the queue are dropped and counted. -/
def execEvqSetDisable (p : Fin 64) (s : State) : Host.Outcome State Fault Refusal :=
  .next (s.control p (fun b => pkTyp b == 0x15 && !(pay b 4 1).testBit 0)
    (fun _ b =>
      let q := pay b 5 1
      if q < 2 ∨ q ≥ 64 ∨ !evqDescOk (payload b) q false then some 0x0406 else none)
    (fun s b =>
      let q := pay b 5 1
      let lost := ((s.part p).held.filter (fun h => decide (h.evq = q))).length
      let s := s.updPart p (fun x => { x with held := x.held.filter (fun h => decide (h.evq ≠ q)) })
      (s.updEvq p q (fun e => { e with enabled := false, lost := satAdd 0xFFFFFFFF e.lost lost,
                                       lostBefore := e.lostBefore || decide (0 < lost) })).keepEvq p q))

-- fences (R389, R390, R403)

/-- An event-queue index that a fence or object may name (R390). -/
def State.evqCode (s : State) (p q : Nat) : Option Nat :=
  if q = 0xFF then none else if q < 64 ∧ ((s.part p).evq q).enabled then none else some 0x040B

/-- FENCE_CREATE (R389, R390, R398). -/
def execFenceCreate (p : Fin 64) (s : State) : Host.Outcome State Fault Refusal :=
  .next (s.control p (fun b => pkTyp b == 0x16)
    (fun s b =>
      let i := pay b 0 4
      match (s.part p).dir with
      | none => some 0x0409
      | some d =>
        if pay b 4 2 ≥ 256 ∨ !payZero b 7 1 ∨ !payZero b 0x18 40 then some 0x0401
        else if i ≥ d.fences then some 0x0403
        else if bitAt (fieldAt (s.fenceRec p i) 0x15 1) 0 ∨ !(s.part p).genLeft 3 i then some 0x0404
        else match s.evqCode p (pay b 6 1) with
          | some k => some k
          | none => if bitAt (pay b 8 8) 63 then some 0x0405 else none)
    (fun s b =>
      let i := pay b 0 4
      s.fencePut p i 0 (leBytes 8 (pay b 8 8) ++ leBytes 8 (pay b 0x10 8) ++ leBytes 4 ((s.part p).handle 3 i) ++ leBytes 1 (pay b 6 1)
        ++ leBytes 1 1 ++ leBytes 2 (pay b 4 2) ++ zeros 8)))

/-- FENCE_DESTROY (R403): every WAIT still pending on the fence fails. -/
def execFenceDestroy (p : Fin 64) (s : State) : Host.Outcome State Fault Refusal :=
  .next (s.control p (fun b => pkTyp b == 0x17)
    (fun s b => if !payZero b 4 60 then some 0x0401 else s.fenceCode p (pay b 0 4))
    (fun s b =>
      let h := pay b 0 4
      let ws := s.inProgress.filter (fun e => decide (e.1 = p.val) && decide (e.2.2.2.typ = 6) && decide (pay e.2.2.2.bytes 0 4 = h))
      let s := (s.fencePut p (h % 65536) 0x15 (zeros 1)).genAdvance p 3 (h % 65536)
      ws.foldl (fun s e => s.packetFail p e.2.1 e.2.2.1 0x8402) s))

-- memory objects (R411-R413)

/-- MEMOBJ_CREATE (R390, R411, R412). -/
def execMemobjCreate (p : Fin 64) (s : State) : Host.Outcome State Fault Refusal :=
  .next (s.control p (fun b => pkTyp b == 0x18)
    (fun s b =>
      let i := pay b 0 4; let own := pay b 4 2
      match (s.part p).dir with
      | none => some 0x0409
      | some d =>
        let r := s.memRec p i
        if own ≥ 256 ∨ !payZero b 7 1 ∨ !payZero b 0x18 40 ∨ !isPla (pay b 8 8) ∨ pay b 8 8 % 256 ≠ 0 ∨ pay b 0x10 8 % 256 ≠ 0
          ∨ (s.part p).pat.top < pay b 8 8 % 2 ^ 44 + pay b 0x10 8 then some 0x0401
        else if i ≥ d.memobjs then some 0x0403
        else if bitAt (fieldAt r 0x18 1) 0 ∨ bitAt (fieldAt r 0x18 1) 2 ∨ !(s.part p).genLeft 4 i then some 0x0404
        else match s.evqCode p (pay b 6 1) with
          | some k => some k
          | none => if (refPlace (s.refTable p own) i).isNone then some 0x040A else none)
    (fun s b =>
      let i := pay b 0 4; let own := pay b 4 2
      let s := (s.refSync p own).memPut p i 0 (leBytes 8 (pay b 8 8) ++ leBytes 8 (pay b 0x10 8) ++ leBytes 4 1 ++ leBytes 4 ((s.part p).handle 4 i)
        ++ leBytes 1 1 ++ leBytes 1 (pay b 6 1) ++ leBytes 2 own ++ zeros 4)
      s.refPut p own i (refCount (s.refTable p own) i + 1)))

/-- MEMOBJ_FREE (R413). -/
def execMemobjFree (p : Fin 64) (s : State) : Host.Outcome State Fault Refusal :=
  .next (s.control p (fun b => pkTyp b == 0x19)
    (fun s b => if !payZero b 4 60 then some 0x0401 else match s.handleIdx p 4 (pay b 0 4) with | .ok _ => none | .error k => some k)
    (fun s b =>
      let i := pay b 0 4 % 65536
      let s := s.memSync p i
      let s := s.memPut p i 0x18 (leBytes 1 (setBit (fieldAt (s.memRec p i) 0x18 1) 1 true))
      s.memMaybeFree p i (tabGet 0xFFFF (s.part p).lastDrop i)))

/-- MEMOBJ_ZEROING_COMPLETE (R413): the range reads zero, LIVE clears, the generation advances, and the notice is posted. -/
def execMemobjZeroingComplete (p : Fin 64) (idx : Nat) (s : State) : Host.Outcome State Fault Refusal :=
  match tabFind (s.part p).zeroing idx with
  | none => .next s
  | some ctx =>
    let r := s.memRec p idx
    let s := s.plaZero p (fieldAt r 0 8 % 2 ^ 44) (fieldAt r 8 8)
    let s := s.updPart p (fun x => { x with zeroing := tabErase x.zeroing idx, lastDrop := tabErase x.lastDrop idx })
    let s := (s.memPut p idx 0x18 (zeros 1)).genAdvance p 4 idx
    let q := fieldAt r 0x19 1
    .next (if q = 0xFF then s else s.notice p q 0 ctx (leBytes 4 (fieldAt r 0x14 4) ++ leBytes 1 3))

-- claims and completions (R409, R410)

/-- The partition exists and the port owns it. -/
def State.portOwns (s : State) (port p : Nat) : Bool := (s.part p).present && decide ((s.part p).desc.ownerPort = port)

/-- A port's VF of a partition is served: the port owns the partition, and its host has enabled the VF by NumVFs (R312). -/
def State.vfServes (s : State) (port p : Nat) : Bool := s.portOwns port p && decide (p < (s.port port).numVfs)

/-- Change the value a claim read gives the host last. -/
def State.setClaim (s : State) (port v : Nat) : State := s.updPort port (fun h => { h with claimValue := v })

/-- EVQ_CLAIM (R409, R410): a read of a claim register. The value read is the port's `claimValue`; all ones where the BAR is not
served (R312). -/
def execEvqClaim (port : Fin 4) (p : Fin 64) (fast : Bool) (q : Fin 64) (s : State) : Host.Outcome State Fault Refusal :=
  let e := (s.part p).evq q
  .next (if !s.vfServes port p then s.setClaim port (2 ^ 64 - 1)
    else if !e.enabled ∨ e.fast ≠ fast then s.setClaim port 0xFFFFFFFF
    else match e.unclaimed with
      | [] => s.setClaim port 0xFFFFFFFF
      | n :: _ => (s.updEvq p q (fun e => { e with claimed := e.claimed ++ [n] })).setClaim port (n % e.entries))

/-- CONSUMER passes every complete record at its front. -/
def EvqSt.advance : Nat → EvqSt → EvqSt
  | 0, e => e
  | fuel + 1, e =>
    if hasNat e.completed e.consumer ∧ e.consumer ≠ e.producer then
      EvqSt.advance fuel { e with completed := dropAll e.completed e.consumer, consumer := (e.consumer + 1) % 2 ^ 32 }
    else e

/-- A completion that is ignored is counted (R410). -/
def State.badComplete (s : State) (p q : Nat) : State := s.updEvq p q (fun e => { e with bad := satInc32 e.bad })

/-- A write of a complete register (R410): a claimed record is complete, CONSUMER advances, and held records are written. -/
def State.evqComplete (s : State) (port p : Nat) (fast : Bool) (q v : Nat) : State :=
  let e := (s.part p).evq q
  if !s.vfServes port p then s
  else if !e.enabled ∨ e.fast ≠ fast then s.badComplete p q
  else match e.claimed.find? (fun n => decide (n % e.entries = v % 2 ^ 32)) with
    | none => s.badComplete p q
    | some n =>
      let s := s.updEvq p q (fun e => { e with claimed := dropAll e.claimed n, completed := e.completed ++ [n] }.advance e.entries)
      let s := if q = 1 then drainFaults p (s.part p).faultHeld.length s else s
      s.evqPush p q

/-- EVQ_COMPLETE (R410). -/
def execEvqComplete (port : Fin 4) (p : Fin 64) (fast : Bool) (q : Fin 64) (v : BitVec 64) (s : State) :
    Host.Outcome State Fault Refusal := .next (s.evqComplete port p fast q v.toNat)

end Sys2Proof.Machine
end

