-- ==== Sys2Proof/Machine/Parts.lean ====
section
/-! DEFINITION. Partitions (R277-R284, R299, R435-R438): descriptors, enabling, teardown, freezing and thawing; the strip engine's
ends (R294-R298); the management access window (R291) and the debug port (R293). -/

namespace Sys2Proof.Machine

-- the partition descriptor (R277)

/-- PSTATE (R284). -/
def PState.code : PState → Nat
  | .absent => 0 | .disabled => 1 | .enabled => 2 | .frozen => 3 | .resetting => 4 | .destroying => 5

/-- The 64 bytes of a partition descriptor (R277). -/
def PartSt.bytes (x : PartSt) (p : Nat) : List Byte :=
  let d := x.desc
  leBytes 4 1 ++ leBytes 1 p ++ leBytes 1 d.ownerPort
    ++ leBytes 1 (bnat d.enable + 2 * bnat (decide (x.pstate = .frozen)) + 4 * bnat d.keyActive) ++ zeros 1
    ++ leBytes 2 x.generation ++ leBytes 2 d.reason ++ leBytes 2 d.ctxMax ++ zeros 2 ++ leBytes 2 d.clusterCap
    ++ leBytes 2 d.channelCap ++ leBytes 1 d.linkCap ++ zeros 3 ++ leBytes 8 d.controlQueue ++ leBytes 8 d.eventQueue
    ++ leBytes 8 d.faultQueue ++ leBytes 4 d.slowdown ++ zeros 12

/-- The fields of a descriptor that a command gives. -/
def descOf (b : List Byte) : PartDesc :=
  { ownerPort := fieldAt b 5 1, ctxMax := fieldAt b 0x0C 2, clusterCap := fieldAt b 0x10 2, channelCap := fieldAt b 0x12 2,
    linkCap := fieldAt b 0x14 1, controlQueue := fieldAt b 0x18 8, eventQueue := fieldAt b 0x20 8, faultQueue := fieldAt b 0x28 8,
    slowdown := fieldAt b 0x30 4 }

/-- PD_FORMAT, PART, and the reserved fields and bits. -/
def descFormOk (b : List Byte) (p : Nat) : Bool :=
  fieldAt b 0 4 == 1 && fieldAt b 4 1 == p && decide (fieldAt b 6 1 < 8) && zeroAt b 7 1 && zeroAt b 0x0E 2 && zeroAt b 0x15 3
    && zeroAt b 0x34 12

/-- CTX_MAX is in range. -/
def PartDesc.ctxOk (d : PartDesc) : Bool := decide (1 ≤ d.ctxMax) && decide (d.ctxMax ≤ 256)

/-- A port is a populated host site that has completed link training (R278, R283, R309). -/
def State.portTrained (s : State) (port : Nat) : Bool :=
  decide (port < 4) && s.sites.testBit port && decide ((s.port port).modules ≠ 0)

/-- Each cap is no higher than the owner port's ceiling (R278, R283). -/
def State.capsOk (s : State) (d : PartDesc) : Bool := [1, 2, 3].all (fun k => decide (d.cap k ≤ s.prs.ceiling d.ownerPort k))

-- PART_CREATE (R281, R283)

/-- The checks of R283 in order. -/
def State.createCode (s : State) (p : Nat) (b : List Byte) : Option Nat :=
  let x := s.part p
  let d := descOf b
  match x.pstate with
  | .resetting | .destroying => some 0x0103
  | .disabled | .enabled | .frozen => some 0x0102
  | .absent =>
    if !descFormOk b p ∨ (fieldAt b 6 1).testBit 0 then some 0x0109
    else if !s.portTrained d.ownerPort then some 0x0105
    else if x.generation ≥ 0xFFFF then some 0x0108
    else if !d.ctxOk then some 0x0109
    else if !s.capsOk d then some 0x0106
    else none

/-- A partition's key slot is in use (R293, R300). -/
def State.keyActive (s : State) (p : Nat) : Bool := (fieldAt s.prs.regs 0x48 8).testBit p && decide (s.prs.debugLevel ≠ 2)

/-- PART_CREATE (R281-R284): the partition is DISABLED under the next generation. -/
def execPartCreate (ch : Fin 5) (pkt : List Byte) (s : State) : Host.Outcome State Fault Refusal :=
  .next (s.admCommand ch pkt (isOp 0x0101) (fun s b =>
    let p := pktTarget b
    let d := parBytes b 0 64
    match s.createCode p d with
    | some c => s.refuse ch c
    | none =>
      let g := (s.part p).generation + 1
      let s := s.updPart p (fun _ => { pstate := .disabled, generation := g, desc := { descOf d with keyActive := s.keyActive p } })
      s.done ch (leBytes 2 g ++ zeros 6)))

-- PART_ENABLE (R278, R282)

/-- A failed enable: REASON takes the code, and nothing else of the command takes effect (R278, R373). -/
def State.enableFails (s : State) (ch p code : Nat) : State :=
  (s.updPart p (fun x => { x with desc := { x.desc with reason := code } })).refuse ch code

/-- The checks of R278 that read no queue, on a descriptor; `form` says that its PD_FORMAT, PART and reserved fields are right. -/
def State.enableCode (s : State) (p : Nat) (d : PartDesc) (form : Bool) : Option Nat :=
  if (s.part p).desc.ownerPort ≠ d.ownerPort then some 0x0105
  else if !form then some 0x0109
  else if !s.portTrained d.ownerPort then some 0x0105
  else if !d.ctxOk then some 0x0109
  else if !(s.capsOk d && [1, 2, 3].all (fun k => decide (s.held k p ≤ d.cap k))) then some 0x0106
  else none

/-- Enable a partition on a descriptor, after the checks of R278. -/
def State.enableWith (s : State) (ch p : Nat) (d : PartDesc) (form : Bool) : State :=
  match s.enableCode p d form with
  | some c => s.enableFails ch p c
  | none =>
    match s.partQueues p d with
    | (s, none) => s.enableFails ch p 0x0107
    | (s, some q) =>
      let d := { d with enable := true, keyActive := (s.part p).desc.keyActive, reason := 0 }
      let s := s.updPart p (fun x => { x with desc := d, pstate := .enabled })
      (s.partQueuesOn p d q).done ch (zeros 8)

/-- Reserved bits of PE_FLAGS. -/
def enableFlagsOk (b : List Byte) : Bool := decide (par b 0 1 ≤ 1) && parZero b 1 7

/-- PART_ENABLE with the stored descriptor (R278). -/
def execPartEnable (ch : Fin 5) (pkt : List Byte) (s : State) : Host.Outcome State Fault Refusal :=
  .next (s.admCommand ch pkt (fun b => isOp 0x0102 b && !(par b 0 1).testBit 0) (fun s b =>
    if !enableFlagsOk b then s.refuse ch 0x0003
    else s.enableWith ch (pktTarget b) (s.part (pktTarget b)).desc true))

/-- PART_ENABLE with UPDATE (R278, R282): PD_CTL, GENERATION and REASON are taken from the stored descriptor. -/
def execPartEnableUpdate (ch : Fin 5) (pkt : List Byte) (s : State) : Host.Outcome State Fault Refusal :=
  .next (s.admCommand ch pkt (fun b => isOp 0x0102 b && (par b 0 1).testBit 0) (fun s b =>
    if !enableFlagsOk b then s.refuse ch 0x0003
    else
      let d := parBytes b 8 64
      s.enableWith ch (pktTarget b) (descOf d) (descFormOk (patchAt d 6 (zeros 1)) (pktTarget b))))

-- PART_DISABLE and PART_QUERY

/-- PART_DISABLE (R284). -/
def execPartDisable (ch : Fin 5) (pkt : List Byte) (s : State) : Host.Outcome State Fault Refusal :=
  .next (s.admCommand ch pkt (isOp 0x0103) (fun s b =>
    let p := pktTarget b
    if !parZero b 0 8 then s.refuse ch 0x0003
    else if (s.part p).busy then s.refuse ch 0x0104
    else (s.updPart p (fun x => { x with pstate := .disabled, desc := { x.desc with enable := false } })).done ch []))

/-- PART_QUERY (R282). -/
def execPartQuery (ch : Fin 5) (pkt : List Byte) (s : State) : Host.Outcome State Fault Refusal :=
  .next (s.admCommand ch pkt (isOp 0x0109) (fun s b =>
    let p := pktTarget b
    if !parZero b 0 8 then s.refuse ch 0x0003
    else s.done ch ((s.part p).bytes p ++ leBytes 1 (s.part p).pstate.code ++ zeros 1 ++ leBytes 2 (s.held 1 p) ++ leBytes 2 (s.held 2 p)
      ++ leBytes 1 (s.held 3 p) ++ zeros 1)))

-- the teardown of a partition (R299)

/-- Steps 2 and 3 for a context: its run is discarded, its queued packets flushed, its fences take PART_ENDED. -/
def State.ctxEnds (s : State) (p c : Nat) : State :=
  let s := s.discardSaved p c
  let s := if (s.ctx p c).resident then s.endRun p c (fun _ => true) else s
  (s.ctx p c).queueIds.foldl (fun s q => (s.packetAbandon p c q 0x8102).flushQueue p c q 0x8102) s

/-- An event queue that is disabled keeps its counts, and that records were dropped since the last one written (R407). -/
def EvqSt.off (q : EvqSt) (held : Nat) : EvqSt :=
  { lost := satAdd 0xFFFFFFFF q.lost held, bad := q.bad, lostBefore := q.lostBefore || decide (0 < held) }

/-- What steps 2 to 4 leave of a partition: nothing in progress, no context, the next generation (R281). -/
def PartSt.ended (x : PartSt) : PartSt :=
  { x with generation := min (x.generation + 1) 0xFFFF, ctxs := [], cq := {}, held := [], runnable := [], batches := [], faultHeld := [],
           nextBatch := 1, tlb := [], mig := none, freezing := none, incoming := [], startOrder := 0,
           evqs := x.evqs.map (fun e => (e.1, e.2.off (x.held.filter (fun r => decide (r.evq = e.1))).length)) }

/-- Steps 1 to 4 of R299. -/
def State.teardownBegin (s : State) (p : Nat) (destroy : Bool) : State :=
  let s := s.updPart p (fun x => { x with pstate := if destroy then .destroying else .resetting, desc := { x.desc with enable := false } })
  let s := ((s.part p).ctxs.map (fun e => e.1)).foldl (fun s c => s.ctxEnds p c) s
  let s := match (s.part p).cq.cur with | some r => s.fenceError p r.doneFence 0x8102 0xFFFF | none => s
  let s := flushControl p 0x8102 (s.part p).cq.waitingSlots s
  let mine (cl : Nat) : Bool := let e := s.clEntry cl; decide (e.state = .bound) && decide (e.owner = p)
  let s := { s with writes := s.writes.filter (fun w => decide (w.part ≠ p)), counts := s.counts.filter (fun m => !mine m.cl),
                    sessions := s.sessions.filter (fun x => decide (x.part ≠ p)) }
  s.updPart p (fun x => { x.ended with teardownStep := 4 })

/-- Live KV slots that a partition owns. -/
def State.kvOwnedBy (s : State) (p : Nat) : List Nat :=
  (s.kv.slots.filter (fun e => e.2.live && decide (e.2.owner = p))).map (fun e => e.1)

/-- Another partition's transfer already moves data to a slot the partition owns. -/
def State.kvHeldUp (s : State) (p : Nat) : Bool :=
  (s.kvOwnedBy p).any (fun i => (s.slotPackets i).any (fun e => decide (e.1 ≠ p) && decide (e.2.2.2.typ = 0x0B) && !e.2.2.2.waiting))

/-- Step 5: KV slots the partition owns are freed, grants to it removed. -/
def State.teardownKv (s : State) (p : Nat) : State :=
  let s := (s.kvOwnedBy p).foldl (fun s i => s.kvFreeSlot i) s
  let cut (k : KvSlot) : KvSlot := { k with grants := k.grants.filter (fun g => decide (g.1 ≠ p)) }
  let slots : Tab KvSlot := s.kv.slots.map (fun (e : Nat × KvSlot) => (e.1, cut e.2))
  { s with kv := { s.kv with slots := slots } }

/-- Step 6: every VD is dissolved, every group and share leaves the map, and no old revision is served. -/
def PartSt.dissolved (x : PartSt) : PartSt :=
  { x with pat := {}, stage := none, stageRelease := [], prev := none, windowClosedAt := none, commit := none, leaving := [],
           takeSet := [], dir := none, gens := [], zeroing := [], lastDrop := [], tension := {}, teardownStep := 6 }

/-- The end of step 6: the command that asked replies, and a function-level reset reports complete (R299, R435). -/
def State.teardownReply (s : State) (p : Nat) : State :=
  let s := match (s.part p).teardownCh with | some ch => s.done ch [] | none => s
  let s := s.updPart p (fun x => { x with teardownCh := none })
  s.updPort (s.part p).desc.ownerPort (fun h => { h with flrs := dropAll h.flrs p })

/-- Step 7: every entry strips; one that strips already does so again when it ends (R298, R299). -/
def State.teardownStrips (s : State) (p : Nat) : State :=
  let keep := decide ((s.part p).pstate = .resetting)
  let bound := s.entriesWhere (fun e => decide (e.state = .bound) && decide (e.owner = p))
  let strips := s.entriesWhere (fun e => decide (e.state = .stripping) && decide (e.owner = p) && e.toBound)
  let s := bound.foldl (fun s e => s.startStrip e.1 e.2 p keep) s
  s.updPart p (fun x => { x with restrip := strips })

/-- Steps 5 to 7, as far as they can go now. -/
def State.teardownGoOn (s : State) (p : Nat) : State :=
  if s.kvHeldUp p then s
  else
    let s := (s.teardownKv p).updPart p PartSt.dissolved
    let cut (r : RegSt) : RegSt :=
      { r with labels := r.labels.filter (fun l => decide (l.part ≠ p)), sent := r.sent.filter (fun l => decide (l.part ≠ p)) }
    let s := { s with regulators := s.regulators.map (fun (e : Nat × RegSt) => (e.1, cut e.2)) }
    (s.teardownReply p).teardownStrips p

/-- A teardown of a partition, for a channel's command or for none. -/
def State.teardown (s : State) (p : Nat) (destroy : Bool) (ch : Option Nat) : State :=
  ((s.teardownBegin p destroy).updPart p (fun x => { x with teardownCh := ch })).teardownGoOn p

/-- PART_DESTROY (R299). -/
def execPartDestroy (ch : Fin 5) (pkt : List Byte) (s : State) : Host.Outcome State Fault Refusal :=
  .next (s.admCommand ch pkt (isOp 0x0104) (fun s b =>
    if !parZero b 0 8 then s.refuse ch 0x0003 else s.teardown (pktTarget b) true (some ch)))

/-- PART_RESET (R299, R281). -/
def execPartReset (ch : Fin 5) (pkt : List Byte) (s : State) : Host.Outcome State Fault Refusal :=
  .next (s.admCommand ch pkt (isOp 0x010A) (fun s b =>
    let p := pktTarget b
    if !parZero b 0 8 then s.refuse ch 0x0003
    else if (s.part p).generation ≥ 0xFFFF then s.refuse ch 0x0108
    else s.teardown p false (some ch)))

/-- TEARDOWN_COMPLETE (R299 steps 5 to 8): postponed steps go on; once every entry has left the strip engine, the partition is DISABLED
or ABSENT. -/
def execTeardownComplete (p : Fin 64) (s : State) : Host.Outcome State Fault Refusal :=
  let x := s.part p
  let live := decide (x.pstate = .resetting) || decide (x.pstate = .destroying)
  .next (if !live then s
    else
      let s := if x.teardownStep < 6 then s.teardownGoOn p else s
      let strips := s.entriesWhere (fun e => decide (e.state = .stripping) && decide (e.owner = p.val))
      if (s.part p).teardownStep < 6 ∨ !strips.isEmpty then s
      else s.updPart p (fun x =>
        if x.pstate = .destroying then { generation := x.generation } else { x with pstate := .disabled, teardownStep := 0 }))

-- function-level reset of a VF (R435)

/-- A command that names the partition has been accepted and has not replied (R362). -/
def State.partCommanded (s : State) (p : Nat) : Bool :=
  s.hubOrder.any (fun c => decide (pktTarget (s.admch c).copy = p) && !queryOp (pktOp (s.admch c).copy))

/-- A function-level reset that must start a teardown does so, behind the commands accepted earlier. -/
def State.flrStart (s : State) (port p : Nat) : State :=
  let x := s.part p
  let runs : Bool := (match x.pstate with | .resetting | .destroying => true | _ => false)
  if !hasNat (s.port port).flrs p ∨ runs ∨ s.partCommanded p then s
  else if x.generation ≥ 0xFFFF then
    (s.teardown p true none).pmPost 0x0108 (leBytes 1 p ++ zeros 13)
  else s.teardown p false none

/-- VF_FLR (R435): the function resets; where the port owns the partition, its teardown runs or is waited for. -/
def execVfFlr (port : Fin 4) (p : Fin 64) (s : State) : Host.Outcome State Fault Refusal :=
  let x := s.part p
  let s := s.msiReset port (p.val + 1)
  .next (if !s.vfServes port p ∨ x.teardownStep ≥ 6 then s
    else (s.updPort port (fun h => { h with flrs := addOnce h.flrs p })).flrStart port p)

/-- A partition is reset after an L2 (R473), as for PART_RESET: behind the commands accepted earlier that name it (R299, R352). One whose
GENERATION is spent is destroyed, as in R435. -/
def State.resetLost (s : State) (p : Nat) : State :=
  let s := s.updPart p (fun x => { x with lostReset := false })
  let runs : Bool := match (s.part p).pstate with | .resetting | .destroying | .absent => true | _ => false
  if runs then s
  else if s.partCommanded p then s.updPart p (fun x => { x with lostReset := true })
  else (s.teardown p (decide ((s.part p).generation ≥ 0xFFFF)) none).logEntry 4 2 0x8102 p 1 (zeros 14 ++ leBytes 2 0xFFFF)

-- freezing and thawing (R437, R438)

/-- An INVAL_TRANSLATION of the partition is in progress. -/
def PartSt.invals (x : PartSt) : Bool := x.ctxs.any (fun e => e.2.packets.any (fun r => r.typ == 0x0A))

/-- A switch of the partition is in progress: a context is being saved or restored, or the one that another made room for has still to
enter (R430). -/
def State.switching (s : State) (p : Nat) : Bool :=
  let x := s.part p
  x.ctxs.any (fun e => e.2.resident && (decide (e.2.switching = 2) || (decide (e.2.switching = 1) && (s.saveObject p e.1).isSome)))
    || x.incoming.any (fun c => s.mayEnter p c)

/-- Steps 2 to 5 of R437, once switches in progress have completed and every resident context has frozen: open fault batches are posted,
and the partition is FROZEN. -/
def State.freezeSettle (s : State) (p : Nat) : State :=
  let x := s.part p
  match x.freezing with
  | none => s
  | some ch =>
    let live := (x.ctxs.filter (fun e => e.2.resident)).map (fun e => e.1)
    if s.switching p ∨ !live.all (fun c => s.freezeDone p c) ∨ x.invals then s
    else
      let s := live.foldl (fun s c => s.updCtx p c (fun x => { x with switching := 0 })) s
      let s := x.batches.foldl (fun s b => s.batchPost p b.ctx b.batched) s
      (s.updPart p (fun x => { x with pstate := .frozen, freezing := none, incoming := [] })).done ch []

/-- PART_FREEZE (R437). -/
def execPartFreeze (ch : Fin 5) (pkt : List Byte) (s : State) : Host.Outcome State Fault Refusal :=
  .next (s.admCommand ch pkt (isOp 0x0105) (fun s b =>
    let p := pktTarget b
    if !parZero b 0 8 then s.refuse ch 0x0003
    else
      let s := s.updPart p (fun x => { x with freezing := some ch })
      let live := ((s.part p).ctxs.filter (fun e => e.2.resident && !e.2.frozen)).map (fun e => e.1)
      (live.foldl (fun s c => s.freezeCtx p c) s).freezeSettle p))

/-- A resident context goes on at the thaw: its faulted accesses are walked again, and it starts a full slice. -/
def State.ctxThaw (s : State) (p c : Nat) : State :=
  let x := s.part p
  let cls := s.runClusters p c
  let s := cls.foldl (fun s i => s.updCl i (fun k => k.reissue x.revision x.generation)) s
  let again (w : FabWrite) : FabWrite := if hasNat cls w.k.cl then { w with faulted := false } else w
  let s := { s with writes := s.writes.map again }
  (s.updCtx p c (fun x => { x with sliceFrom := s.ticks })).resume p c

/-- PART_THAW (R438). -/
def execPartThaw (ch : Fin 5) (pkt : List Byte) (s : State) : Host.Outcome State Fault Refusal :=
  .next (s.admCommand ch pkt (isOp 0x0106) (fun s b =>
    let p := pktTarget b
    if !parZero b 0 8 then s.refuse ch 0x0003
    else
      let s := s.updPart p (fun x => { x with pstate := .enabled })
      let live := ((s.part p).ctxs.filter (fun e => e.2.resident)).map (fun e => e.1)
      let s := live.foldl (fun s c => s.ctxThaw p c) s
      (((s.part p).ctxs.map (fun e => e.1)).foldl (fun s c => s.wake p c) s).done ch []))

-- the strip engine (R294-R298)

/-- The pool entry that a strip works on: kind and index; none for KV blocks. -/
def stripEntry : StripUnit → Option (Nat × Nat)
  | .cluster i => some (1, i)
  | .channel i => some (2, i)
  | .link i => some (3, i)
  | .kvSlot _ => none

/-- A unit's domain is taped off, or the entry is withdrawn from a host first: its strip does not run (R298, R324). -/
def State.stripHeld (s : State) (kind i : Nat) : Bool :=
  (s.entry kind i).withdrawing ||
  (if kind = 1 then s.clTaped i else if kind = 2 then s.chTaped i
   else s.dieTaped (edgeDies (lmEdge i)).1 || s.dieTaped (edgeDies (lmEdge i)).2)

/-- Replies of VD_CAST_ONs whose entries have all left STRIPPING. -/
def State.castSettleAll (s : State) : State := (natRange 0 5).foldl (fun s ch => s.castSettle ch) s

/-- An entry's strip ends; where a teardown waits for it, the teardown takes it. -/
def State.stripDone (s : State) (kind i : Nat) : State :=
  let p := (s.entry kind i).owner
  let again := (s.part p).restrip.any (fun e => decide (e = (kind, i)))
  let s := s.stripEnds kind i
  let s := if again then
      let s := s.updPart p (fun x => { x with restrip := x.restrip.filter (fun e => decide (e ≠ (kind, i))) })
      if (s.entry kind i).state = .bound then s.startStrip kind i p (decide ((s.part p).pstate = .resetting)) else s
    else s
  s.castSettleAll

/-- STRIP_COMPLETE (R294, R295): the entry's state is cleared and it leaves STRIPPING; a KV slot's blocks read zero and are free. -/
def execStripComplete (u : StripUnit) (s : State) : Host.Outcome State Fault Refusal :=
  match stripEntry u, u with
  | some (kind, i), _ =>
    let e := s.entry kind i
    .next (if e.state ≠ .stripping ∨ e.stripFailed ∨ s.stripHeld kind i then s else s.stripDone kind i)
  | none, .kvSlot i =>
    let k := s.slot i
    .next (if !k.stripping ∨ k.stripFailed ∨ s.chTaped k.channel then s
      else
        let s := s.updChan k.channel (fun c => k.places.foldl (fun c b =>
          { c with mem := memZero c.mem (65536 * b) 65536,
                   poison := c.poison.filter (fun r => !(decide (256 * b ≤ r) && decide (r < 256 * b + 256))),
                   ecc := eccAfter c.ecc (65536 * b) 65536 true }) c)
        s.setSlot i { k with stripping := false, places := [] })
  | none, _ => .next s

/-- STRIP_FAILED (R298): the entry stays STRIPPING and the pool manager is told; an entry that is to be retired keeps its storage fenced.
A KV slot's blocks stay out of use, and the event names its channel (log entry 70). -/
def execStripFailed (u : StripUnit) (s : State) : Host.Outcome State Fault Refusal :=
  match stripEntry u, u with
  | some (kind, i), _ =>
    let e := s.entry kind i
    .next (if e.state ≠ .stripping ∨ e.stripFailed ∨ s.stripHeld kind i then s
      else
        let s := s.updEntry kind i (fun e => { e with stripFailed := true })
        if e.retireAs ≠ 0 then (s.stripRetires kind i e.retireAs).castSettleAll
        else s.pmPost 0x8101 (leBytes 1 kind ++ zeros 1 ++ leBytes 2 i ++ zeros 10))
  | none, .kvSlot i =>
    let k := s.slot i
    .next (if !k.stripping ∨ k.stripFailed ∨ s.chTaped k.channel then s
      else (s.setSlot i { k with stripFailed := true }).pmPost 0x8101 (leBytes 1 2 ++ zeros 1 ++ leBytes 2 k.channel ++ zeros 10))
  | none, _ => .next s

-- the debug port (R293)

/-- LOCK of the protection set-up (R286). -/
def PrsSt.lock (r : PrsSt) : Bool := (fieldAt r.regs 0 1).testBit 0

/-- The level that the port behaves at: 0 before the lock. -/
def State.debugNow (s : State) : Nat := if s.prs.lock then s.prs.debugLevel else 0

/-- The unit that a strip works on is passing through the strip engine (R296). -/
def State.unitStrips (s : State) (u : StripUnit) : Bool :=
  match stripEntry u, u with
  | some (kind, i), _ => decide ((s.entry kind i).state = .stripping)
  | none, .kvSlot i => (s.slot i).stripping
  | none, _ => false

/-- JTAG_ACCESS (R293, R296): whether the port reaches the target. -/
def execJtagAccess (t : JtagTarget) (s : State) : Host.Outcome State Fault Refusal :=
  let need := match t with | .boundaryScan => 0 | .hubDebug => 1 | .testAccess _ => 2
  let busy := match t with
    | .testAccess (some u) => s.unitStrips u
    | _ => false
  .next { s with jtagServed := decide (need ≤ s.debugNow) && !busy }

end Sys2Proof.Machine
end

