-- ==== Sys2Proof/Machine/Attest.lean ====
section
/-! DEFINITION. Identity, attestation reports (R512-R518) and sessions (R519, R520). -/

namespace Sys2Proof.Machine

-- firmware that runs (R503, R504)

/-- A firmware slot: 0 A, 1 B. -/
def FwSt.slot (f : FwSt) (i : Nat) : FwSlot := if i = 0 then f.slotA else f.slotB
/-- Put a slot back. -/
def FwSt.setSlot (f : FwSt) (i : Nat) (x : FwSlot) : FwSt := if i = 0 then { f with slotA := x } else { f with slotB := x }
/-- FW_VERSION of an image. -/
def fwVersion (img : List Byte) : Nat := fieldAt img 8 8
/-- SVN of an image. -/
def fwSvn (img : List Byte) : Nat := fieldAt img 0x1C 1
/-- MGT_DIGEST of an image. -/
def fwMgtDigest (img : List Byte) : List Byte := padTo 32 ((img.drop 0x30).take 32)
/-- SEQ_DIGEST of an image. -/
def fwSeqDigest (img : List Byte) : List Byte := padTo 32 ((img.drop 0x50).take 32)

-- reports (R517)

/-- Bytes in every report of this stepping: 0x1830 and an endorsement of 5,456 bytes. -/
def reportLen : Nat := 0x1830 + 5456

/-- ID_PUB (R512): L = 2 as RFC 8554 writes it, then the top tree's public key. -/
def idPub : List Byte := zeros 3 ++ leBytes 1 2 ++ padTo 56 (Config.identity 0)

/-- MEAS (R517). -/
def FwSt.meas (f : FwSt) : List Byte :=
  padTo 32 (Config.identity 2) ++ padTo 32 f.meas1 ++ padTo 32 f.meas2
    ++ (natRange 0 4).flatMap (fun d => padTo 32 (tabGet [] f.seqDigest d)) ++ zeros 32

/-- The signed bytes of a report for a partition, or for none (0xFF). -/
def State.reportBody (s : State) (part leaf : Nat) (nonce : List Byte) : List Byte :=
  let f := s.fw
  leBytes 4 0x54505241 ++ leBytes 4 1 ++ leBytes 4 reportLen ++ leBytes 2 0x4820 ++ leBytes 2 s.fuses.stepping ++ leBytes 8 s.fuses.serial
    ++ leBytes 1 part ++ leBytes 1 f.fusedSvn ++ zeros 2 ++ leBytes 4 (f.bootLeaf.getD 0) ++ leBytes 4 leaf ++ zeros 12 ++ padTo 32 nonce
    ++ f.meas ++ leBytes 8 (fwVersion (f.slot f.runSlot).image) ++ zeros 8 ++ padTo 128 s.prs.regs
    ++ (if part < 64 then (s.part part).bytes part else zeros 64) ++ idPub ++ leBytes 4 5456 ++ zeros 16

/-- Where an HSS signature of the identity key holds the leaf of its top-level and of its lower-level LMS signature (RFC 8554, with the
parameters of R512). -/
def topLeafAt : Nat := 4
/-- The lower level's. -/
def lowerLeafAt : Nat := 2728

/-- The signature of a report body: the top leaf's signature of the lower public key, that key, and the signature of a lower leaf, whose
number it carries (R512, R518). -/
def FwSt.reportSig (f : FwSt) (lower : Nat) (body : List Byte) : List Byte :=
  beBytes 4 1 ++ padTo 2668 f.topSig ++ padTo 56 f.lowerPub
    ++ patchAt (padTo 2828 (Config.lowerSign f.lowerSeed f.lowerId lower body)) 0 (beBytes 4 lower)

/-- The lower tree of a boot (R513 steps 3 to 5): its seed and identifier, drawn from the entropy source, its public key, and the signature
of that by top leaf `q`, whose number it carries. -/
def FwSt.lowerTree (f : FwSt) (top : List Byte) (q k : Nat) : FwSt :=
  let seed := padTo 32 (Config.entropy k 32)
  let id := padTo 16 (Config.entropy (k + 1) 16)
  let pub := padTo 56 (Config.lmsPublic seed id)
  { f with lowerSeed := seed, lowerId := id, lowerPub := pub, bootLeaf := some q, lowerLeaf := 0,
           topSig := patchAt (padTo 2668 (Config.topSign top q pub)) 0 (beBytes 4 q) }

/-- A report: its body, the signature by the boot's lower leaf, and the endorsement. -/
def State.reportOf (s : State) (part leaf : Nat) (nonce : List Byte) : List Byte :=
  let body := s.reportBody part leaf nonce
  body ++ s.fw.reportSig leaf body ++ zeros 12 ++ padTo 5456 (Config.identity 1)

/-- Why no lower leaf can be used (R515): no identity in this boot, or every leaf used. -/
def State.leafCode (s : State) : Option Nat :=
  if s.fw.bootLeaf.isNone then some 0x0710 else if s.fw.lowerLeaf > 1048575 then some 0x0711 else none

/-- Sign a report with the next lower leaf: the counter advances first (R515), and the key store reports its operation done (R498). -/
def State.takeReport (s : State) (part : Nat) (nonce : List Byte) : State × List Byte :=
  let leaf := s.fw.lowerLeaf
  let s := { s with fw := { s.fw with lowerLeaf := leaf + 1 } }.irqRaise 14
  (s, s.reportOf part leaf nonce)

/-- Keep a report in a channel's buffer (R516). -/
def State.keepReport (s : State) (ch part : Nat) (r : List Byte) : State :=
  s.updAdm ch (fun a => { a with report := r, reportPart := part })

/-- A report verifies (R518), against the manufacturing key's hash that this part holds. -/
def reportVerifies (rep : List Byte) : Bool :=
  let sig := (rep.drop 0x270).take 5556
  let pub := (rep.drop 0x220).take 60
  let mfg := (rep.drop 0x1830).take 60
  let top := beNat ((sig.drop topLeafAt).take 4)
  fieldAt rep 0 4 == 0x54505241 && fieldAt rep 4 4 == 1 && fieldAt rep 8 4 == 0x1830 + fieldAt rep 0x25C 4
    && zeroAt rep 0x1A 2 && zeroAt rep 0x24 12 && zeroAt rep 0x158 8 && zeroAt rep 0x260 16 && zeroAt rep 0x1824 12
    && sha256 mfg == padTo 32 (Config.rootHash 1)
    && Config.hssVerifies mfg (sha256 ((rep.drop 0x10).take 8 ++ pub)) ((rep.drop 0x186C).take (fieldAt rep 0x25C 4 - 60))
    && Config.hssVerifies pub (rep.take 0x270) sig
    && top == fieldAt rep 0x1C 4 && decide (top < 4096) && beNat ((sig.drop lowerLeafAt).take 4) == fieldAt rep 0x20 4

-- ATTEST_REPORT (R516)

/-- ATTEST_REPORT with GENERATE (R515, R516). -/
def execAttestReportGenerate (ch : Fin 5) (pkt : List Byte) (s : State) : Host.Outcome State Fault Refusal :=
  .next (s.admCommand ch pkt (fun b => isOp 0x0701 b && par b 0 1 == 1) (fun s b =>
    let t := pktTarget b
    let dest := par b 0x10 8
    if !parZero b 1 15 then s.refuse ch 0x0003
    else if dest ≠ 0 ∧ (ch.val = 4 ∨ !isHpa dest) then s.refuse ch 0x0005
    else
      match s.leafCode with
      | some c => s.refuse ch c
      | none =>
        match s.takeReport t (parBytes b 0x18 32) with
        | (s, r) =>
          let s := s.keepReport ch t r
          let res := leBytes 4 r.length ++ leBytes 4 (s.fw.bootLeaf.getD 0)
          if dest = 0 then s.done ch res
          else match s.agentWrite t 0 dest r false true (some 0) with
            | (s, .ok _) => s.done ch res
            | (s, .error (.code c)) => s.refuse ch c
            | (s, .error (.xlate e)) => s.refuse ch e.code))

/-- ATTEST_REPORT with READ (R516). -/
def execAttestReportRead (ch : Fin 5) (pkt : List Byte) (s : State) : Host.Outcome State Fault Refusal :=
  .next (s.admCommand ch pkt (fun b => isOp 0x0701 b && par b 0 1 == 2) (fun s b =>
    let a := s.admch ch
    let off := par b 4 4; let n := par b 8 4
    if !parZero b 1 3 ∨ !parZero b 0x0C 44 then s.refuse ch 0x0003
    else if n < 1 ∨ n > 4080 then s.refuse ch 0x0005
    else if a.report.isEmpty ∨ a.reportPart ≠ pktTarget b ∨ off ≥ a.report.length then s.refuse ch 0x0712
    else s.done ch ((a.report.drop off).take n)))

-- sessions (R519, R520)

/-- Coefficient `i` of the 12-bit coefficients that a byte string packs. -/
def kemCoeff (bs : List Byte) (i : Nat) : Nat :=
  let v := fieldAt bs (3 * (i / 2)) 3
  if i % 2 = 0 then v % 4096 else v / 4096

/-- The check of an ML-KEM-1024 encapsulation key under FIPS 203: each of its 1,024 coefficients is reduced. -/
def kemOk (ek : List Byte) : Bool := (natRange 0 1024).all (fun i => decide (kemCoeff ek i < 3329))

/-- Open sessions of a partition. -/
def State.openSessions (s : State) (p : Nat) : Nat := (s.sessions.filter (fun x => decide (x.part = p) && !x.closed)).length

/-- SESSION_OPEN (R519). -/
def execSessionOpen (ch : Fin 5) (pkt : List Byte) (s : State) : Host.Outcome State Fault Refusal :=
  .next (s.admCommand ch pkt (isOp 0x0702) (fun s b =>
    let p := pktTarget b
    let ek := parBytes b 0 1568
    if !parZero b 1568 8 then s.refuse ch 0x0003
    else if !kemOk ek then s.refuse ch 0x0715
    else if s.openSessions p ≥ 16 then s.refuse ch 0x0713
    else
      match s.leafCode with
      | some c => s.refuse ch c
      | none =>
        let k := s.freeCtr
        let ct := padTo 1568 (Config.kemCipher ek k)
        let id := s.fw.nextSession
        let new : Session := { id := id, part := p, secret := padTo 32 (Config.kemSecret ek k) }
        let fw : FwSt := { s.fw with nextSession := if id = 0xFFFFFFFF then 1 else id + 1 }
        let s := { s with freeCtr := k + 1, fw := fw, sessions := s.sessions ++ [new] }
        match s.takeReport p (sha256 (ek ++ ct ++ leBytes 4 id)) with
        | (s, r) => (s.keepReport ch p r).done ch (leBytes 4 id ++ zeros 4 ++ ct ++ leBytes 4 r.length ++ zeros 4)))

/-- A sealing or unsealing COPY of a session is in progress. -/
def State.sessionUsed (s : State) (p id : Nat) : Bool :=
  s.inProgress.any (fun e => decide (e.1 = p) && decide (e.2.2.2.typ = 3) && decide (pay e.2.2.2.bytes 0x1C 4 = id))

/-- SESSION_CLOSE (R520). -/
def execSessionClose (ch : Fin 5) (pkt : List Byte) (s : State) : Host.Outcome State Fault Refusal :=
  .next (s.admCommand ch pkt (isOp 0x0703) (fun s b =>
    let p := pktTarget b
    let id := par b 0 4
    if !parZero b 4 4 then s.refuse ch 0x0003
    else if (s.openSession p id).isNone then s.refuse ch 0x0714
    else if s.sessionUsed p id then (s.updSession id (fun x => { x with closed := true })).done ch []
    else ({ s with sessions := s.sessions.filter (fun x => decide (x.id ≠ id)) }).done ch []))

end Sys2Proof.Machine
end

