-- ==== Sys2Proof/Machine/BSlot.lean ====
section
/-! DEFINITION. The B slot (R59, R60): each command issues its bundle with its own opcode in the slot. -/

namespace Sys2Proof.Machine

/-- BR (R59): issue the bundle with opcode 0x01 in its B slot. -/
def execBr (k : CoreId) (b : Bundle) (s : State) : Host.Outcome State Fault Refusal :=
  .next (s.issue k { b with b := { b.b with op := 0x01 } })

/-- BRZ (R59): issue the bundle with opcode 0x02 in its B slot. -/
def execBrz (k : CoreId) (b : Bundle) (s : State) : Host.Outcome State Fault Refusal :=
  .next (s.issue k { b with b := { b.b with op := 0x02 } })

/-- BRNZ (R59): issue the bundle with opcode 0x03 in its B slot. -/
def execBrnz (k : CoreId) (b : Bundle) (s : State) : Host.Outcome State Fault Refusal :=
  .next (s.issue k { b with b := { b.b with op := 0x03 } })

/-- CALL (R59): issue the bundle with opcode 0x05 in its B slot. -/
def execCall (k : CoreId) (b : Bundle) (s : State) : Host.Outcome State Fault Refusal :=
  .next (s.issue k { b with b := { b.b with op := 0x05 } })

/-- JR (R59): issue the bundle with opcode 0x06 in its B slot. -/
def execJr (k : CoreId) (b : Bundle) (s : State) : Host.Outcome State Fault Refusal :=
  .next (s.issue k { b with b := { b.b with op := 0x06 } })

/-- Opcode of LD by width (R59). -/
def ldCode : MemWidth → BitVec 8
  | .b => 0x08 | .h => 0x09 | .w => 0x0A | .d => 0x0B

/-- Opcode of a sign-extending load by width (R59). -/
def ldSignedCode : SignedWidth → BitVec 8
  | .b => 0x0C | .h => 0x0D | .w => 0x0E

/-- Opcode of ST by width (R59). -/
def stCode : MemWidth → BitVec 8
  | .b => 0x10 | .h => 0x11 | .w => 0x12 | .d => 0x13

/-- LD (R59, R60): issue the bundle with the load in its B slot. -/
def execLd (k : CoreId) (mw : MemWidth) (b : Bundle) (s : State) : Host.Outcome State Fault Refusal :=
  .next (s.issue k { b with b := { b.b with op := ldCode mw } })

/-- LD, sign-extending (R59, R60): issue the bundle with the load in its B slot. -/
def execLdSigned (k : CoreId) (sw : SignedWidth) (b : Bundle) (s : State) : Host.Outcome State Fault Refusal :=
  .next (s.issue k { b with b := { b.b with op := ldSignedCode sw } })

/-- ST (R59, R60): issue the bundle with the store in its B slot. -/
def execSt (k : CoreId) (mw : MemWidth) (b : Bundle) (s : State) : Host.Outcome State Fault Refusal :=
  .next (s.issue k { b with b := { b.b with op := stCode mw } })

/-- LD_V (R151): issue the bundle with opcode 0x14 in its B slot. -/
def execLdV (k : CoreId) (b : Bundle) (s : State) : Host.Outcome State Fault Refusal :=
  .next (s.issue k { b with b := { b.b with op := 0x14 } })

/-- HALT (R59): issue the bundle with opcode 0x18 in its B slot. -/
def execHalt (k : CoreId) (b : Bundle) (s : State) : Host.Outcome State Fault Refusal :=
  .next (s.issue k { b with b := { b.b with op := 0x18 } })

end Sys2Proof.Machine
end

