-- ==== Sys2Proof/Machine/Channels.lean ====
section
/-! DEFINITION. HBM channels (R169-R179, R198, R199) and the unravel units' frames (R180-R195). -/

namespace Sys2Proof.Machine

/-- A channel's controller takes a request, if only to refuse it: a DISABLED channel has none in service (R26), and none runs in reset (R556). -/
def State.chanAnswers (s : State) (ch loc : Nat) : Bool :=
  s.hubRuns && decide ((s.chEntry ch).state ≠ .disabled) && decide (loc < chanLocations)

/-- The controller answers a request with a code and no data (R199, R296, R465). -/
def ChannelSt.refused (c : ChannelSt) (code : Nat) : ChannelSt := { c with readData := [], readPoison := false, readCode := code }

/-- CHANNEL_READ (R173, R174, R177): one 256-byte read of a location, its ECC outcome, and what it returns. -/
def execChannelRead (ch : Fin 320) (loc : Nat) (e : EccOutcome) (s : State) : Host.Outcome State Fault Refusal :=
  if !s.chanAnswers ch loc then .next s
  else
    match s.chanRefuses ch with
    | some code => .next (s.updChan ch (fun c => c.refused code))
    | none =>
      let s := (s.eccMark (.chan ch (256 * loc)) e.ecc).eccRead (.chan ch (256 * loc)) 256
      let r := s.readLoc (.chan ch (256 * loc)) 256
      .next (s.updChan ch (fun c => { c with readData := r.1, readPoison := r.2, readCode := 0 })).postReports

/-- CHANNEL_WRITE (R174, R322): one write within a location; it waits where the host may hold a line, which is back-invalidated first. -/
def execChannelWrite (ch : Fin 320) (loc : Nat) (data : List Byte) (poison : Bool) (s : State) :
    Host.Outcome State Fault Refusal :=
  let bs := data.take 256
  if !s.chanAnswers ch loc ∨ bs.isEmpty then .next s
  else
    match s.chanRefuses ch with
    | some code => .next (s.updChan ch (fun c => c.refused code))
    | none =>
      let held := (s.chan ch).heldLines (256 * loc) bs.length
      if held.isEmpty then .next ((s.writeLoc (.chan ch (256 * loc)) bs [] poison).updChan ch (fun c => { c with readCode := 0 }))
      else .next (s.updChan ch (fun c =>
        { c with bisnp := held.foldl addOnce c.bisnp, writeWait := c.writeWait ++ [(256 * loc, bs, poison)] }))

/-- REFRESH (R169, R171): it delays requests and changes no data. -/
def execRefresh (ch : Fin 320) (_bank : Nat) (s : State) : Host.Outcome State Fault Refusal :=
  .next (s.whileUp (fun s => s.updChan ch (fun c => { c with refreshes := c.refreshes + 1 })))

/-- RFM (R169, R171): it delays requests and changes no data. -/
def execRfm (ch : Fin 320) (_bank : Nat) (s : State) : Host.Outcome State Fault Refusal :=
  .next (s.whileUp (fun s => s.updChan ch (fun c => { c with rfms := c.rfms + 1 })))

/-- FRAME_DECODE (R189, R191, R194). -/
def execFrameDecode (k : CoreId) (dq : Fin 16) (frame : Nat) (e : EccOutcome) (s : State) : Host.Outcome State Fault Refusal :=
  .next (s.frameStep k dq frame e)

/-- TABLE_RECORD_FETCH (R192): a channel's unit reads a table record of a partition, under the present pattern revision. -/
def execTableRecordFetch (ch : Fin 320) (p : Fin 64) (pla : Nat) (s : State) : Host.Outcome State Fault Refusal :=
  .next (s.fetchRecord ch p (s.part p).revision (256 * pla)).1

/-- A lane fault takes a channel in service out: it leaves as its state asks, and is RETIRED once its fuse is blown (R198, R199, R496). -/
def State.laneFault (s : State) (ch : Nat) : State := s.retireByItself 2 ch 2

/-- Times of a lane's errors within the last second, the newest added. -/
def parityTimes (ts : List Nat) (now : Nat) : List Nat := ts.filter (fun t => decide (now < t + 1700000000)) ++ [now]

/-- DATA_PARITY_ERROR (R198): more than 64 on one lane within 1 s are a lane fault. -/
def execDataParityError (ch : Fin 320) (lane : Fin 64) (s : State) : Host.Outcome State Fault Refusal :=
  .next (s.whileUp (fun s =>
    let ts := parityTimes (tabGet [] (s.chan ch).parity lane) s.ticks
    let s := s.updChan ch (fun c => { c with parity := tabSet c.parity lane ts })
    if ts.length > 64 then s.laneFault ch else s))

/-- LANE_FAULT (R198, R199). -/
def execLaneFault (ch : Fin 320) (s : State) : Host.Outcome State Fault Refusal :=
  .next (s.whileUp (fun s => s.laneFault ch))

/-- TRACKER_ENTRY_FREED (R178, R179): a transaction that waits at a cluster stop takes the entry. An entry of one of the other two stops is of
the pool, or lets such a stop leave the pool: then any cluster stop of the die may take it. The transactions of those two stops begin and end
within one command (log entry 14). -/
def execTrackerEntryFreed (d : Fin 4) (stop : TrackerStop) (s : State) : Host.Outcome State Fault Refusal :=
  .next (match stop with
    | .cluster c => s.sendHeld (48 * d + c)
    | .sequencer | .hubEdge => (natRange (48 * d) 48).foldl State.sendHeld s)

end Sys2Proof.Machine
end

