-- ==== Sys2Proof/Machine/Firmware.lean ====
section
/-! DEFINITION. Firmware (R502-R511): staging, activation, anti-rollback, and what FW_QUERY reports. -/

namespace Sys2Proof.Machine

-- images (R503, R510)

/-- Ranges in a list do not overlap. -/
def rangesDisjoint (rs : List (Nat × Nat)) : Bool :=
  (natRange 0 rs.length).all (fun i => (natRange 0 i).all (fun j =>
    let a := rs.getD i (0, 0); let b := rs.getD j (0, 0)
    decide (a.1 + a.2 ≤ b.1) || decide (b.1 + b.2 ≤ a.1)))

/-- The layout, the digests and the SVN agreement of R503. -/
def fwLayoutOk (img : List Byte) : Bool :=
  let len := fieldAt img 0x18 4
  let sec (o : Nat) : Nat × Nat := (fieldAt img o 4, fieldAt img (o + 4) 4)
  let mgt := sec 0x20; let seq := sec 0x28; let sig := sec 0x70
  let part (r : Nat × Nat) : List Byte := padTo r.2 ((img.drop r.1).take r.2)
  fieldAt img 0 4 == 0x3057464D && fieldAt img 4 4 == 1 && decide (len ≤ 0x4000000) && zeroAt img 0x1D 3 && zeroAt img 0x78 8
    && decide (mgt.2 ≤ 0x400000) && decide (seq.2 ≤ 0x100000) && sig.1 + sig.2 == len && decide (60 ≤ sig.2)
    && [mgt, seq, sig].all (fun r => decide (r.1 + r.2 ≤ len)) && rangesDisjoint [(0, 0x80), mgt, seq, sig]
    && sha256 (part mgt) == fwMgtDigest img && sha256 (part seq) == fwSeqDigest img
    && decide (fwSvn img ≤ 64) && fwSvn img == bitsAt (fwVersion img) 15 8 && bitsAt (fwVersion img) 7 0 == 0

/-- An image is valid (R503): FW_PUB is the fused root's, and its signature over what stands before the signature section verifies. -/
def fwValid (img : List Byte) : Bool :=
  let off := fieldAt img 0x70 4
  let sig := (img.drop off).take (fieldAt img 0x74 4)
  let pub := sig.take 60
  fwLayoutOk img && sha256 pub == padTo 32 (Config.rootHash 0) && Config.hssVerifies pub (img.take off) (sig.drop 60)

/-- The slot that is ACTIVE: 0 A, 1 B. -/
def FwSt.active (f : FwSt) : Nat := if f.slotB.state = 3 then 1 else 0
/-- The inactive slot. -/
def FwSt.inactive (f : FwSt) : Nat := 1 - f.active
/-- The version without its SVN, as versions order (R504). -/
def fwOrder (v : Nat) : Nat := v / 65536

/-- A firmware entry of the log (R500 KIND 3). -/
def State.logFirmware (s : State) (op slot unit : Nat) : State :=
  s.logEntry 5 0 0 0xFF 3 (leBytes 8 (fwVersion (s.fw.slot slot).image) ++ leBytes 1 op ++ leBytes 1 slot ++ leBytes 2 unit)

/-- The management section of a slot's image (R503). -/
def FwSt.mgtSection (f : FwSt) (i : Nat) : List Byte :=
  let img := (f.slot i).image
  padTo (fieldAt img 0x24 4) ((img.drop (fieldAt img 0x20 4)).take (fieldAt img 0x24 4))

/-- A slot's management section is loaded into SRAM, MEAS[2] takes its digest, and the four cores start in it (R507 step 3, R495). Where in
SRAM the parts of R495 lie, and where the cores start, is the device's own (log entry 84). -/
def State.loadFirmware (s : State) (i : Nat) : State :=
  { s with fw := { s.fw with runSlot := i, meas2 := fwMgtDigest (s.fw.slot i).image }, mgtSram := memWrite s.mgtSram 0 (s.fw.mgtSection i),
           mgtCores := (natRange 0 4).map (fun c => (c, { running := true, entry := 0 })) }

/-- The running firmware writes its handover state, of a form of its own, to SRAM (R507 step 2, R495). -/
def State.writeHandover (s : State) : State :=
  match s.fresh with
  | (f, s) => { s with mgtSram := memWrite s.mgtSram 0x600000 ((Config.ownFormat 3 f).take 0x180000) }

-- staging (R505); a flash operation that ends raises the xSPI controller's interrupt (R498)

/-- Reserved bytes of FW_STAGE. -/
def stageZero (b : List Byte) : Bool := parZero b 1 3

/-- Why an operation on the session is refused: another channel owns it, or none is open. -/
def FwSt.stageCode (f : FwSt) (ch : Nat) (needs : Bool) : Option Nat :=
  match f.stageOwner with
  | some o => if o = ch then none else some 0x0702
  | none => if needs then some 0x0701 else none

/-- The session ends, with the inactive slot in a state. -/
def FwSt.stageEnd (f : FwSt) (state : Nat) : FwSt :=
  { f.setSlot f.inactive { f.slot f.inactive with state := state } with stageOwner := none }

/-- FW_STAGE BEGIN (R505); `ok` says whether the flash erased. -/
def execFwStageBegin (ch : Fin 5) (pkt : List Byte) (ok : Bool) (s : State) : Host.Outcome State Fault Refusal :=
  .next (s.admCommand ch pkt (fun b => isOp 0x0704 b && par b 0 1 == 1) (fun s b =>
    if !stageZero b then s.refuse ch 0x0003
    else
      match s.fw.stageCode ch false with
      | some c => s.refuse ch c
      | none =>
        if par b 4 4 ≠ 0 ∨ par b 8 8 ≠ 0 then s.refuse ch 0x0005
        else if !ok then ({ s with fw := (s.fw.setSlot s.fw.inactive {}).stageEnd 5 }.irqRaise 12).refuse ch 0x8702
        else
          ({ s with fw := { s.fw.setSlot s.fw.inactive { state := 1 } with stageOwner := some ch, stageAt := s.ticks } }.irqRaise 12).done ch []))

/-- FW_STAGE WRITE (R505); `ok` says whether the flash programmed. -/
def execFwStageWrite (ch : Fin 5) (pkt : List Byte) (ok : Bool) (s : State) : Host.Outcome State Fault Refusal :=
  .next (s.admCommand ch pkt (fun b => isOp 0x0704 b && par b 0 1 == 2) (fun s b =>
    let n := par b 4 4
    let x := s.fw.slot s.fw.inactive
    if !stageZero b then s.refuse ch 0x0003
    else
      match s.fw.stageCode ch true with
      | some c => s.refuse ch c
      | none =>
        if n < 1 ∨ n > 4048 ∨ par b 8 8 ≠ x.image.length ∨ par b 8 8 + n > 0x4000000 then s.refuse ch 0x0703
        else if !ok then ({ s with fw := s.fw.stageEnd 5 }.irqRaise 12).refuse ch 0x8702
        else
          let x := { x with image := x.image ++ parBytes b 16 n }
          ({ s with fw := { s.fw.setSlot s.fw.inactive x with stageAt := s.ticks } }.irqRaise 12).done ch []))

/-- FW_STAGE END (R505). -/
def execFwStageEnd (ch : Fin 5) (pkt : List Byte) (s : State) : Host.Outcome State Fault Refusal :=
  .next (s.admCommand ch pkt (fun b => isOp 0x0704 b && par b 0 1 == 3) (fun s b =>
    let img := (s.fw.slot s.fw.inactive).image
    if !stageZero b then s.refuse ch 0x0003
    else
      match s.fw.stageCode ch true with
      | some c => s.refuse ch c
      | none =>
        if !fwLayoutOk img ∨ fieldAt img 0x18 4 ≠ img.length then
          ({ s with fw := { s.fw with stageAt := s.ticks } }).refuse ch 0x0704
        else
          let i := s.fw.inactive
          (({ s with fw := s.fw.stageEnd 2 }).logFirmware 0 i 0).done ch []))

/-- FW_STAGE ABORT (R505). -/
def execFwStageAbort (ch : Fin 5) (pkt : List Byte) (s : State) : Host.Outcome State Fault Refusal :=
  .next (s.admCommand ch pkt (fun b => isOp 0x0704 b && par b 0 1 == 4) (fun s b =>
    if !stageZero b then s.refuse ch 0x0003
    else
      match s.fw.stageCode ch true with
      | some c => s.refuse ch c
      | none => ({ s with fw := s.fw.stageEnd 5 }).done ch []))

/-- FW_STAGE_SESSION_TIMEOUT (R505): 60 s without a command of the owner abort the session, which is logged. -/
def execFwStageSessionTimeout (s : State) : Host.Outcome State Fault Refusal :=
  match s.fw.stageOwner with
  | none => .next s
  | some _ =>
    let i := s.fw.inactive
    .next (({ s with fw := s.fw.stageEnd 5 }).logFirmware 0 i 0)

-- activation (R506-R508)

/-- Why ACTIVATE_MGT is refused (R507 step 1). -/
def FwSt.activateCode (f : FwSt) : Option Nat :=
  let x := f.slot f.inactive
  if x.state ≠ 2 then some 0x0708
  else if !fwValid x.image then some 0x0705
  else if fwSvn x.image < f.fusedSvn then some 0x0706
  else if (natRange 0 4).any (fun d => decide (fwOrder (tabGet 0 f.seqVersion d) < fwOrder (fieldAt x.image 0x10 8))) then some 0x0707
  else none

/-- ACTIVATE_MGT (R507 steps 1 to 3): the new firmware runs and must service the watchdog, which the reply waits for. -/
def execActivateMgt (ch : Fin 5) (pkt : List Byte) (s : State) : Host.Outcome State Fault Refusal :=
  .next (s.admCommand ch pkt (fun b => isOp 0x0705 b && par b 0 1 == 1) (fun s b =>
    if !parZero b 1 7 then s.refuse ch 0x0003
    else
      match s.fw.activateCode with
      | some c => s.refuse ch c
      | none =>
        let i := s.fw.inactive
        let s := s.writeHandover.loadFirmware i
        { s with fw := { s.fw with handover := some ch }, mgtWatch := s.ticks }))

/-- BR_CHECK over a copy of the boot record (R560). -/
def bootCheck (bs : List Byte) : Nat := crc16 (patchAt bs 0x0C (zeros 2))

/-- A copy of the boot record: BR_SEQ and BR_SLOT where its magic, zero fields, slot and check are right (R560). -/
def bootCopy (bs : List Byte) : Option (Nat × Nat) :=
  if bs.length = 16 ∧ fieldAt bs 0 4 = 0x44524342 ∧ fieldAt bs 8 1 < 2 ∧ zeroAt bs 9 3 ∧ zeroAt bs 0x0E 2 ∧ fieldAt bs 0x0C 2 = bootCheck bs then
    some (fieldAt bs 4 4, fieldAt bs 8 1)
  else none

/-- The bytes of a copy. -/
def bootCopyBytes (seq slot : Nat) : List Byte :=
  let bs := leBytes 4 0x44524342 ++ leBytes 4 seq ++ leBytes 1 slot ++ zeros 7
  patchAt bs 0x0C (leBytes 2 (bootCheck bs))

/-- The slot that the boot record names (R560): the valid copy with the higher BR_SEQ, else slot A. -/
def FwSt.bootSlot (f : FwSt) : Nat :=
  match bootCopy f.bootA, bootCopy f.bootB with
  | some a, some b => if a.1 < b.1 then b.2 else a.2
  | some a, none => a.2
  | none, some b => b.2
  | none, none => 0

/-- The copy that is not in force is rewritten with BR_SEQ one higher (R560); of two blank copies the first is written. -/
def FwSt.nameSlot (f : FwSt) (i : Nat) : FwSt :=
  match bootCopy f.bootA, bootCopy f.bootB with
  | some a, some b => if a.1 < b.1 then { f with bootA := bootCopyBytes (b.1 + 1) i } else { f with bootB := bootCopyBytes (a.1 + 1) i }
  | some a, none => { f with bootB := bootCopyBytes (a.1 + 1) i }
  | none, some b => { f with bootA := bootCopyBytes (b.1 + 1) i }
  | none, none => { f with bootA := bootCopyBytes 1 i }

/-- The new firmware has serviced the watchdog (R507 steps 5 and 6). -/
def State.handoverDone (s : State) : State :=
  match s.fw.handover with
  | none => s
  | some ch =>
    let new := s.fw.runSlot
    let old := 1 - new
    let f := s.fw.setSlot new { s.fw.slot new with state := 3 }
    let f := f.setSlot old { f.slot old with state := 4 }
    (({ s with fw := { f.nameSlot new with handover := none } }.irqRaise 12).logFirmware 1 new 0).done ch []

/-- The new firmware did not take over in time (R507): the old one runs again, and the new slot is INVALID. -/
def State.handoverFails (s : State) : State :=
  match s.fw.handover with
  | none => s
  | some ch =>
    let new := s.fw.runSlot
    let old := 1 - new
    let f := s.fw.setSlot new { s.fw.slot new with state := 5 }
    let s := ({ s with fw := { f with handover := none }, mgtWatch := s.ticks }).loadFirmware old
    (s.logFirmware 1 old 0).refuse ch 0x8701

/-- HANDOVER_TIMEOUT (R507). -/
def execHandoverTimeout (s : State) : Host.Outcome State Fault Refusal := .next s.handoverFails

/-- A die has a VD cluster of a context. -/
def State.ctxOnDie (s : State) (p c d : Nat) : Bool := (s.vdOf p c).any (fun i => decide (clDie i = d))

/-- FW_DIE_BUSY (R508). -/
def State.dieBusy (s : State) (d : Nat) : Bool :=
  s.dieTaped d ||
  s.parts.any (fun p => p.2.ctxs.any (fun c => c.2.resident && c.2.residentVd.any (fun i => decide (clDie i = d)))) ||
  s.inProgress.any (fun e => !e.2.2.2.waiting && s.ctxOnDie e.1 e.2.1 d && !(decide (e.2.2.2.typ = 0x0B) || decide (e.2.2.2.typ = 0x0C)))

/-- Load the sequencer section of the ACTIVE slot on a die (R508). -/
def FwSt.loadSeq (f : FwSt) (d : Nat) : FwSt :=
  let img := (f.slot f.active).image
  { f with seqVersion := tabSet f.seqVersion d (fwVersion img), seqDigest := tabSet f.seqDigest d (fwSeqDigest img) }

/-- ACTIVATE_DIE (R508). -/
def execActivateDie (ch : Fin 5) (pkt : List Byte) (s : State) : Host.Outcome State Fault Refusal :=
  .next (s.admCommand ch pkt (fun b => isOp 0x0705 b && par b 0 1 == 2) (fun s b =>
    let d := par b 2 2
    if !parZero b 1 1 ∨ !parZero b 4 4 then s.refuse ch 0x0003
    else if d > 3 then s.refuse ch 0x0005
    else if s.dieBusy d then s.refuse ch 0x0709
    else (({ s with fw := s.fw.loadSeq d }).logFirmware 2 s.fw.active d).done ch []))

-- COMMIT_SVN (R509)

/-- Slots whose SVN falls below FUSED_SVN become INVALID: every one that holds an SVN, a STAGING slot once its image reaches that far. -/
def FwSt.dropBelow (f : FwSt) : FwSt :=
  let holds (x : FwSlot) : Bool := decide (2 ≤ x.state) || (decide (x.state = 1) && decide (0x1C < x.image.length))
  let cut (x : FwSlot) : FwSlot := if holds x ∧ fwSvn x.image < f.fusedSvn then { x with state := 5 } else x
  { f with slotA := cut f.slotA, slotB := cut f.slotB }

/-- COMMIT_SVN (R509): the reply comes when the fuse controller is done. -/
def execCommitSvn (ch : Fin 5) (pkt : List Byte) (s : State) : Host.Outcome State Fault Refusal :=
  .next (s.admCommand ch pkt (fun b => isOp 0x0705 b && par b 0 1 == 3) (fun s b =>
    if !parZero b 1 7 then s.refuse ch 0x0003
    else if fwSvn (s.fw.slot s.fw.active).image ≤ s.fw.fusedSvn then s.done ch []
    else { s with fw := { s.fw with svnCh := some ch } }))

/-- The anti-rollback fuses read blown (R496, R509). -/
def State.svnDone (s : State) : State :=
  match s.fw.svnCh with
  | none => s
  | some ch =>
    let f := { s.fw with fusedSvn := max s.fw.fusedSvn (fwSvn (s.fw.slot s.fw.active).image), svnCh := none }
    (({ s with fw := f.dropBelow }).logFirmware 3 s.fw.active 0).done ch []

-- FW_QUERY (R511)

/-- A slot's 24 bytes. -/
def FwSlot.bytes (x : FwSlot) : List Byte :=
  leBytes 1 x.state ++ zeros 3 ++ leBytes 4 x.image.length ++ leBytes 8 (fwVersion x.image) ++ leBytes 1 (fwSvn x.image) ++ zeros 7

/-- FW_QUERY (R511). -/
def execFwQuery (ch : Fin 5) (pkt : List Byte) (s : State) : Host.Outcome State Fault Refusal :=
  .next (s.admCommand ch pkt (isOp 0x0706) (fun s b =>
    let f := s.fw
    if !parZero b 0 8 then s.refuse ch 0x0003
    else s.done ch (leBytes 1 f.runSlot ++ leBytes 1 f.fusedSvn ++ leBytes 1 (f.stageOwner.getD 0xFF) ++ zeros 5 ++ f.slotA.bytes
      ++ f.slotB.bytes ++ (natRange 0 4).flatMap (fun d => leBytes 8 (tabGet 0 f.seqVersion d)))))

end Sys2Proof.Machine
end

