-- ==== Sys2Proof/Machine/MSlot.lean ====
section
/-! DEFINITION. The M slot and the matrix unit (R64-R68): MMA issues its bundle; the unit's own events run the cluster to the cycle
in which they fall due. -/

namespace Sys2Proof.Machine

/-- MMA (R65): issue the bundle with opcode 0x01 in its M slot. -/
def execMma (k : CoreId) (b : Bundle) (s : State) : Host.Outcome State Fault Refusal :=
  .next (s.issue k { b with m := { b.m with op := 0x01 } })

/-- MMA_PENDING_START (R65): the cluster runs to the cycle in which the pending MMA starts. Nothing is pending: no effect. -/
def execMmaPendingStart (k : CoreId) (s : State) : Host.Outcome State Fault Refusal :=
  let c := s.core k
  match c.mexec, c.mpend with
  | some m, some _ => .next (s.advance k.cl (m.start + 256))
  | _, _ => .next s

/-- MMA_RESULT (R67): the cluster runs to the cycle in which the accumulator of the core's oldest MMA is visible. -/
def execMmaResult (k : CoreId) (s : State) : Host.Outcome State Fault Refusal :=
  let c := s.core k
  match nextDue c isTile, c.mexec with
  | some t, _ => .next (s.advance k.cl t)
  | none, some m => .next (if m.poisoned then s else s.advance k.cl (m.start + 268))
  | none, none => .next s

end Sys2Proof.Machine
end

