-- ==== Sys2Proof/Machine/Mctp.lean ====
section
/-! DEFINITION. The board-controller path (R364-R366, R563): dynamic address assignment, the MCTP control commands, and request messages.
The replies to control commands are kept from the completion code on, in the form of DMTF DSP0236 (log entry 26). -/

namespace Sys2Proof.Machine

/-- ENTDAA (R563): the target takes part from step 3 of a start; one that has its address takes part again once it has asked by Hot-Join. -/
def execEntdaa (addr : BitVec 7) (s : State) : Host.Outcome State Fault Refusal :=
  .next (if s.bcUp ∧ (s.bc.address.isNone ∨ s.bc.hotJoin) then
      { s with bc := { s.bc with address := some addr.toNat, hotJoin := false } }
    else s)

/-- A control command is answered where the target can be reached. -/
def State.ctlAnswer (s : State) (bs : List Byte) : State := if s.bcReached then { s with bc := { s.bc with ctlReply := bs } } else s

/-- SET_ENDPOINT_ID (R364): the null, broadcast and reserved identifiers are turned down. -/
def execSetEndpointId (eid : Byte) (s : State) : Host.Outcome State Fault Refusal :=
  let v := eid.toNat
  .next (if v < 8 ∨ v = 0xFF then s.ctlAnswer (leBytes 1 2)
    else if s.bcReached then ({ s with bc := { s.bc with eid := v } }).ctlAnswer (zeros 2 ++ leBytes 1 v ++ zeros 1)
    else s)

/-- GET_ENDPOINT_ID (R364). -/
def execGetEndpointId (s : State) : Host.Outcome State Fault Refusal := .next (s.ctlAnswer (zeros 1 ++ leBytes 1 s.bc.eid ++ zeros 2))

/-- GET_MCTP_VERSION_SUPPORT (R364): the versions of the base specification and of the two message types are free values. -/
def execGetMctpVersionSupport (msgType : Byte) (s : State) : Host.Outcome State Fault Refusal :=
  let t := msgType.toNat
  .next (s.ctlAnswer (if t = 0xFF ∨ t = 0 ∨ t = 0x7F then zeros 1 ++ Config.mctpVersions t else leBytes 1 0x80))

/-- GET_MESSAGE_TYPE_SUPPORT (R364): control and vendor-defined. -/
def execGetMessageTypeSupport (s : State) : Host.Outcome State Fault Refusal :=
  .next (s.ctlAnswer (zeros 1 ++ leBytes 1 2 ++ leBytes 1 0 ++ leBytes 1 0x7F))

/-- GET_VENDOR_DEFINED_MESSAGE_SUPPORT (R364, R365): the one vendor, its enterprise number most significant byte first, and a command-set
version, which is a free value. -/
def execGetVendorDefinedMessageSupport (selector : Byte) (s : State) : Host.Outcome State Fault Refusal :=
  .next (if selector.toNat ≠ 0 then s.ctlAnswer (leBytes 1 2)
    else s.ctlAnswer (zeros 1 ++ leBytes 1 0xFF ++ leBytes 1 1 ++ (leBytes 4 s.fuses.iana).reverse ++ Config.mctpVersions 256))

/-- What a request message breaks before check 1 of R357: its IC bit, then its length (R365). -/
def messageCode (msg : List Byte) : Option Nat :=
  if 128 ≤ fieldAt msg 0 1 then some 0x0003
  else if msg.length < 37 ∨ msg.length ≠ 37 + pktLen (msg.drop 5) then some 0x0002
  else none

/-- The fields of a broken message that its reply and its log entry copy: a field it is too short to hold reads zero. -/
def brokenCopy (msg : List Byte) : List Byte :=
  let p := msg.drop 5
  let held (off size : Nat) : List Byte := leBytes size (if off + size ≤ p.length then fieldAt p off size else 0)
  held 0 2 ++ (if 3 ≤ p.length then held 2 1 else leBytes 1 0xFF) ++ zeros 5 ++ held 8 4

-- packets (R364; the transport header of DMTF DSP0236, log entry 26)

/-- Bytes of a message that one packet carries: the baseline transmission unit. -/
def mctpUnit : Nat := 64

/-- The four bytes before a packet's part of a message: header version, destination and source endpoints, and the flags: first, last,
sequence modulo 4, Tag Owner and message tag. -/
def mctpHeader (dst src seq tag : Nat) (first last owner : Bool) : List Byte :=
  leBytes 1 1 ++ leBytes 1 dst ++ leBytes 1 src
    ++ leBytes 1 (bnat first * 128 + bnat last * 64 + seq % 4 * 16 + bnat owner * 8 + tag % 8)

/-- The packets of a message, from its `seq`-th on: each carries 64 bytes, the last what is left. -/
def mctpSplit (dst src tag : Nat) : Nat → Nat → List Byte → List (List Byte)
  | 0, _, _ => []
  | fuel + 1, seq, bs =>
    let last := decide (bs.length ≤ mctpUnit)
    (mctpHeader dst src seq tag (decide (seq = 0)) last false ++ bs.take mctpUnit)
      :: (if last then [] else mctpSplit dst src tag fuel (seq + 1) (bs.drop mctpUnit))

/-- The packets of a message that the device sends, Tag Owner clear (R365). -/
def BcMsg.packets (m : BcMsg) (src : Nat) : List (List Byte) := mctpSplit m.dst src m.tag (m.bytes.length + 1) 0 m.bytes

/-- Destination, source, flags and part of a packet; none for one without a header of version 1, or without a part of 1 to 64 bytes. -/
def mctpParse (p : List Byte) : Option (Nat × Nat × Nat × List Byte) :=
  if p.length < 5 ∨ mctpUnit + 4 < p.length ∨ fieldAt p 0 1 % 16 ≠ 1 then none
  else some (fieldAt p 1 1, fieldAt p 2 1, fieldAt p 3 1, p.drop 4)

/-- The rest of a message, after the parts already held: each packet is the next in sequence, of the same endpoints and tag, and only the
last is shorter than 64 bytes. -/
def mctpJoin (dst src flags : Nat) : Nat → List Byte → List (List Byte) → Option (List Byte)
  | _, _, [] => none
  | seq, held, p :: t =>
    match mctpParse p with
    | none => none
    | some (d, r, f, bs) =>
      if d ≠ dst ∨ r ≠ src ∨ f % 16 ≠ flags % 16 ∨ f / 16 % 4 ≠ seq % 4 ∨ f.testBit 7 ≠ held.isEmpty then none
      else if f.testBit 6 then (if t.isEmpty then some (held ++ bs) else none)
      else if bs.length ≠ mctpUnit then none
      else mctpJoin dst src flags (seq + 1) (held ++ bs) t

/-- A request message assembled from its packets: the endpoint that sent it, its tag, its bytes. It is for the device's endpoint or for the
null one, and the sender owns the tag. -/
def mctpAssemble (eid : Nat) (ps : List (List Byte)) : Option (Nat × Nat × List Byte) :=
  match (ps.head?).bind mctpParse with
  | none => none
  | some (d, r, f, _) =>
    if (d ≠ eid ∧ d ≠ 0) ∨ !f.testBit 3 then none
    else (mctpJoin d r f (f / 16 % 4) [] ps).map (fun bs => (r, f % 8, bs))

/-- A vendor-defined request message has arrived (R365, R366): another enterprise's is discarded; the device's own is answered BUSY,
answered MALFORMED, or accepted as a command, which its row then runs. -/
def State.bcMessage (s : State) (msg : List Byte) : State :=
  let vendor := fieldAt (((msg.drop 1).take 4).reverse) 0 4
  if msg.length < 5 ∨ fieldAt msg 0 1 % 128 ≠ 0x7F ∨ vendor ≠ s.fuses.iana then s
  else if s.admBusy 4 then s.admDrop 4
  else
    match messageCode msg with
    | some c => (s.admAccept 4 (brokenCopy msg)).refuse 4 c
    | none => (s.admAccept 4 (msg.drop 5)).admRunRowless 4

/-- BC_REQUEST_MESSAGE (R364-R366): the packets of one message arrive; those that make no message are dropped. -/
def execBcRequestMessage (packets : List (List Byte)) (s : State) : Host.Outcome State Fault Refusal :=
  .next (match (if s.bcReached then mctpAssemble s.bc.eid packets else none) with
    | none => s
    | some (src, tag, msg) => ({ s with bc := { s.bc with asked := (src, tag) } }).bcMessage msg)

end Sys2Proof.Machine
end

