-- ==== Sys2Proof/Machine/Power.lean ====
section
/-! DEFINITION. Power, clocks and temperature (R522-R545): operating points and rails, sensors and thermal limits, the power loop, caps
and energy. -/

namespace Sys2Proof.Machine

-- operating points (R525-R528, R532, R533)

/-- VNOM of an operating point in millivolts (R525). -/
def opVolts (op : Nat) : Nat :=
  match op with
  | 0 => 850 | 1 => 800 | 2 => 760 | 3 => 720 | 4 => 690 | 5 => 640 | 6 => 580 | _ => 550

/-- CLK_CORE of an operating point in kHz. -/
def opKhz (op : Nat) : Nat := 10200000 / opDivider op

/-- VTRIM of a die, in steps of 5 mV. -/
def PowerSt.trim (w : PowerSt) (d : Nat) : Int := tabGet 0 w.vtrim d

/-- A die's highest permitted OP (R532): the fastest whose VNOM + VTRIM does not exceed 0.85 V. -/
def PowerSt.dieOp (w : PowerSt) (d : Nat) : Nat :=
  ((natRange 0 8).find? (fun op => decide ((opVolts op : Int) + 5 * w.trim d ≤ 850))).getD 7

/-- A cluster's highest permitted OP (R526, R532, R533), in RNM-2410 frequency mode by the lowest fused maximum frequency among its 32
cores; a core without a fused figure may run at OP0 (log entry 25). -/
def State.maxOp (s : State) (cl : Nat) : Nat :=
  if s.power.freqMode = 2 then
    let fmax := (natRange 0 32).foldl (fun f i => min f (tabGet 1700000 s.fuses.fmaxKhz (32 * cl + i))) 1700000
    ((natRange 0 8).find? (fun op => decide (opKhz op ≤ fmax))).getD 7
  else s.power.dieOp (clDie cl)

/-- The OP a cluster is to run at: the slowest of its three limits (R526). -/
def State.wantedOp (s : State) (cl : Nat) : Nat := max (max (min 7 (s.cl cl).thermal) (min 7 s.power.level)) (s.maxOp cl)

/-- The issue gap of a cluster, in sixteenths (R534, R541). -/
def State.wantedGap (s : State) (cl : Nat) : Nat := max (s.power.level - 7) (if (s.cl cl).thermal = 8 then 8 else 0)

/-- A cluster moves towards its OP (R527): to a slower one at once, to a faster one when its rail has settled. -/
def State.steerCluster (s : State) (cl : Nat) : State :=
  let op := s.wantedOp cl
  let gap := s.wantedGap cl
  let c := s.cl cl
  let pend := if op < c.op then some op else none
  if c.op = max c.op op ∧ c.gap = gap ∧ c.pendingOp = pend then s
  else s.setCl cl { c with op := max c.op op, gap := gap, pendingOp := pend }

/-- The rail voltage of a die (R528): the highest VNOM + VTRIM that a cluster of it in service needs now or waits for, within
0.55-0.85 V. -/
def State.railVolts (s : State) (d : Nat) : Nat :=
  let need (cl : Nat) : Nat :=
    let c := s.cl cl
    let op := match c.pendingOp with | some o => min o c.op | none => c.op
    ((opVolts op : Int) + 5 * s.power.trim d).toNat
  let top := ((natRange (48 * d) 48).filter (fun i => (s.clEntry i).inService)).foldl (fun a i => max a (need i)) 0
  max 550 (min 850 top)

/-- Every cluster moves towards its OP, and the die rails follow (R526-R528). -/
def State.steer (s : State) : State :=
  let s := (natRange 0 192).foldl (fun s i => s.steerCluster i) s
  { s with power := { s.power with rails := (natRange 0 4).foldl (fun r d => tabSet r d (s.railVolts d)) s.power.rails } }

/-- RAIL_SETTLED (R527, R528): the clusters of the die that wait for a faster OP take it. -/
def execRailSettled (d : Fin 4) (s : State) : Host.Outcome State Fault Refusal :=
  .next (s.whileUp (fun s => (natRange (48 * d.val) 48).foldl (fun s i =>
    match (s.cl i).pendingOp with
    | some op => s.updCl i (fun c => { c with op := op, pendingOp := none })
    | none => s) s))

/-- VTRIM_UPDATE (R531-R533): each die's VTRIM moves one step towards what its monitors ask for, within -60 to +30 mV; it stays 0 in
RNM-2410 frequency mode. A die whose limit changes is logged (R532). -/
def execVtrimUpdate (wanted : List Int) (s : State) : Host.Outcome State Fault Refusal :=
  if s.power.freqMode = 2 ∨ !s.hubRuns then .next s
  else
    let move (d : Nat) : Int :=
      let v := s.power.trim d
      let w := wanted.getD d v
      let n := if v < w then v + 1 else if w < v then v - 1 else v
      max (-12) (min 6 n)
    let old := s.power
    let s := { s with power := { s.power with vtrim := (natRange 0 4).map (fun d => (d, move d)) } }
    let moved := (natRange 0 4).filter (fun d => decide (old.dieOp d ≠ s.power.dieOp d))
    let s := moved.foldl (fun s d => s.logCondition 4 1 0 (leBytes 1 d ++ leBytes 1 (s.power.dieOp d))) s
    .next s.steer

-- temperature (R499, R534-R536)

/-- Temperature points (R371). -/
def tempPoints : Nat := 1076

/-- The cluster of a temperature point, if it is one of a cluster's four. -/
def pointCluster (n : Nat) : Option Nat := if n < 768 then some (n / 4) else none

/-- The die that a temperature point is on or supplies (R371, R529); 4 for the hub. -/
def pointDie (n : Nat) : Nat :=
  if n < 768 then clDie (n / 4)
  else if n < 928 then (n - 768) / 40
  else if n < 960 then 4
  else if n < 980 then (n - 960) / 5
  else if n < 980 + 64 then (n - 980) / 16
  else if n < 980 + 80 then (n - 980 - 64) / 4
  else 4

/-- A point of a DISABLED or RETIRED cluster is ABSENT (R371). -/
def State.pointAbsent (s : State) (n : Nat) : Bool :=
  match pointCluster n with
  | some cl => !(s.clEntry cl).inService
  | none => false

/-- The reading of a point; none where VALID is 0. -/
def State.reading (s : State) (n : Nat) : Option Int := if s.pointAbsent n then none else tabGet none s.sensors.temps n

/-- The highest valid reading among points. -/
def State.hottest (s : State) (ps : List Nat) : Option Int :=
  ps.foldl (fun a n => match s.reading n, a with
    | some v, some w => some (max v w) | some v, none => some v | none, a => a) none

/-- Points of a die or of the hub. -/
def dieTemps (d : Nat) : List Nat := (natRange 0 tempPoints).filter (fun n => decide (pointDie n = d))

/-- The temperature that a point counts with (R536): its reading, or what stands in for one that gives none. -/
def State.tempOf (s : State) (n : Nat) : Option Int :=
  match s.reading n with
  | some v => some v
  | none =>
    if s.pointAbsent n then none
    else
      let own := match pointCluster n with | some cl => s.hottest (natRange (4 * cl) 4) | none => none
      match own with
      | some v => some v
      | none => (s.hottest (dieTemps (pointDie n))).map (fun v => v + 640)

/-- Points whose temperature counts against a cluster besides its own: its die's points and phases, and the hub's (R534). -/
def clusterPoints (cl : Nat) : List Nat :=
  let d := clDie cl
  natRange (4 * cl) 4 ++ natRange (768 + 40 * d) 40 ++ natRange (980 + 16 * d) 16 ++ natRange (980 + 64 + 4 * d) 4
    ++ natRange 928 32 ++ natRange (980 + 80) 16

/-- A point has given readings, or been missed, since the package start: a point not yet sampled takes no part. -/
def State.sampled (s : State) (n : Nat) : Bool := (tabFind s.sensors.temps n).isSome

/-- Some point of a list is at or above a temperature in degrees. -/
def State.anyHot (s : State) (ps : List Nat) (deg : Int) : Bool :=
  ps.any (fun n => s.sampled n && (match s.tempOf n with | some v => decide (deg * 64 ≤ v) | none => false))

/-- Every point of a list reads below a temperature. -/
def State.allCool (s : State) (ps : List Nat) (deg : Int) : Bool := !s.anyHot ps deg

/-- The channels of a stack (R20). -/
def stackChannels (n : Nat) : List Nat := natRange (16 * n) 16

/-- Points at or above 110 degrees act at once (R534): clusters go to OP7 with gaps, stacks to a quarter; a stack at or above 100 to half. -/
def State.thermalRound (s : State) : State :=
  let s := (natRange 0 192).foldl (fun s i =>
    if s.anyHot (clusterPoints i) 110 then s.updCl i (fun c => { c with thermal := 8 }) else s) s
  (natRange 0 20).foldl (fun s n =>
    let lim := if s.anyHot [960 + n] 110 then 2 else if s.anyHot [960 + n] 100 then 1 else 0
    if lim = 0 then s
    else (stackChannels n).foldl (fun s ch => s.updChan ch (fun c => { c with rateLimit := max c.rateLimit lim })) s) s

/-- The reading that a round's list gives a point. DESIGN CHOICE (log entry 75): the last one where the list gives several, and a point that it
leaves out gave none. -/
def roundReading (rs : List (Nat × Option Int)) (n : Nat) : Option Int :=
  match rs.reverse.find? (fun r => decide (r.1 = n)) with
  | some r => r.2
  | none => none

/-- A round is taken (R499): every point has the reading it gave, or one more round without; a point's first such round is logged, and its
tenth (R536). -/
def State.takeRound (s : State) (rs : List (Nat × Option Int)) : State :=
  let x := s.sensors
  let temps := (natRange 0 tempPoints).map (fun n => (n, roundReading rs n))
  let runs := temps.map (fun e => (e.1, if e.2.isNone ∧ !s.pointAbsent e.1 then tabGet 0 x.invalidRuns e.1 + 1 else 0))
  let first := (runs.filter (fun e => decide (e.2 = 1))).map (fun e => e.1)
  let stale := (runs.filter (fun e => decide (e.2 = 10) && !hasNat x.loggedInvalid e.1)).map (fun e => e.1)
  let s := { s with sensors := { x with rounds := x.rounds + 1, temps := temps, invalidRuns := runs,
                                        loggedInvalid := x.loggedInvalid ++ stale } }
  let s := first.foldl (fun s n => s.logCondition 4 1 0 (leBytes 2 n)) s
  stale.foldl (fun s n => s.logCondition 4 2 0x8504 (leBytes 2 n)) s

/-- What a round's readings bring (R534, R535): a point newly at or above 110 degrees is logged and raises its interrupt, and the limits of
110 and of the stacks act at once. -/
def State.roundActs (s : State) : State :=
  let hot := (s.sensors.temps.map (fun e => e.1)).filter (fun n => s.anyHot [n] 110)
  let new := hot.filter (fun n => !hasNat s.sensors.hot110 n)
  let s := { s with sensors := { s.sensors with hot110 := hot } }
  (new.foldl (fun s n => (s.logCondition 4 2 0x8505 (leBytes 2 n)).irqRaise 7) s).thermalRound.steer

/-- SENSOR_ROUND (R499, R534-R536): readings are taken, missing ones counted and logged, and the thresholds evaluated. -/
def execSensorRound (readings : List (Nat × Option Int)) (s : State) : Host.Outcome State Fault Refusal :=
  .next (s.whileUp (fun s => (s.takeRound readings).roundActs.irqRaise 6))

/-- THERMAL_STEP_DOWN (R534): every cluster with a governing point at or above 100 degrees steps down one OP. -/
def execThermalStepDown (s : State) : Host.Outcome State Fault Refusal :=
  .next (s.whileUp (fun s => ((natRange 0 192).foldl (fun s i =>
    if s.anyHot (clusterPoints i) 100 && decide ((s.cl i).thermal < 7) then s.updCl i (fun c => { c with thermal := c.thermal + 1 }) else s) s).steer))

/-- THERMAL_STEP_BACK (R535): a limit whose governing points all read below 97 degrees steps back one level. -/
def execThermalStepBack (s : State) : Host.Outcome State Fault Refusal :=
  .next (s.whileUp (fun s =>
    let s := (natRange 0 192).foldl (fun s i =>
      if decide (0 < (s.cl i).thermal) && s.allCool (clusterPoints i) 97 then s.updCl i (fun c => { c with thermal := c.thermal - 1 }) else s) s
    ((natRange 0 20).foldl (fun s n =>
      if s.allCool [960 + n] 97 then
        (stackChannels n).foldl (fun s ch => if (s.chan ch).rateLimit = 0 then s
          else s.updChan ch (fun c => { c with rateLimit := c.rateLimit - 1 })) s
      else s) s).steer))

/-- THROTTLING (R370, R535): some point is at or above 100 degrees, or a thermal limit is in force. -/
def State.throttling (s : State) : Bool :=
  s.anyHot (natRange 0 tempPoints) 100 || s.clusters.any (fun e => decide (0 < e.2.thermal)) || s.channels.any (fun e => decide (0 < e.2.rateLimit))

/-- SENSOR_FAULT (R536, R544): a point has been invalid for 10 rounds, or the power measurement is implausible. -/
def State.sensorFault (s : State) : Bool := s.power.implausible || s.sensors.invalidRuns.any (fun e => decide (10 ≤ e.2))

-- the power loop (R538-R544)

/-- The effective cap in watts (R540). -/
def PowerSt.effective (w : PowerSt) : Nat :=
  let cap (v : Nat) : Nat := if v = 0 then 4400 else min v 4400
  min (cap w.bcCap) (cap w.pmCap)

/-- FLOOR_W (R539). -/
def floorW : Nat := 920

/-- Mean input power over the last 1 ms, in 0.1 W. -/
def PowerSt.mean (w : PowerSt) : Nat := if w.window.isEmpty then 0 else w.window.foldl (· + ·) 0 / w.window.length

/-- The estimate that stands in for an implausible measurement (R544). -/
def PowerSt.substitute (w : PowerSt) : Nat := w.estimate * 115 / 100

/-- The power that compliance is judged on (R543, R544). -/
def PowerSt.judged (w : PowerSt) : Nat := if w.implausible then w.substitute else w.mean

/-- A sample of the rails is taken, and the energy of its interval counted. -/
def State.railSample (s : State) (rails : List RailReading) : State :=
  let w := s.power
  let p := match rails[11]? with | some r => r.power | none => 0
  let win := w.window ++ [p]
  { s with sensors := { s.sensors with rails := rails },
           power := { w with window := win.drop (win.length - 100),
                             energyUj := w.energyUj + (if w.implausible then w.substitute else p),
                             substUs := if w.implausible then w.substUs + 10 else w.substUs } }

/-- RAIL_SAMPLE (R530, R545): the rails' means over the last 10 us, and the energy of that interval. -/
def execRailSample (rails : List RailReading) (s : State) : Host.Outcome State Fault Refusal :=
  .next (s.whileUp (fun s => s.railSample rails))

/-- The trust in the estimate and the measurement after one more interval (R544). -/
def PowerSt.trust (w : PowerSt) (m : Nat) : PowerSt :=
  if m < 5000 then { w with implausible := true, sane := 0 }
  else
    let sane := w.sane + 1
    let w := { w with sane := sane, implausible := w.implausible && decide (sane < 10000) }
    if w.implausible then w
    else
      let gap := (w.estimate - m) + (m - w.estimate)
      let differ := if m < 4 * gap then w.differ + 1 else 0
      let agree := if 10 * gap ≤ m then w.agree + 1 else 0
      if w.untrusted then { w with agree := agree, differ := 0, untrusted := decide (agree < 100000) }
      else { w with differ := differ, agree := 0, untrusted := decide (1000 ≤ differ) }

/-- The controlled power and the guard band in percent (R541, R544). -/
def PowerSt.controlled (w : PowerSt) : Nat × Nat :=
  match w.window.getLast? with
  | none => (w.estimate, 3)
  | some m => if w.implausible then (w.substitute, 10) else if w.untrusted then (m, 10) else (max w.estimate m, 3)

/-- The level after one step of the loop (R541). -/
def PowerSt.stepLevel (w : PowerSt) : PowerSt :=
  let c := w.controlled
  let target := w.effective * 10 * (100 - c.2)
  if target < c.1 * 100 then { w with level := min 22 (w.level + 1), under := 0 }
  else if c.1 * 10000 < target * 95 then
    (if w.under + 1 ≥ 100 then { w with level := w.level - 1, under := 0 } else { w with under := w.under + 1 })
  else { w with under := 0 }

/-- A cap that is not met is told to every partition and to the pool manager (R543, R319). -/
def State.tellCapUnmet (s : State) : State :=
  let data := leBytes 4 (s.power.judged / 10) ++ leBytes 4 s.power.effective ++ zeros 6
  let ps := (s.parts.filter (fun e => e.2.present)).map (fun e => e.1)
  ((ps.foldl (fun s p => s.notice p 0 0x8501 0xFFFF data) s).pmPost 0x8501 data).irqRaise 8

/-- One interval of the power loop (R541-R544). CAP_UNMET is set 1 ms after level 22 has been reached (R543). -/
def State.powerStep (s : State) (estimate : Nat) : State :=
  let old := s.power
  let w := { old with estimate := estimate }
  let w := match w.window.getLast? with | some m => w.trust m | none => w
  let w := w.stepLevel
  let short := decide (old.level = 22) && decide (w.level = 22) && decide (w.effective * 10 < w.judged)
  let cnt := if short then w.capOver + 1 else 0
  let w := { w with capOver := cnt, capUnmet := decide (w.effective * 10 < w.judged) && (w.capUnmet || decide (100 ≤ cnt)) }
  let s := { s with power := w }
  let s := if w.implausible && !old.implausible then (s.logCondition 4 2 0x8503 []).irqRaise 8 else s
  let s := if w.untrusted && !old.untrusted then (s.logCondition 4 2 0x8502 []).irqRaise 8 else s
  let s := if w.capUnmet && !old.capUnmet then s.tellCapUnmet else s
  if w.level = old.level then s else s.steer

/-- POWER_LOOP_STEP (R541-R544). -/
def execPowerLoopStep (estimate : Nat) (s : State) : Host.Outcome State Fault Refusal := .next (s.whileUp (fun s => s.powerStep estimate))

/-- Why POWER_CAP_SET is turned down (R538). -/
def powerCapCode (ch : Nat) (b : List Byte) : Option Nat :=
  let cap := par b 0 4
  let mode := par b 4 1
  if !parZero b 5 3 then some 0x0003
  else if mode > 2 then some 0x0005
  else if mode ≠ 0 ∧ ch = 4 then some 0x0010
  else if cap > 4400 then some 0x0502
  else if cap ≠ 0 ∧ cap < floorW then some 0x0501
  else none

/-- POWER_CAP_SET (R538, R539, R543): the sender's cap, and the frequency mode. -/
def execPowerCapSet (ch : Fin 5) (pkt : List Byte) (s : State) : Host.Outcome State Fault Refusal :=
  .next (s.admCommand ch pkt (isOp 0x0006) (fun s b =>
    match powerCapCode ch b with
    | some c => s.refuse ch c
    | none =>
      let cap := par b 0 4
      let mode := par b 4 1
      let w := s.power
      let n := if ch.val = 4 then { w with bcCap := cap } else { w with pmCap := cap }
      let n := if w.effective < n.effective then { n with capUnmet := false, capOver := 0 } else n
      let n := if mode = 0 then n else { n with freqMode := mode, vtrim := if mode = 2 then [] else n.vtrim }
      let s := { s with power := n }
      (if mode = 0 then s else s.steer).done ch []))

/-- THERMAL_LIMITED (R540): some cluster runs slower than LEVEL allows. -/
def State.thermalLimited (s : State) : Bool :=
  s.clusters.any (fun e => (s.clEntry e.1).inService
    && (decide (min 7 s.power.level < e.2.op) || decide (s.power.level - 7 < e.2.gap)))

/-- The slowest of the highest permitted OPs of a die's clusters in service (R540). -/
def State.dieMaxOp (s : State) (d : Nat) : Nat :=
  ((natRange (48 * d) 48).filter (fun i => (s.clEntry i).inService)).foldl (fun a i => max a (s.maxOp i)) 0

/-- A signed byte. -/
def signedByte (v : Int) : List Byte := [BitVec.ofInt 8 v]

/-- POWER_CAP_GET (R540). -/
def execPowerCapGet (ch : Fin 5) (pkt : List Byte) (s : State) : Host.Outcome State Fault Refusal :=
  .next (s.admCommand ch pkt (isOp 0x0007) (fun s b =>
    let w := s.power
    let flags := bnat w.capUnmet + 2 * bnat w.untrusted + 4 * bnat s.sensorFault + 8 * bnat s.thermalLimited
    if !parZero b 0 8 then s.refuse ch 0x0003
    else s.done ch (leBytes 4 w.bcCap ++ leBytes 4 w.pmCap ++ leBytes 4 w.effective ++ leBytes 4 floorW ++ leBytes 4 (w.mean / 10)
      ++ leBytes 4 (w.estimate / 10) ++ leBytes 1 w.level ++ leBytes 1 w.freqMode ++ leBytes 2 flags ++ zeros 4
      ++ (natRange 0 4).flatMap (fun d => leBytes 1 (s.dieMaxOp d)) ++ (natRange 0 4).flatMap (fun d => signedByte (w.trim d)) ++ zeros 8)))

/-- ENERGY_READ (R545). -/
def execEnergyRead (ch : Fin 5) (pkt : List Byte) (s : State) : Host.Outcome State Fault Refusal :=
  .next (s.admCommand ch pkt (isOp 0x0008) (fun s b =>
    if !parZero b 0 8 then s.refuse ch 0x0003
    else s.done ch (leBytes 8 (s.power.energyUj / 1000) ++ leBytes 8 s.hubCycles ++ leBytes 4 (s.power.substUs / 1000) ++ zeros 4)))

end Sys2Proof.Machine
end

