-- ==== Sys2Proof/Machine/Reset.lean ====
section
/-! DEFINITION. A package reset (R353, R472) and the first steps of a package start (R556-R561): from the sampling of the straps to the
first-stage boot code, which the protection set-up waits for. -/

namespace Sys2Proof.Machine

/-- A slot left STAGING reads INVALID at the next start (R564). -/
def FwSlot.afterReset (x : FwSlot) : FwSlot := if x.state = 1 then { x with state := 5 } else x

/-- The identity leaves that are used after a package reset: a blow that it cuts off counts as done (R514, R564). -/
def FwSt.leavesKept (f : FwSt) : Nat :=
  match f.leafTry with
  | some r => setBit f.leafFuses r.1 true
  | none => f.leafFuses

/-- What a package reset leaves (R353, R564): the fuses, the external flash, what lies outside the device, and the pins. Every other
register has its reset value; the hub's count starts again. -/
def State.packageReset (s : State) : State :=
  let port (h : PortSt) : PortSt := { mem := h.mem, poison := h.poison }
  { pending := s.pending, freeCtr := s.freeCtr, boot := s.boot, faultHold := s.faultHold, railFailed := s.railFailed, pins := s.pins,
    fuses := s.fuses, msix := s.msix, msi := { sent := s.msi.sent },
    ports := s.ports.map (fun (e : Nat × PortSt) => (e.1, port e.2)),
    recov := { failedStarts := s.recov.failedStarts },
    fw := { slotA := s.fw.slotA.afterReset, slotB := s.fw.slotB.afterReset, bootA := s.fw.bootA, bootB := s.fw.bootB, fusedSvn := s.fw.fusedSvn,
            leafFuses := s.fw.leavesKept },
    log := { flash := s.log.flash, reserved := s.log.reserved, boot := s.log.boot },
    power := { rails := s.power.rails, pllLocked := s.power.pllLocked },
    bc := { out := s.bc.out } }

-- the external flash (R559, R501)

/-- The boot area's header is right (R559). -/
def bootHeaderOk (area : List Byte) : Bool :=
  let len := fieldAt area 8 4
  let entry := fieldAt area 0x0C 4
  fieldAt area 0 4 == 0x4C424653 && fieldAt area 4 4 == 1 && decide (4 ≤ len) && decide (len ≤ 1048512) && decide (entry < len)
    && entry % 4 == 0 && zeroAt area 0x10 48

/-- The bytes that the boot ROM copies and measures (R559). -/
def bootCopied (area : List Byte) : List Byte := padTo (0x40 + fieldAt area 8 4) area

/-- The log goes on at a package start (R501): the ring is reloaded from the flash, SEQ from the value last reserved there, and the
RESTART entry records the gap. The next value is reserved at once, so that no later start takes this SEQ again (log entry 83). -/
def State.logRestart (s : State) : State :=
  let g := s.log
  let s := { s with log := { g with ring := g.flash.drop (g.flash.length - 32768), next := g.reserved, reserved := g.reserved + 32768,
                                    boot := g.boot + 1 } }
  s.logEntry 4 0 0 0xFF 2 (leBytes 8 (g.reserved - 32768) ++ leBytes 8 g.reserved)

-- rails (R529, R557)

/-- Nominal millivolts of the rails (R525, R529). -/
def railNominal : Nat → Nat
  | 0 | 1 | 2 | 3 => 850
  | 4 | 5 | 6 | 7 => 1100
  | 8 => 750
  | 9 => 800
  | 10 => 6000
  | _ => 36000

/-- The regulators bring up their rails; in RELEASE mode the compute-die and HBM rails stay off. -/
def PowerSt.railsUp (w : PowerSt) (release : Bool) : PowerSt :=
  { w with rails := (natRange 0 12).map (fun i => (i, if release ∧ i < 8 then 0 else railNominal i)) }

-- a start (R557, R559, R483)

/-- A package start from step 3 to the first-stage boot code: the straps are sampled, the boot area is read and measured. A start that
fails is retried after a further package reset, three times at most (R483). -/
def State.startTry (b : StartInfo) : Nat → State → State
  | 0, s => s
  | n + 1, s =>
    let s := { s with boot := b }
    if b.bootSrc ≠ 0 then { s with phase := .release, power := s.power.railsUp true }
    else
      let s := { s with power := s.power.railsUp false }
      if bootHeaderOk b.bootArea then
        let s := s.logRestart
        { s with phase := .bootCode, fw := { s.fw with meas1 := sha256 (bootCopied b.bootArea) },
                 mgtSram := memWrite s.mgtSram 0 (bootCopied b.bootArea),
                 mgtCores := [(0, { running := true, entry := 0x40 + fieldAt b.bootArea 0x0C 4 })] }
      else
        let s := { s with recov := { s.recov with failedStarts := s.recov.failedStarts + 1 } }
        if s.recov.failedStarts ≥ 3 then { s with phase := .dead } else State.startTry b n s.packageReset

/-- A package start from step 3. -/
def State.start (s : State) (b : StartInfo) : State := State.startTry b 3 s

/-- An L3 (R471, R564): a package reset and a start from step 3, FAULT_N low until admin-ready (R484). The straps are sampled again (R557): the
board may have changed them since the part was ready, so what they read is a free value; the boot area is as it was (log entry 23). -/
def State.l3 (s : State) : State :=
  match s.fresh with
  | (f, s) => ({ s with faultHold := true }).packageReset.start { s.boot with bootSrc := f % 4 }

end Sys2Proof.Machine
end

