-- ==== Sys2Proof/Machine/Ports.lean ====
section
/-! DEFINITION. Host ports (R307-R325, R478): their modules and failures, partition HBM as host memory, back-invalidation, doorbells
and the port event queue. -/

namespace Sys2Proof.Machine

-- modules and failures (R309, R311, R478)

/-- A port has told its host that a module left service, or that it failed and is back (R319). -/
def State.portNotice (s : State) (port : Nat) : State :=
  s.peqPost port 0x8042 (leBytes 1 (s.port port).modules ++ zeros 13)

/-- A VA of a context lies in a port's host memory. -/
def State.vaOnHost (s : State) (port p c addr : Nat) : Bool :=
  let x := s.ctx p c
  addr / 2 ^ 60 == 8 && decide ((s.part p).desc.ownerPort = port) &&
  (match s.walk p x.xs1 x.xg (addr % 2 ^ 57) false with
   | (s, .ok (hpa, _)) => (match (s.updPort port (fun h => { h with failed := false })).routeHpa p hpa with
      | .ok (.host _ _) => true | _ => false)
   | (_, .error _) => false)

/-- A core whose read of a port's host memory is outstanding, or a DMA entry with such a transaction, faults (R478). -/
def State.coreLosesHost (s : State) (port : Nat) (k : CoreId) : State :=
  match (s.cl k.cl).ctx with
  | none => s
  | some h =>
    let lost (a : Nat) : Bool := s.vaOnHost port h.part h.ctx a
    match (s.core k).wait.find? (fun r => r.sent && !r.faulted && lost r.addr) with
    | some r => s.coreFault k 0x8042 r.pc
    | none =>
      ((s.core k).entriesWhere (fun e => (e.openAddrs (s.core k)).any lost)).foldl (fun s e => s.dmaFault k e.1 e.2 0x8042) s

/-- Every outstanding CXL.cache request of a port ends with HOST_PORT_LOST (R478). -/
def State.endHostRequests (s : State) (port : Nat) : State :=
  let s := s.clusters.foldl (fun s e => e.2.cores.foldl (fun s f =>
    match coreIdOf e.1 f.1 with | some k => s.coreLosesHost port k | none => s) s) s
  let ws := s.writes.filter (fun w => !w.faulted && (match (s.cl w.k.cl).ctx with
    | some h => s.vaOnHost port w.part h.ctx w.addr | none => false))
  ws.foldl (fun s w => s.writeFails w 0x8042) s

/-- A port fails (R478): its requests end, and new ones end in the same way until it returns. -/
def State.portFails (s : State) (port : Nat) : State :=
  if (s.port port).failed then s
  else (s.endHostRequests port).updPort port (fun h => { h with failed := true, modules := 0 })

/-- A module's replay exceeds its budget (R309, R478): it leaves service; when none is left, the port fails. -/
def State.hostReplay (s : State) (port u : Nat) : State :=
  let m := (s.port port).modules
  if !m.testBit u then s
  else
    let left := setBit m u false
    if left = 0 then s.portFails port
    else (s.updPort port (fun h => { h with modules := left })).portNotice port

/-- HOST_REPLAY_TIMEOUT (R309, R478). -/
def execHostReplayTimeout (port : Fin 4) (u : Fin 2) (s : State) : Host.Outcome State Fault Refusal := .next (s.hostReplay port u)

/-- IDE_INTEGRITY_FAILURE (R311, R478): the flit is not delivered, and the port fails and retrains. -/
def execIdeIntegrityFailure (port : Fin 4) (s : State) : Host.Outcome State Fault Refusal :=
  .next (if (s.port port).modules = 0 then s else s.portFails port)

/-- HOST_PORT_RETRAINED (R309, R478): modules that trained serve the port again, the others are out until package reset; the host is
told once it can be reached. -/
def execHostPortRetrained (port : Fin 4) (modules : Fin 4) (s : State) : Host.Outcome State Fault Refusal :=
  let h := s.port port
  .next (if !h.failed ∨ !s.sites.testBit port then s
    else
      let out := h.outModules ||| (3 ^^^ modules.val)
      let now := modules.val &&& (3 ^^^ h.outModules)
      let s := s.updPort port (fun h => { h with outModules := out, modules := now, failed := decide (now = 0) })
      if now = 0 then s else s.portNotice port)

-- partition HBM as host memory (R320-R323)

/-- Where a CXL.mem request of a port falls: outside the window, refused against a partition (or a stray), or on a channel. -/
inductive HdmAns where
  | outside
  | refused (part : Option Nat)
  | serve (part ch off : Nat)
  deriving DecidableEq, Repr

/-- Decode a CXL.mem address (R320, R321, R324, R466). -/
def State.hdmLookup (s : State) (port addr : Nat) : HdmAns :=
  match (s.port port).hdmBase with
  | none => .outside
  | some b =>
    if addr < b ∨ b + 2 ^ 50 ≤ addr ∨ s.phase ≠ .ready then .outside
    else
      let o := addr - b
      let p := o / 2 ^ 44
      if !s.portOwns port p then .refused none
      else
        match (s.part p).pat.resolve (o % 2 ^ 44) with
        | none => .refused (some p)
        | some (ch, off) =>
          let e := s.chEntry ch
          if e.withdrawing ∨ e.state ≠ .bound ∨ (s.plaRefuses (s.part p).pat (o % 2 ^ 44) ch).isSome then .refused (some p) else .serve p ch off

/-- Entries of a host-line directory (R322). -/
def hostLineMax : Nat := 32768

/-- Label 0 of the partition that owns a channel counts a host's CXL.mem request (R446). -/
def State.cxlServed (s : State) (port ch : Nat) (w : Bool) : State :=
  let p := (s.chEntry ch).owner
  s.served (.port port) p 0 (s.crossings p 0 (.port port) (.chan ch 0) w) 64

/-- A port grants or withholds CXL.mem credits by a partition's label 0 (R446, R454): the state after the chance of a request, and whether it
enters. -/
def State.cxlGate (s : State) (port p ch : Nat) (w : Bool) : State × Bool :=
  s.tensionGate (.port port) p 0 (s.crossings p 0 (.port port) (.chan ch 0) w)

/-- A host's read of one line is served: the directory names the line, which the host may hold modified from now on (R322). -/
def State.hostRead (s : State) (port ch line : Nat) : State :=
  let s := (s.eccRead (.chan ch (64 * line)) 64).cxlServed port ch false
  let r := s.readLoc (.chan ch (64 * line)) 64
  (s.updChan ch (fun c => { c with hostLines := addOnce c.hostLines line, hostShared := dropAll c.hostShared line })).updPort port
    (fun h => { h with readData := r.1, readPoison := r.2 })

/-- The directory of a channel has no place for a line. -/
def ChannelSt.lineFull (c : ChannelSt) (line : Nat) : Bool := !hasNat c.hostLines line && decide (hostLineMax ≤ c.hostLines.length)

/-- Reads that waited for a place in a channel's directory are served, oldest first (R322); one that its channel's withdrawal has met is
refused (R324). -/
def State.linesServed (ch : Nat) : Nat → State → State
  | 0, s => s
  | fuel + 1, s =>
    match (s.chan ch).lineWait with
    | [] => s
    | (port, line) :: rest =>
      if (s.chan ch).lineFull line then s
      else
        let s := s.updChan ch (fun c => { c with lineWait := rest })
        State.linesServed ch fuel (if (s.chEntry ch).withdrawing || (s.chanRefuses ch).isSome then s.lineRefused ch port
          else s.hostRead port ch line)

/-- A write that waited at a channel is performed: the host holds none of its lines any more (R322). -/
def ChannelSt.writeNow (c : ChannelSt) (w : Nat × List Byte × Bool) : ChannelSt :=
  { c with mem := memWrite c.mem w.1 w.2.1, poison := poisonAfter c.poison w.1 w.2.1.length true w.2.2,
           ecc := eccAfter c.ecc w.1 w.2.1.length true, readCode := 0 }

/-- Writes that waited for the host to give lines up are performed, oldest first. -/
def ChannelSt.writesServed (c : ChannelSt) : ChannelSt :=
  c.writeWait.foldl (fun c w =>
    if (c.heldLines w.1 w.2.1.length).isEmpty then c.writeNow w else { c with writeWait := c.writeWait ++ [w] }) { c with writeWait := [] }

/-- The host no longer holds a line: the writes and reads that waited for that go on, or are answered as the channel now answers (R466). -/
def State.lineGone (s : State) (ch line : Nat) : State :=
  let s := s.updChan ch (fun c => c.forgetLine line)
  match s.chanRefuses ch with
  | some code => s.chanDrops ch code
  | none => State.linesServed ch (s.chan ch).lineWait.length (s.updChan ch ChannelSt.writesServed)

/-- CXL_MEM_READ (R320-R323): one line. A full directory evicts an entry by BISnpInv, the oldest that is not on its way out already, and
admits the line after the response. Tension withholds credits of the port (R446). -/
def execCxlMemRead (port : Fin 4) (addr : Nat) (s : State) : Host.Outcome State Fault Refusal :=
  let a := addr / 64 * 64
  match s.hdmLookup port a with
  | .outside => .next s
  | .refused p => .next ((s.hdmCount port p).updPort port (fun h => { h with readData := zeros 64, readPoison := true }))
  | .serve p ch off =>
    let line := off / 64
    match s.cxlGate port p ch false with
    | (s, false) => .next s
    | (s, true) =>
      .next (if (s.chan ch).lineFull line then
          s.updChan ch (fun c => { c with bisnp := ((c.hostLines.filter (fun l => !hasNat c.bisnp l)).take 1).foldl addOnce c.bisnp,
                                          lineWait := c.lineWait ++ [(port.val, line)] })
        else s.hostRead port ch line)

/-- CXL_MEM_WRITE (R320-R323): one line, merged into its 256-byte unit. What the host may hold is as before. -/
def execCxlMemWrite (port : Fin 4) (addr : Nat) (data : List Byte) (poison : Bool) (s : State) : Host.Outcome State Fault Refusal :=
  match s.hdmLookup port (addr / 64 * 64) with
  | .outside => .next s
  | .refused p => .next (s.hdmCount port p)
  | .serve p ch off =>
    match s.cxlGate port p ch true with
    | (s, false) => .next s
    | (s, true) =>
      .next ((s.updChan ch (fun c =>
        let bs := data.take 64
        { c with mem := memWrite c.mem off bs, poison := poisonAfter c.poison off bs.length true poison,
                 ecc := eccAfter c.ecc off bs.length true })).cxlServed port ch true)

/-- A host's written-back line (R322). -/
def State.writeBack (s : State) (ch line : Nat) : Option (List Byte) → State
  | none => s
  | some bs => s.updChan ch (fun c => { c with mem := memWrite c.mem (64 * line) (bs.take 64) })

/-- BISNP_RESPONSE (R322, R324): the host gives a line up, with its write-back, and what waited for that goes on; or it
answers the BISnpData of a device read, and keeps the line, unmodified. -/
def execBisnpResponse (ch : Fin 320) (line : Nat) (dirty : Option (List Byte)) (s : State) : Host.Outcome State Fault Refusal :=
  let c := s.chan ch
  .next (if !hasNat c.hostLines line then s
    else if hasNat c.bisnp line || (s.chEntry ch).withdrawing then
      (s.writeBack ch line dirty).lineGone ch line
    else if hasNat c.bisnpData line then
      (s.writeBack ch line dirty).updChan ch (fun c =>
        { c with bisnpData := dropAll c.bisnpData line, hostShared := addOnce c.hostShared line })
    else s)

/-- BISNP_TIMEOUT (R474, R478): the line counts as invalid in the host, and the port fails. -/
def execBisnpTimeout (ch : Fin 320) (line : Nat) (s : State) : Host.Outcome State Fault Refusal :=
  let c := s.chan ch
  let e := s.chEntry ch
  let port := (s.part e.owner).desc.ownerPort
  if !hasNat c.bisnp line && !hasNat c.bisnpData line && !(e.withdrawing && hasNat c.hostLines line) then .next s
  else
    .next (((s.lineGone ch line).logEntry 4 2 0x8043 e.owner 1 (zeros 14 ++ leBytes 2 0xFFFF)).portFails port)

/-- HDM_WITHDRAW_COMPLETE (R324): the directory holds no line of the channel, and its strip starts. -/
def execHdmWithdrawComplete (ch : Fin 320) (s : State) : Host.Outcome State Fault Refusal :=
  .next (if (s.chEntry ch).withdrawing && (s.chan ch).hostLines.isEmpty then
      s.updEntry 2 ch (fun e => { e with withdrawing := false }) else s)

/-- HOST_SNOOP (R325): a line the device holds for a merge is given up when the merge ends. -/
def execHostSnoop (port : Fin 4) (line : Nat) (s : State) : Host.Outcome State Fault Refusal :=
  .next (s.updPort port (fun h => { h with heldLines := h.heldLines.filter (fun e => decide (e.1 ≠ line)) }))

-- doorbells (R316, R317, R387, R414)

/-- A dropped doorbell write is counted (R317). -/
def State.dblDrop (s : State) (p : Nat) : State := s.updPart p (fun x => { x with dropped := satInc32 x.dropped })

/-- A TAIL for a work queue (R387); in a teardown its packets are flushed (R414). -/
def State.ringWork (s : State) (p c q tail : Nat) : State :=
  let x := s.queue p c q
  if (tail + 2 ^ 32 - x.head) % 2 ^ 32 ≤ x.entries then
    let s := s.updQueue p c q (fun y => { y with tail := tail })
    let s := if x.waitingSlots = 0 ∧ x.cur = none then s.stampHead p c q else s
    if (s.ctx p c).state = 2 ∧ (s.ctx p c).abortStep ≥ 2 then s.flushQueue p c q 0x8404 else s
  else (s.queueStop p c q 0x0407 x.head).packetRecord p c q 0 x.head 0 0x0407

/-- A TAIL for the control queue (R387). -/
def State.ringControl (s : State) (p tail : Nat) : State :=
  let x := (s.part p).cq
  if (tail + 2 ^ 32 - x.head) % 2 ^ 32 ≤ x.entries then s.updPart p (fun y => { y with cq := { y.cq with tail := tail } })
  else s.packetRecord p 0xFFFF 0xFF 0 tail 0 0x0407

/-- A write of DBL_RING on a context's page, or on the partition page. -/
def State.dblRing (s : State) (port p : Nat) (page : Option Nat) (v : Nat) : State :=
  let q := bitsAt v 39 32
  let tail := v % 2 ^ 32
  if !s.vfServes port p then s
  else if bitsAt v 63 40 ≠ 0 then s.dblDrop p
  else
    match page with
    | none => if q ≠ 0 ∨ !(s.part p).cq.enabled then s.dblDrop p else s.ringControl p tail
    | some c =>
      let x := s.ctx p c
      if x.state = 0 ∨ q ≥ x.queues ∨ !(x.queue q).enabled then s.dblDrop p else s.ringWork p c q tail

/-- DBL_RING (R316, R317, R387). -/
def execDblRing (port : Fin 4) (p : Fin 64) (page : Option (Fin 256)) (v : BitVec 64) (s : State) : Host.Outcome State Fault Refusal :=
  .next (s.dblRing port p (page.map (fun c => c.val)) v.toNat)

/-- A write of DBL_ABORT (R414, R415). -/
def State.dblAbort (s : State) (port p c v : Nat) : State :=
  if !s.vfServes port p then s
  else if v / 2 ≠ 0 ∨ (s.ctx p c).state = 0 then s.dblDrop p
  else if v = 1 ∧ (s.ctx p c).state = 1 then s.abortStart p c else s

/-- DBL_ABORT (R316, R414). -/
def execDblAbort (port : Fin 4) (p : Fin 64) (c : Fin 256) (v : BitVec 64) (s : State) : Host.Outcome State Fault Refusal :=
  .next (s.dblAbort port p c v.toNat)

-- the port event queue (R319)

/-- A write of ADM_PEQ_CTL. A port whose site is not populated is held in reset (R3). -/
def State.peqCtl (s : State) (port v : Nat) : State :=
  if !s.sites.testBit port then s
  else s.updPort port (fun h =>
    let log2 := if h.peqEnable then h.peqLog2 else v % 32
    if v.testBit 31 then
      if 4 ≤ log2 ∧ log2 ≤ 16 then { h with peqLog2 := log2, peqEnable := true, peqProducer := 0, peqConsumer := 0 }
      else { h with peqLog2 := log2 }
    else { h with peqLog2 := log2, peqEnable := false })

/-- ADM_PEQ_ENABLE (R319): a write of ADM_PEQ_CTL with ENABLE 1. -/
def execAdmPeqEnable (port : Fin 4) (v : BitVec 64) (s : State) : Host.Outcome State Fault Refusal :=
  .next (if v.toNat.testBit 31 then s.peqCtl port v.toNat else s)

/-- ADM_PEQ_DISABLE (R319): a write of ADM_PEQ_CTL with ENABLE 0. -/
def execAdmPeqDisable (port : Fin 4) (v : BitVec 64) (s : State) : Host.Outcome State Fault Refusal :=
  .next (if v.toNat.testBit 31 then s else s.peqCtl port v.toNat)

/-- A write of ADM_PEQ_CONSUMER: one that would pass PRODUCER is ignored. -/
def State.peqConsume (s : State) (port v : Nat) : State :=
  if !s.sites.testBit port then s
  else s.updPort port (fun h =>
    let n := v % 2 ^ 32
    if (n + 2 ^ 32 - h.peqConsumer) % 2 ^ 32 ≤ (h.peqProducer + 2 ^ 32 - h.peqConsumer) % 2 ^ 32 then { h with peqConsumer := n } else h)

/-- ADM_PEQ_CONSUMER (R319). -/
def execAdmPeqConsumer (port : Fin 4) (v : BitVec 64) (s : State) : Host.Outcome State Fault Refusal :=
  .next (s.peqConsume port v.toNat)

/-- PF0_FLR (R319, R352): ENABLE clears; no field of R346 does, and an accepted command runs on. The function's MSI-X table resets. -/
def execPf0Flr (port : Fin 4) (s : State) : Host.Outcome State Fault Refusal :=
  .next ((s.updPort port (fun h => { h with peqEnable := false })).msiReset port 0)

end Sys2Proof.Machine
end

