-- ==== Sys2Proof/Machine/Translate.lean ====
section
/-! DEFINITION. Translation as the host sees it (R331-R342): walks that end, walkers, fault batches and their answers, and
INVAL_TRANSLATION. -/

namespace Sys2Proof.Machine

-- walks (R328, R331, R332, R338)

/-- The first VA of an access whose page has no cached translation: an access of up to 256 bytes may touch a second page. -/
def State.missVa (s : State) (p c addr n : Nat) (w : Bool) : Nat :=
  let x := s.ctx p c
  if (tlbHit (s.part p).tlb x.xs1 x.xg (addr % 2 ^ 57) w).isSome && decide (addr / 4096 ≠ (addr + n - 1) / 4096) then (addr + n - 1) / 4096 * 4096
  else addr

/-- A walk for an access of a context ends, if a walker of its pool serves it: the translation is cached, or its fault is noted by
`hold`. -/
def State.walkEnds (s : State) (pool p c addr : Nat) (w : Bool) (v : Via) (hold : XErr → State → State) : State :=
  match s.walkGate pool p c addr w with
  | (s, false) => s
  | (s, true) =>
    match s.xlate p c (addr % 2 ^ 57) w v with
    | (s, .ok _) => s
    | (s, .error e) => hold e s

/-- A walk of a DMA transaction: of its source, and, once that is cached or where it is no VA, of its destination. A fault of the
destination comes with the bytes that were read for it (R427). -/
def State.walkDma (s : State) (k : CoreId) (h : HostCtx) (q tx : Nat) : State :=
  let pool := clDie k.cl
  let v := s.via h.part h.ctx (clSource k.cl)
  match findTx ((s.core k).dma q) 0 tx with
  | none => s
  | some (i, e, t) =>
    match e.sides (s.core k) t with
    | none => s
    | some (src, dst, n) =>
      if e.isW || e.isDone t || !(e.faultsOf t).isEmpty || ((s.core k).fzDone && !e.open t)
          || s.vaWaits h.part h.ctx k.cl src n false || s.vaWaits h.part h.ctx k.cl dst n true then s
      else
        let x := s.ctx h.part h.ctx
        let a := s.missVa h.part h.ctx src n false
        if src / 2 ^ 60 = 8 ∧ (tlbHit (s.part h.part).tlb x.xs1 x.xg (a % 2 ^ 57) false).isNone then
          s.walkEnds pool h.part h.ctx a false v (fun e s => s.txReadFaults k h q i t src dst n (a % 2 ^ 57) e)
        else if dst / 2 ^ 60 = 8 then
          s.walkEnds pool h.part h.ctx (s.missVa h.part h.ctx dst n true) true v (fun _ s => s.dmaTx k q tx .data)
        else s

/-- The kind of source behind an agent's access for a context (R341): the hub's while a KV transfer or a sealed copy of it is in
progress, else a sequencer. -/
def CtxSt.agentSource (x : CtxSt) : Nat :=
  if x.qs.any (fun q => match q.2.cur with
    | some r => r.typ == 0x0B || r.typ == 0x0C || (r.typ == 3 && decide (pay r.bytes 0x18 4 ≠ 0)) | none => false) then 3 else 2

/-- WALK_COMPLETE (R328, R331, R338). -/
def execWalkComplete (a : VaAccess) (s : State) : Host.Outcome State Fault Refusal :=
  match a with
  | .coreRead k =>
    (match (s.cl k.cl).ctx, (s.core k).wait with
     | some h, r :: _ =>
       if r.addr / 2 ^ 60 ≠ 8 ∨ !r.sent ∨ r.faulted ∨ s.vaWaits h.part h.ctx k.cl r.addr r.len false then .next s
       else
         let a := s.missVa h.part h.ctx r.addr r.len false
         .next (s.walkEnds (clDie k.cl) h.part h.ctx a false (s.via h.part h.ctx (clSource k.cl)) (fun e s => s.readFaults k h r (a % 2 ^ 57) e))
     | _, _ => .next s)
  | .write id =>
    (match s.findWrite id with
     | none => .next s
     | some w =>
       if w.addr / 2 ^ 60 ≠ 8 ∨ !w.sent ∨ w.faulted ∨ s.vaWaits w.part w.ctx w.k.cl w.addr 1 true then .next s
       else .next (s.walkEnds (clDie w.k.cl) w.part w.ctx w.addr true (s.via w.part w.ctx (clSource w.k.cl)) (fun e s => s.storeFaults w e)))
  | .dma k q tx =>
    (match (s.cl k.cl).ctx with
     | some h => .next (s.walkDma k h q tx)
     | none => .next s)
  | .agent p c va w =>
    let hub := decide ((s.ctx p c).agentSource = 3)
    if (s.ctx p c).state = 0 ∨ (s.part p).pstate ≠ .enabled then .next s
    else
      .next (s.walkEnds (s.agentPool p c hub) p c va.toNat w (s.agentVia p c hub none) (fun e s => s.agentFault p c va.toNat (s.ctx p c).agentSource e))

/-- WALKER_FREED (R332). -/
def execWalkerFreed (pool : Fin 5) (w : Nat) (s : State) : Host.Outcome State Fault Refusal :=
  .next { s with walkers := tabSet s.walkers pool ((tabGet {} s.walkers pool).freed (walkCap pool) w) }

-- fault batches (R339-R342)

/-- FAULT_BATCH_TIMEOUT (R340): 50 us after it opened, a batch of batch mode closes and is posted. -/
def execFaultBatchTimeout (p : Fin 64) (c : Fin 256) (s : State) : Host.Outcome State Fault Refusal :=
  .next (s.batchPost p c true)

/-- Accesses of a core whose batch a predicate names are issued again (R342). -/
def CoreSt.answered (f : Nat → Bool) (rev gen : Nat) (k : CoreSt) : CoreSt :=
  let again (r : OutRead) : OutRead := if r.faulted && f r.batch then { r with faulted := false, rev := rev, gen := gen } else r
  let dma (d : DmaFault) : DmaFault := if f d.batch then { d with again := true } else d
  { k with wait := k.wait.map again, dmaq := k.dmaq.map (fun q => (q.1, q.2.map (fun e => { e with faulted := e.faulted.map dma }))) }

/-- Every faulted access of a context that a batch's answer concerns is walked again: the batch's own, and those that the limit of R341 kept
out of every batch. While the partition is FROZEN nothing of it issues, and the thaw walks them again (R438). -/
def State.answerRetry (s : State) (p c : Nat) (b : FaultBatch) : State :=
  let x := s.part p
  if x.pstate = .frozen then s
  else
    let cls := s.runClusters p c
    let f (n : Nat) : Bool := decide (n = b.serial) || decide (n = 0)
    let s := cls.foldl (fun s i => s.updCl i (fun k =>
      { k with cores := k.cores.map (fun e => (e.1, e.2.answered f x.revision x.generation)) })) s
    let again (w : FabWrite) : FabWrite :=
      if w.part = p ∧ w.ctx = c ∧ w.faulted = true ∧ f w.batch = true then { w with faulted := false } else w
    { s with writes := s.writes.map again }

/-- Contexts with a record in a batch. -/
def FaultBatch.ctxs (b : FaultBatch) : List Nat := (b.recs.map (fun r => r.ctx)).foldl addOnce []

/-- A batch is answered: it leaves the list, and its contexts no longer wait for it. -/
def State.batchAnswered (s : State) (p : Nat) (b : FaultBatch) : State :=
  let s := s.updPart p (fun x => { x with batches := x.batches.filter (fun d => decide (d.number ≠ b.number)) })
  b.ctxs.foldl (fun s c => s.updCtx p c (fun x => { x with
    faultWait := (s.part p).batches.any (fun b => b.number.isSome && hasNat b.ctxs c) })) s

/-- FAIL 1 (R342): a context stops, with the code of its first record at its running packet's fence; without a program, the packets
whose accesses wait fail. -/
def State.answerFail (s : State) (p c : Nat) (b : FaultBatch) : State :=
  let code := match b.recs.find? (fun r => decide (r.ctx = c)) with | some r => r.code | none => 0x8801
  let s := s.ctxLose p c code (fun _ => true)
  if b.recs.any (fun r => decide (r.ctx = c) && decide (2 ≤ r.source)) then
    (s.inProgress.filter (fun e => decide (e.1 = p) && decide (e.2.1 = c)
      && hasNat [2, 3, 4, 0x0B, 0x0C] e.2.2.2.typ && !e.2.2.2.waiting)).foldl (fun s e => s.packetFail p e.2.1 e.2.2.1 code) s
  else s

/-- FAIL 0 (R342): a context goes on, unless something else holds it. -/
def State.answerGo (s : State) (p c : Nat) (b : FaultBatch) : State :=
  let s := s.answerRetry p c b
  let x := s.ctx p c
  if x.resident && x.frozen && decide (x.switching = 0) && !b.batched && !(s.part p).holds c then s.resume p c else s.wake p c

/-- Every context of a partition, where batches were kept out by the limit of R341 as well as the answered one's. -/
def State.faultCtxs (s : State) (p : Nat) (b : FaultBatch) : List Nat :=
  (b.ctxs ++ (s.part p).ctxs.map (fun e => e.1)).foldl addOnce []

/-- A write of DBL_FAULT (R316, R317, R342). -/
def State.dblFault (s : State) (port p v : Nat) : State :=
  if !s.vfServes port p then s
  else if bitsAt v 62 32 ≠ 0 then s.dblDrop p
  else
    match (s.part p).batches.find? (fun b => decide (b.number = some (v % 2 ^ 32))) with
    | none => s.updPart p (fun x => { x with faultIgnored := satInc32 x.faultIgnored })
    | some b =>
      let s := s.batchAnswered p b
      let s := if v.testBit 63 then b.ctxs.foldl (fun s c => s.answerFail p c b) s else s
      let s := (s.faultCtxs p b).foldl (fun s c => s.answerRetry p c b) s
      let s := if v.testBit 63 then s else b.ctxs.foldl (fun s c => s.answerGo p c b) s
      s.evqPushAll p

/-- DBL_FAULT_RETRY (R342). -/
def execDblFaultRetry (port : Fin 4) (p : Fin 64) (v : BitVec 64) (s : State) : Host.Outcome State Fault Refusal :=
  .next (if v.toNat.testBit 63 then s else s.dblFault port p v.toNat)

/-- DBL_FAULT_FAIL (R342). -/
def execDblFaultFail (port : Fin 4) (p : Fin 64) (v : BitVec 64) (s : State) : Host.Outcome State Fault Refusal :=
  .next (if v.toNat.testBit 63 then s.dblFault port p v.toNat else s)

-- INVAL_TRANSLATION (R334-R336)

/-- The layout of R334. -/
def invalOk (b : List Byte) : Bool :=
  let f := pay b 0 1
  let addr := f.testBit 0
  decide (f < 16) && !(f.testBit 3 && f.testBit 1) && payZero b 1 7 && decide (pay b 0x0A 2 < 2 ^ 14) && payZero b 0x18 40
    && (if addr then decide (1 ≤ pay b 0x0C 4) && decide (pay b 0x0C 4 ≤ 1048576) && pay b 0x10 8 % 4096 == 0
        else payZero b 0x0C 4 && payZero b 0x10 8)

/-- A cached entry is in a packet's scope (R335). A G-stage scope takes every two-stage entry of its VMID: it may take more than it names. -/
def invalScope (b : List Byte) (e : TlbEntry) : Bool :=
  let f := pay b 0 1
  let vm := !f.testBit 2 || (e.twoStage && decide (e.vmid = pay b 0x0A 2))
  if f.testBit 3 then e.twoStage && vm
  else
    let page := pay b 0x10 8 % 2 ^ 57 / 4096
    vm && (!f.testBit 1 || decide (e.asid = pay b 8 2))
      && (!f.testBit 0 || (decide (page ≤ e.vpn) && decide (e.vpn < page + pay b 0x0C 4)))

/-- Steps 1 and 2 of R336: no cached entry in scope, and no VA line in the read caches of the context's VD. -/
def State.invalStart (s : State) (p c : Nat) (b : List Byte) : State :=
  let s := s.updPart p (fun x => { x with tlb := x.tlb.filter (fun e => !invalScope b e) })
  (s.vdOf p c).foldl (fun s i => s.updCl i (fun k => { k with cache := k.cache.filter (fun l => decide (l.tag / 2 ^ 60 ≠ 8)) })) s

/-- INVAL_TRANSLATION (R334-R336). -/
def execInvalTranslation (q : QRef) (s : State) : Host.Outcome State Fault Refusal :=
  .next (s.startPacket q (fun b => pkTyp b == 0x0A)
    (fun s b => (s, if invalOk b then none else some 0x0802))
    (fun s b => s.invalStart q.part q.ctx b))

/-- INVAL_TRANSLATION_COMPLETE (R336 steps 3 and 4): accesses translate as they are performed, so none that used an entry in scope is
left, and the fence is signalled. -/
def execInvalTranslationComplete (q : QRef) (s : State) : Host.Outcome State Fault Refusal :=
  match s.runningPacket q 0x0A with
  | none => .next s
  | some _ =>
    let s := s.packetDone q.part q.ctx q.queue
    .next (s.freezeSettle q.part)

end Sys2Proof.Machine
end

