-- ==== Sys2Proof/Machine/Recovery.lean ====
section
/-! DEFINITION. Faults and recovery (R463-R493): tape-off, the stop of every VD a domain carried, the recoveries and their nesting,
timeouts, hang detection, crash dumps, and the retirement of a unit by command. -/

namespace Sys2Proof.Machine

-- domains (R463)

/-- LEVEL of a domain. -/
def domLevel : Domain → Nat
  | .l1 _ => 1
  | .l2 _ => 2
/-- UNIT of a domain: a cluster's global index, or a die. -/
def domUnit : Domain → Nat
  | .l1 c => c
  | .l2 d => d
/-- The domain `a` lies inside `b`, or is `b`. -/
def domInside (a b : Domain) : Bool :=
  match a with
  | .l1 c => domHasCluster b c
  | .l2 d => domIsDie b d

/-- The run of a domain. -/
def State.findRun (s : State) (d : Domain) : Option DomainRun := s.recov.domains.find? (fun r => decide (r.dom = d))
/-- Change the run of a domain. -/
def State.updRun (s : State) (d : Domain) (f : DomainRun → DomainRun) : State :=
  { s with recov := { s.recov with domains := s.recov.domains.map (fun r => if r.dom = d then f r else r) } }
/-- Remove the run of a domain. -/
def State.dropRun (s : State) (d : Domain) : State :=
  { s with recov := { s.recov with domains := s.recov.domains.filter (fun r => decide (r.dom ≠ d)) } }
/-- A domain held after DUMP_COLLECT is under no recovery until one goes on (R489). -/
def DomainRun.active (r : DomainRun) : Bool := decide (r.step ≠ 9)
/-- Some recovery is in progress. -/
def State.recovering (s : State) : Bool := s.recov.domains.any DomainRun.active

/-- A recovery entry of the log (R500 KIND 4): PHASE 0 start, 1 end, 2 nested. -/
def State.logRecovery (s : State) (d : Domain) (phase code dump : Nat) : State :=
  s.logEntry 4 (codeSeverity code) code 0xFF 4 (leBytes 1 (domLevel d) ++ leBytes 1 phase ++ leBytes 2 (domUnit d) ++ leBytes 4 dump)

/-- The waiting commands of a recovery are answered FAILED: it went past their level (R486). -/
def State.failWaiters (s : State) (ws : List Nat) : State := ws.foldl (fun s ch => s.refuse ch 0x8021) s

/-- Count an escalation (R481). -/
def State.countNested (s : State) (d : Domain) : State :=
  { s with recov := { s.recov with nested := satInc32 s.recov.nested } }.logRecovery d 2 0x8022 0

/-- Tape-off of a domain begins (R465, R471 step 1). Recoveries inside it are taken in: their commands fail (R481, R486), and what they
were to retire is retired at the new end. A dump that the run takes has its number and its log entry from here (R490). -/
def State.startRun (s : State) (d : Domain) (origin code : Nat) (dump : Bool) (waiters : List Nat) (retire : List (Nat × Nat × Nat)) :
    State :=
  let inner := s.recov.domains.filter (fun r => domInside r.dom d)
  let s := { s with recov := { s.recov with domains := s.recov.domains.filter (fun r => !domInside r.dom d) } }
  let s := (inner.filter (fun r => DomainRun.active r && decide (r.dom ≠ d))).foldl (fun s r => s.countNested r.dom) s
  let s := inner.foldl (fun s r => s.failWaiters r.waiters) s
  let id := if dump then s.recov.nextDump else 0
  let run : DomainRun :=
    { dom := d, origin := origin, code := code, dump := dump, dumpId := id, logSeq := s.log.next, waiters := waiters,
      startedAt := s.hubCycles, retire := retire ++ inner.flatMap (fun r => r.retire) }
  let s := { s with recov := { s.recov with domains := s.recov.domains ++ [run], nextDump := s.recov.nextDump + bnat dump } }
  s.logRecovery d 0 code id

/-- A recovery that the device starts (R464): with a dump (R471 step 3), and management is told (R498). -/
def State.deviceRun (s : State) (d : Domain) (code : Nat) : State := (s.startRun d 2 code true [] []).irqRaise 10

/-- Before an L3 the DOMAIN_RECOVER commands of a recovery are answered; a DUMP_COLLECT is not (R353, R486). -/
def State.recoverReplies (s : State) (r : DomainRun) : State := if r.origin = 0 then s else s.failWaiters r.waiters

/-- An L3 that an error or a failed step brings on (R464, R481): the commands whose recovery escalated are answered first. -/
def State.escalateL3 (s : State) (d : Domain) : State :=
  match s.findRun d with
  | none => s
  | some r => ((s.countNested d).recoverReplies r).l3

/-- Recoveries in progress go over to an L3 as a whole (R482): their commands are answered first (R353, R486). -/
def State.l3Recovering (s : State) : State := (s.recov.domains.foldl State.recoverReplies s).l3

/-- L1 of a cluster goes over to L2 of its die (R481): the condition that started it is the L2's. -/
def State.escalateL2 (s : State) (r : DomainRun) (die : Fin 4) : State :=
  (((s.dropRun r.dom).countNested r.dom).failWaiters r.waiters).startRun (.l2 die) 2 r.code true [] r.retire |>.irqRaise 10

/-- The die of a cluster. -/
def dieOf (cl : Fin 192) : Fin 4 := ⟨cl.val / 48, by omega⟩

/-- A recovery in progress holds the die as a whole. -/
def State.dieRecovers (s : State) (die : Fin 4) : Bool :=
  match s.findRun (.l2 die) with
  | some r => r.active
  | none => false

/-- An error in a unit of a cluster or a die (R464, R481): an error that meets its recovery escalates it, another starts one. -/
def State.domainError (s : State) (d : Domain) (code : Nat) : State :=
  match d with
  | .l2 die => if s.dieRecovers die then s.escalateL3 d else s.deviceRun d code
  | .l1 cl =>
    if s.dieRecovers (dieOf cl) then s.escalateL3 (.l2 (dieOf cl))
    else
      match s.findRun d with
      | some r => if r.active then s.escalateL2 r (dieOf cl) else s.deviceRun d code
      | none => s.deviceRun d code

/-- CLUSTER_CONTROL_ERROR (R464): an uncorrectable error in the control state of a cluster in service. -/
def execClusterControlError (cl : Fin 192) (s : State) : Host.Outcome State Fault Refusal :=
  .next (if s.phase = .ready ∧ (s.clEntry cl).inService then s.domainError (.l1 cl) 0 else s)

/-- DIE_CONTROL_ERROR (R464). -/
def execDieControlError (d : Fin 4) (s : State) : Host.Outcome State Fault Refusal :=
  .next (if s.phase = .ready then s.domainError (.l2 d) 0 else s)

/-- HUB_CONTROL_ERROR (R464): an L3, which takes in the recoveries in progress (R486). -/
def execHubControlError (s : State) : Host.Outcome State Fault Refusal :=
  .next (if s.phase = .ready then s.l3Recovering else s)

/-- SEQUENCER_WATCH_MISS (R480): a sequencer that misses its watch starts L2 of its die. -/
def execSequencerWatchMiss (d : Fin 4) (s : State) : Host.Outcome State Fault Refusal :=
  .next (if s.phase = .ready ∧ !s.dieTaped d then s.deviceRun (.l2 d) 0 else s)

-- where requests go

/-- What a request is aimed at. -/
inductive Place where
  | cluster (cl : Nat)
  | channel (ch : Nat)
  | elsewhere
  deriving DecidableEq, Repr

/-- Where an address of a context's cluster leads. -/
def State.placeOf (s : State) (h : HostCtx) (addr : Nat) : Place :=
  let pat := (s.part h.part).pat
  let pla (a : Nat) : Place := match pat.resolve a with | some (ch, _) => .channel ch | none => .elsewhere
  match addrOf addr with
  | some (.wa vc _ _) => (match (pat.clusters h.vd)[vc]? with | some cl => .cluster cl | none => .elsewhere)
  | some (.pla a) => pla a
  | some (.va a) =>
    let x := s.ctx h.part h.ctx
    (match s.walk h.part x.xs1 x.xg a false, (s.port (s.part h.part).desc.ownerPort).hdmBase with
     | (_, .ok (hpa, _)), some b =>
       if b ≤ hpa ∧ hpa < b + 2 ^ 50 ∧ (hpa - b) / 2 ^ 44 = h.part then pla ((hpa - b) % 2 ^ 44) else .elsewhere
     | _, _ => .elsewhere)
  | _ => .elsewhere

/-- A place lies in a domain. -/
def placeIn (d : Domain) : Place → Bool
  | .cluster cl => domHasCluster d cl
  | .channel ch => domHasChannel d ch
  | .elsewhere => false

/-- Where a write on its way leads: the place that has taken it, or that its address names in the VD it was issued under. -/
def State.writePlace (s : State) (w : FabWrite) : Place :=
  match addrOf w.addr, w.served with
  | some (.wa _ _ _), true => .cluster w.place.1
  | some (.pla _), true => .channel w.place.1
  | _, _ => s.placeOf { part := w.part, ctx := w.ctx, queue := 0, vd := w.vd, vc := w.vc, n := 0, formats := 0, rcache := 0, seed := 0 } w.addr

/-- The tag generation of an aborted transaction's tracker entry advances (R465, R475); the entry frees as the transaction ends. Which entry
of the die's tracker it held is the tracker's own choice: a free value. -/
def State.trackAbort (s : State) (die : Nat) : State :=
  match s.fresh with
  | (v, s) =>
    let t := s.tracker die
    let e := v % 16384
    { s with trackers := tabSet s.trackers die { t with tags := tabSet t.tags e ((tabGet 0 t.tags e + 1) % 256) } }

/-- Every core of the package. -/
def State.allCores (s : State) : List CoreId :=
  s.clusters.flatMap (fun e => e.2.cores.filterMap (fun f => coreIdOf e.1 f.1))

/-- A request of a core to an address is answered TAPE_OFF_ABORTED at step 3 of R465: it is the domain's own, or leads into it. -/
def State.aborts (s : State) (d : Domain) (k : CoreId) (h : HostCtx) (addr : Nat) : Bool := domHasCluster d k.cl || placeIn d (s.placeOf h addr)

/-- Outside reads of a core that are on their way and answered so. -/
def State.readAborts (s : State) (d : Domain) (k : CoreId) : List OutRead :=
  match (s.cl k.cl).ctx with
  | some h => (s.core k).wait.filter (fun r => r.sent && !r.faulted && s.aborts d k h r.addr)
  | none => []

/-- Entries of a core's DMA queues with a transaction that is answered so. -/
def State.entryAborts (s : State) (d : Domain) (k : CoreId) : List (Nat × Nat) :=
  match (s.cl k.cl).ctx with
  | some h => (s.core k).entriesWhere (fun e => (e.openAddrs (s.core k)).any (s.aborts d k h))
  | none => []

/-- Writes on their way that are answered so. -/
def State.writeAborts (s : State) (d : Domain) : List FabWrite :=
  s.writes.filter (fun w => w.sent && !w.faulted && (domHasCluster d w.k.cl || placeIn d (s.writePlace w)))

/-- The requests of a core that are answered TAPE_OFF_ABORTED fault it (R465 step 3, R469); its DMA entries stop, and what they met is
reported before the VD stops. -/
def State.coreAborts (s : State) (d : Domain) (k : CoreId) : State :=
  match s.readAborts d k with
  | r :: _ => s.coreFault k 0x8013 r.pc
  | [] =>
    match s.entryAborts d k with
    | [] => s
    | es => (s.updCore k (fun c => es.foldl (fun c e => c.dropEntry e.1 e.2) c)).coreFault k 0x8013 (s.core k).pc

/-- Every request still outstanding into or out of a domain is answered: its tracker entry's tag advances, and it faults its core or DMA
entry (R465 step 3, R466). -/
def State.domainAborts (s : State) (d : Domain) : State :=
  let cores := s.allCores
  let ws := s.writeAborts d
  let dies := cores.flatMap (fun k => List.replicate ((s.readAborts d k).length + (s.entryAborts d k).length) (clDie k.cl))
    ++ ws.map (fun w => clDie w.k.cl)
  let s := dies.foldl State.trackAbort s
  let s := cores.foldl (fun s k => s.coreAborts d k) s
  let s := ws.foldl (fun s w => s.writeFails w 0x8013) s
  { s with writes := s.writes.filter (fun w => !domHasCluster d w.k.cl), counts := s.counts.filter (fun m => !domHasCluster d m.cl) }

-- telling the VDs (R467-R470)

/-- Every VD that a domain affects: partition and node (R467). -/
def State.affectedVds (s : State) (d : Domain) : List (Nat × Nat) :=
  s.parts.flatMap (fun e => if e.2.present then
    (e.2.pat.vds.filter (fun v => s.vdAffected d e.1 v.node)).map (fun v => (e.1, v.node)) else [])

/-- One affected VD stops and its partition is told (R468, R470). -/
def State.vdLost (s : State) (d : Domain) (p node : Nat) : State :=
  (s.vdStop p node 0x8020 (domHasCluster d) (fun c r => (s.kvTouches p c r).any (domHasChannel d))).notice p 0 0x8020 0xFFFF
    (leBytes 1 (domLevel d) ++ zeros 1 ++ leBytes 2 (domUnit d) ++ leBytes 2 node ++ zeros 8)

/-- The restored notice of a VD (R470). -/
def State.vdRestored (s : State) (d : Domain) (p node : Nat) : State :=
  if (s.part p).present then
    s.notice p 0 0 0xFFFF (zeros 4 ++ leBytes 1 2 ++ leBytes 1 (domLevel d) ++ leBytes 2 (domUnit d) ++ leBytes 2 node ++ zeros 4)
  else s

-- retirement by command (R493)

/-- Units retired at the end of a recovery: their fuses are blown next, and their commands wait for that. -/
def State.retireAll (s : State) (rs : List (Nat × Nat × Nat)) : State :=
  let s := rs.foldl (fun s r => s.retireNow r.1 r.2.1 1) s
  { s with recov := { s.recov with retiring := s.recov.retiring ++ rs } }

/-- The recovery, or the DUMP_COLLECT in progress, of a domain in which the unit lies. -/
def State.unitDown (s : State) (kind i : Nat) : Option DomainRun :=
  s.recov.domains.find? (fun r => r.active &&
    (if kind = 1 then domHasCluster r.dom i else if kind = 2 then domHasChannel r.dom i
     else domIsDie r.dom (edgeDies (lmEdge i)).1 || domIsDie r.dom (edgeDies (lmEdge i)).2))

/-- RETIRE_UNIT (R493): the fuse is blown once the unit is out of service, and the reply follows it. While a DUMP_COLLECT of its domain
runs it waits (log entry 24). -/
def execRetireUnit (ch : Fin 5) (pkt : List Byte) (s : State) : Host.Outcome State Fault Refusal :=
  .next (s.admCommand ch pkt (isOp 0x0804) (fun s b =>
    let kind := par b 0 1
    let i := par b 2 2
    let top := if kind = 1 then 192 else if kind = 2 then 320 else 24
    if !parZero b 1 1 ∨ !parZero b 4 4 then s.refuse ch 0x0003
    else if kind < 1 ∨ kind > 3 ∨ i ≥ top then s.refuse ch 0x0005
    else
      let e := s.entry kind i
      match e.state, s.unitDown kind i with
      | .disabled, _ | .retired, _ => s.done ch []
      | _, some r =>
        if r.origin = 0 then s.updAdm ch (fun a => { a with started := false })
        else s.updRun r.dom (fun r => { r with retire := r.retire ++ [(kind, i, ch.val)] })
      | .bound, none =>
        if h : kind = 1 ∧ i < 192 then s.startRun (.l1 ⟨i, h.2⟩) 3 0 false [] [(1, i, ch.val)]
        else s.retireAll [(kind, i, ch.val)]
      | _, none => s.retireAll [(kind, i, ch.val)]))

-- tape-off and notification (R465, R468)

/-- The clusters of a domain as they stand. -/
def State.standing (s : State) (d : Domain) : Tab ClusterSt := s.clusters.filter (fun e => domHasCluster d e.1)

/-- TAPE_OFF_DRAIN_END (R465 steps 3 and 4, R471 step 2). A bound cluster that is being retired leaves service here (R493). -/
def execTapeOffDrainEnd (d : Domain) (s : State) : Host.Outcome State Fault Refusal :=
  match s.findRun d with
  | none => .next s
  | some r =>
    if r.step ≠ 1 then .next s
    else
      let stood := if r.dump then s.standing d else []
      let s := s.domainAborts d
      let vds := s.affectedVds d
      let s := vds.foldl (fun s v => s.vdLost d v.1 v.2) s
      .next (if r.origin = 3 ∧ r.waiters.isEmpty then (s.dropRun d).retireAll r.retire
        else s.updRun d (fun r => { r with notified := vds, stood := stood, step := if r.dump then 3 else 4 }))

-- crash dumps (R488-R491)

/-- Units of a dump, in order: kind and INDEX (R488). -/
def dumpUnits : Domain → List (Nat × Nat)
  | .l1 cl => [(1, cl.val)]
  | .l2 d =>
    let edges := (natRange 0 4).filter (fun e => decide ((edgeDies e).1 = d.val) || decide ((edgeDies e).2 = d.val))
    (natRange (48 * d.val) 48).map (fun i => (1, i)) ++ (natRange 0 10).map (fun i => (2, i)) ++ edges.map (fun e => (3, e)) ++ [(3, 0)]
      ++ [(4, 0), (5, 0)] ++ edges.flatMap (fun e => (natRange (6 * e) 6).map (fun m => (6, m))) ++ [(6, 0), (6, 0)]

/-- DUMP_TO_OWNER of the protection set-up (R286). -/
def State.dumpToOwner (s : State) : Bool := (fieldAt s.prs.regs 0x0C 1).testBit 0

/-- A cluster's data may be dumped only to its owner: it is BOUND or STRIPPING (R491). -/
def State.ownedCluster (s : State) (cl : Nat) : Bool :=
  match (s.clEntry cl).state with
  | .bound | .stripping => true
  | _ => false

/-- No access to a PLA range of a partition is refused. -/
def State.rangeServes (s : State) (p base n : Nat) : Bool :=
  let pat := (s.part p).pat
  (pat.touches base n).all (fun c => (s.chanRefuses c).isNone)
    && pat.map.all (fun i => i.chans.isEmpty || decide (i.base + i.len ≤ base) || decide (base + n ≤ i.base) || !s.groupLost i.chans)

/-- The dump object of a partition (R491): its PLA and length. -/
def State.dumpObject (s : State) (p : Nat) : Option (Nat × Nat) :=
  match (s.part p).dir with
  | none => none
  | some d =>
    let i := d.memobjs - 1
    let r := s.memRec p i
    let fl := fieldAt r 0x18 1
    let base := fieldAt r 0 8 % 2 ^ 44
    if d.memobjs ≠ 0 ∧ fl.testBit 0 ∧ !fl.testBit 2 ∧ !(s.ctx p i).saved
        ∧ s.rangeServes p base (fieldAt r 8 8) then
      some (base, fieldAt r 8 8) else none

/-- Clusters of a partition in a dump that answered, each with whether its record fits in the dump object, in ascending index. -/
def State.dumpFits (s : State) (units : List (Nat × Nat)) (silent : List Nat) (p : Nat) : List (Nat × Bool) :=
  let mine := ((natRange 0 units.length).zip units).filter (fun u =>
    decide (u.2.1 = 1) && !hasNat silent u.1 && s.ownedCluster u.2.2 && decide ((s.clEntry u.2.2).owner = p))
  match s.dumpObject p with
  | none => mine.map (fun u => (u.2.2, false))
  | some (_, len) => (mine.zip (natRange 0 mine.length)).map (fun u =>
      (u.1.2.2, decide (64 + (u.2 + 1) * clusterRecordLen ≤ len)))

/-- A cluster record as the test-access engine writes it, of the cluster as it stood when its domain was taped off: results in flight are not
recovered (R491). -/
def State.dumpRecord (s : State) (stood : Tab ClusterSt) (p cl : Nat) : List Byte :=
  let c := (tabFind stood cl).getD (s.cl cl)
  let vc := match (s.part p).pat.vds.find? (fun v => hasNat ((s.part p).pat.clusters v.node) cl) with
    | some v => indexIn ((s.part p).pat.clusters v.node) cl
    | none => 0xFFFF
  let still (k : CoreSt) : CoreSt := { k with landing := [], parked := [], mexec := none, mpend := none, wait := [] }
  let c := { c with cores := c.cores.map (fun (e : Nat × CoreSt) => (e.1, still e.2)) }
  c.record vc (match c.ctx with | some h => h.rcache | none => 0) []

/-- Write a partition's cluster records, after a copy of the header, into its dump object (R491). -/
def State.dumpToPart (s : State) (stood : Tab ClusterSt) (header : List Byte) (fits : List (Nat × Bool)) (p : Nat) : State :=
  match s.dumpObject p with
  | none => s
  | some (base, _) =>
    let recs := (fits.filter (fun f => f.2)).map (fun f => f.1)
    (recs.zip (natRange 0 recs.length)).foldl (fun s e =>
      s.plaWrite p (base + 64 + e.2 * clusterRecordLen) (s.dumpRecord stood p e.1)) (s.plaWrite p base header)

/-- UNIT_STATE of a unit (R490, R491). -/
def State.unitState (s : State) (silent : List Nat) (fits : List (Nat × Bool)) (u : Nat × Nat × Nat) : Nat :=
  if hasNat silent u.1 then 1
  else if u.2.1 = 1 ∧ s.ownedCluster u.2.2 ∧ s.dumpToOwner then
    (if fits.any (fun f => decide (f = (u.2.2, true))) then 2 else 3)
  else 0

/-- The unit of a dump is bound: a cluster with data of its owner, or a link module of a share (R292). -/
def State.boundUnit (s : State) (kind i : Nat) : Bool :=
  (kind == 1 && s.ownedCluster i) || (kind == 6 && decide ((s.lmEntry i).state = .bound))

/-- The control record of a unit, in the device's own format (R490); of a bound unit nothing but the response is recorded unless
DUMP_TO_OWNER is set (R292). -/
def State.controlRecord (s : State) (silent : List Nat) (draw : Nat) (u : Nat × Nat × Nat) : List Byte :=
  if hasNat silent u.1 ∨ (s.boundUnit u.2.1 u.2.2 ∧ !s.dumpToOwner) then [] else Config.ownFormat 1 (128 * draw + u.1)

/-- Unit entries of a dump (R490), the control records standing from `off`. -/
def State.unitEntries (s : State) (silent : List Nat) (fits : List (Nat × Bool)) (draw : Nat) :
    List (Nat × Nat × Nat) → Nat → List Byte
  | [], _ => []
  | u :: t, off =>
    let n := (s.controlRecord silent draw u).length
    let part := if u.2.1 = 1 ∧ s.ownedCluster u.2.2 then (s.clEntry u.2.2).owner else 0xFF
    leBytes 1 u.2.1 ++ leBytes 1 (s.unitState silent fits u) ++ leBytes 2 u.2.2 ++ leBytes 1 part ++ zeros 3
      ++ leBytes 4 (if hasNat silent u.1 then 0 else off) ++ leBytes 4 n ++ s.unitEntries silent fits draw t (off + n)

/-- Keep a dump (R490): in the management channels that can be reached, the oldest dumps leaving when it does not fit; without one, the
last four in the hub's SRAM, header and unit table only. -/
def keepDumps (room : Nat) : List Dump → List Dump
  | [] => []
  | d :: t => if ((d :: t).filter (fun x => !x.chans.isEmpty)).foldl (fun a x => a + x.bytes.length) 0 ≤ room then d :: t else keepDumps room t

/-- Store a dump. -/
def State.storeDump (s : State) (d : Dump) (short : List Byte) : State :=
  let ds := s.recov.dumps
  let ds := if d.chans.isEmpty then
      let sram := ds.filter (fun x => x.chans.isEmpty)
      let gone := (sram.take (sram.length - 3)).map (fun x => x.id)
      ds.filter (fun x => !hasNat gone x.id) ++ [{ d with bytes := short }]
    else keepDumps (3000000000 * d.chans.length) (ds ++ [d])
  { s with recov := { s.recov with dumps := ds } }

/-- The test-access engine has read every unit (R488-R491): the dump is stored, and the owners' data is written to them. The answer is
UNITS, UNRESPONSIVE and DUMP_LEN. -/
def State.takeDump (s : State) (r : DomainRun) : State × Nat × Nat × Nat :=
  match s.fresh with
  | (draw, s) =>
    let us := dumpUnits r.dom
    let units := ((natRange 0 us.length).zip us).map (fun u => (u.1, u.2.1, u.2.2))
    let silent := r.silent.filter (fun u => decide (u < us.length))
    let owners := s.parts.map (fun e => e.1)
    let fits := if s.dumpToOwner then owners.flatMap (fun p => s.dumpFits us silent p) else []
    let table := s.unitEntries silent fits draw units (64 + 16 * us.length)
    let recs := units.flatMap (s.controlRecord silent draw)
    let len := 64 + table.length + recs.length
    let header := leBytes 4 0x504D5544 ++ leBytes 4 r.dumpId ++ leBytes 1 (domLevel r.dom) ++ leBytes 1 r.origin
      ++ leBytes 2 (domUnit r.dom) ++ leBytes 2 us.length ++ leBytes 2 silent.length ++ leBytes 2 (if r.origin = 2 then r.code else 0)
      ++ zeros 6 ++ leBytes 8 r.logSeq ++ leBytes 8 len ++ leBytes 8 r.startedAt ++ zeros 16
    let s := if s.dumpToOwner then owners.foldl (fun s p => s.dumpToPart r.stood header (s.dumpFits us silent p) p) s else s
    let chans := s.mgtServing.filter (fun c => !s.chTaped c)
    (s.storeDump { id := r.dumpId, bytes := header ++ table ++ recs, chans := chans } (header ++ table), us.length, silent.length, len)

/-- DUMP_ACCESS_TIMEOUT (R488): a unit that does not answer is recorded as unresponsive. -/
def execDumpAccessTimeout (d : Domain) (unit : Nat) (s : State) : Host.Outcome State Fault Refusal :=
  match s.findRun d with
  | none => .next s
  | some r =>
    .next (if r.step = 3 ∧ unit < (dumpUnits d).length then s.updRun d (fun r => { r with silent := addOnce r.silent unit }) else s)

/-- DUMP_COMPLETE (R488): recovery goes on to the reset; a DUMP_COLLECT answers and holds the domain (R489). -/
def execDumpComplete (d : Domain) (s : State) : Host.Outcome State Fault Refusal :=
  match s.findRun d with
  | none => .next s
  | some r =>
    if r.step ≠ 3 then .next s
    else
      match s.takeDump r with
      | (s, units, silent, len) =>
        .next (if r.origin = 0 then
            r.waiters.foldl (fun s ch => s.done ch (leBytes 4 r.dumpId ++ leBytes 2 units ++ leBytes 2 silent ++ leBytes 8 len))
              (s.updRun d (fun r => { r with step := 9, waiters := [] }))
          else s.updRun d (fun r => { r with step := 4 }))

/-- The domain that LEVEL and UNIT of a command name, where they are in range and no DISABLED or RETIRED cluster is named (R485). -/
def State.namedDomain (s : State) (level unit : Nat) : Option Domain :=
  if level = 1 then
    (if h : unit < 192 then
      (match (s.clEntry unit).state with | .disabled | .retired => none | _ => some (.l1 ⟨unit, h⟩))
     else none)
  else if level = 2 then (if h : unit < 4 then some (.l2 ⟨unit, h⟩) else none)
  else none

/-- A recovery that covers a domain at its level or a higher one is in progress. -/
def State.coveredBy (s : State) (d : Domain) : Option DomainRun :=
  s.recov.domains.find? (fun r => r.active && domInside d r.dom)

/-- DUMP_COLLECT (R489). On a domain already held it dumps again; on one under recovery it waits for that to end (log entry 24). -/
def execDumpCollect (ch : Fin 5) (pkt : List Byte) (s : State) : Host.Outcome State Fault Refusal :=
  .next (s.admCommand ch pkt (isOp 0x0802) (fun s b =>
    if !parZero b 1 1 ∨ !parZero b 4 4 then s.refuse ch 0x0003
    else
      match s.namedDomain (par b 0 1) (par b 2 2) with
      | none => s.refuse ch 0x0005
      | some d =>
        if (s.coveredBy d).isSome then s.updAdm ch (fun a => { a with started := false })
        else
          match s.findRun d with
          | some _ =>
            let id := s.recov.nextDump
            let q := s.log.next
            let s := s.updRun d (fun r => { r with step := 3, origin := 0, dump := true, dumpId := id, logSeq := q, silent := [],
                                                   waiters := [ch.val] })
            { s with recov := { s.recov with nextDump := id + 1 } }.logRecovery d 0 0 id
          | none => s.startRun d 0 0 true [ch.val] []))

/-- DUMP_READ (R492). -/
def execDumpRead (ch : Fin 5) (pkt : List Byte) (s : State) : Host.Outcome State Fault Refusal :=
  .next (s.admCommand ch pkt (isOp 0x0803) (fun s b =>
    let n := par b 0x10 4
    if par b 4 1 > 1 ∨ !parZero b 5 3 ∨ !parZero b 0x14 4 then s.refuse ch 0x0003
    else if n < 1 ∨ n > 4080 then s.refuse ch 0x0005
    else
      match s.recov.dumps.find? (fun d => decide (d.id = par b 0 4)) with
      | none => s.refuse ch 0x8023
      | some d =>
        let s := if par b 4 1 = 1 then
            { s with recov := { s.recov with dumps := s.recov.dumps.filter (fun x => decide (x.id ≠ d.id)) } } else s
        s.done ch ((d.bytes.drop (par b 8 8)).take n)))

-- reset, clearing and return (R471-R473)

/-- Clear a domain's state (R472, R471 step 5). An L2 also loses the KV slots and dumps on its channels, retrains its modules, and
loads its sequencer from the ACTIVE slot (R508). -/
def State.clearDomain (s : State) (d : Domain) : State :=
  match d with
  | .l1 cl => s.stripClear 1 cl
  | .l2 die =>
    let s := (natRange (48 * die.val) 48).foldl (fun s i => s.stripClear 1 i) s
    let chs := natRange (80 * die.val) 80
    let s := chs.foldl (fun s i => s.stripClear 2 i) s
    let lost := (s.kv.slots.filter (fun e => hasNat chs e.2.channel)).map (fun e => e.1)
    let s := lost.foldl (fun s i => s.kvLose i) s
    let s := (s.mgtServing.filter (fun c => hasNat chs c)).foldl (fun s c => s.mgtChannelLost c) s
    let mods := (natRange 0 24).filter (fun m =>
      decide ((edgeDies (lmEdge m)).1 = die.val) || decide ((edgeDies (lmEdge m)).2 = die.val))
    { s with recov := { s.recov with linkOut := s.recov.linkOut.filter (fun m => !hasNat mods m) },
             fw := s.fw.loadSeq die, walkers := tabSet s.walkers die {} }

/-- DOMAIN_RESET_COMPLETE (R471 steps 4 and 5): the domain is reset and cleared; a failure goes on at the next level (R481). -/
def execDomainResetComplete (d : Domain) (ok : Bool) (s : State) : Host.Outcome State Fault Refusal :=
  match s.findRun d with
  | none => .next s
  | some r =>
    if r.step ≠ 4 then .next s
    else if ok then .next ((s.clearDomain d).updRun d (fun r => { r with step := 5 }))
    else
      match d with
      | .l1 cl => .next (s.escalateL2 r (dieOf cl))
      | .l2 _ => .next (s.escalateL3 d)

/-- Entries STRIPPING in a domain start their strips again (R298). -/
def State.stripsRestart (s : State) (d : Domain) : State :=
  let again (has : Nat → Bool) (e : Nat × PoolEntry) : Nat × PoolEntry :=
    (e.1, if has e.1 && !e.2.stripped then { e.2 with stripFailed := false } else e.2)
  let ends (i : Nat) : Bool := domIsDie d (edgeDies (lmEdge i)).1 || domIsDie d (edgeDies (lmEdge i)).2
  let slot (e : Nat × KvSlot) : Nat × KvSlot := (e.1, if domHasChannel d e.2.channel then { e.2 with stripFailed := false } else e.2)
  { s with pool := { s.pool with clusters := s.pool.clusters.map (again (domHasCluster d)),
                                 channels := s.pool.channels.map (again (domHasChannel d)),
                                 links := s.pool.links.map (again ends) },
           kv := { s.kv with slots := s.kv.slots.map slot } }

/-- A partition's object directory has a byte on a channel of the domain (R473). -/
def State.dirLost (s : State) (d : Domain) (p : Nat) : Bool :=
  match (s.part p).dir with
  | none => false
  | some x => ((s.part p).pat.touches x.base (0x150000 + 32 * x.fences + 32 * x.memobjs)).any (domHasChannel d)

/-- DOMAIN_RESTORED (R471 step 6, R473): the tape goes, the VDs are told, units that waited are retired, and the commands reply. -/
def execDomainRestored (d : Domain) (s : State) : Host.Outcome State Fault Refusal :=
  match s.findRun d with
  | none => .next s
  | some r =>
    if r.step ≠ 5 then .next s
    else
      let lost := (s.parts.map (fun e => e.1)).filter (s.dirLost d)
      let s := (s.dropRun d).stripsRestart d
      let s := r.notified.foldl (fun s v => s.vdRestored d v.1 v.2) s
      let s := lost.foldl (fun s p => s.resetLost p) s
      let g := s.recov
      let s := { s with recov := if domLevel d = 1 then { g with l1Count := satInc32 g.l1Count }
                                 else { g with l2Count := satInc32 g.l2Count } }
      let s := s.logRecovery d 1 0 r.dumpId
      let s := r.waiters.foldl (fun s ch => s.done ch []) s
      .next (s.retireAll r.retire)

-- DOMAIN_RECOVER (R485-R487)

/-- A DOMAIN_RECOVER of a LEVEL. -/
def isRecover (level : Nat) (b : List Byte) : Bool := pktOp b == 0x0801 && par b 0 1 == level

/-- Reserved bits of DOMAIN_RECOVER. -/
def recoverZero (b : List Byte) : Bool := decide (par b 1 1 < 4) && parZero b 6 2

/-- CDd's DIE_STATE (R487). -/
def State.dieState (s : State) (d : Nat) : Nat :=
  match s.recov.domains.find? (fun r => domIsDie r.dom d) with
  | none => 0
  | some r => if r.step = 1 then 1 else if r.step = 9 then 2 else 3

/-- A bit mask of the numbers that meet a condition. -/
def maskBytes (n : Nat) (f : Nat → Bool) : List Byte :=
  (natRange 0 n).map (fun i => BitVec.ofNat 8 ((natRange 0 8).foldl (fun a j => if f (8 * i + j) then a + 2 ^ j else a) 0))

/-- The recovery state record (R487). -/
def State.recoveryRecord (s : State) : List Byte :=
  let g := s.recov
  leBytes 4 1 ++ leBytes 2 g.watchdogMs ++ zeros 2 ++ (natRange 0 4).flatMap (fun d => leBytes 1 (s.dieState d))
    ++ maskBytes 3 (hasNat g.linkOut) ++ zeros 1 ++ maskBytes 24 (fun c => g.domains.any (fun r => domHasCluster r.dom c)) ++ zeros 8
    ++ (natRange 0 5).flatMap (fun d => leBytes 8 (tabGet 0 g.stitches d)) ++ leBytes 4 g.l1Count ++ leBytes 4 g.l2Count
    ++ leBytes 4 g.nested ++ leBytes 4 g.timeouts ++ leBytes 4 g.watchdogCount ++ zeros 4

/-- DOMAIN_RECOVER with LEVEL 0 (R486): the record, and WATCHDOG_MS where it is set. -/
def execDomainRecoverQuery (ch : Fin 5) (pkt : List Byte) (s : State) : Host.Outcome State Fault Refusal :=
  .next (s.admCommand ch pkt (isRecover 0) (fun s b =>
    let fl := par b 1 1
    let ms := par b 4 2
    if !recoverZero b then s.refuse ch 0x0003
    else if fl.testBit 0 ∨ par b 2 2 ≠ 0 ∨ (if fl.testBit 1 then ms < 10 ∨ ms > 1000 else ms ≠ 0) then s.refuse ch 0x0005
    else
      let s := if fl.testBit 1 then { s with recov := { s.recov with watchdogMs := ms } } else s
      s.done ch s.recoveryRecord))

/-- DOMAIN_RECOVER at L1 or L2 (R486): it joins a recovery that covers the domain, goes on with one that is held, or starts one. While a
DUMP_COLLECT of the domain runs it waits (log entry 24). -/
def State.recoverCommand (s : State) (ch : Nat) (b : List Byte) : State :=
  let fl := par b 1 1
  if !recoverZero b then s.refuse ch 0x0003
  else if fl.testBit 1 ∨ par b 4 2 ≠ 0 then s.refuse ch 0x0005
  else
    match s.namedDomain (par b 0 1) (par b 2 2) with
    | none => s.refuse ch 0x0005
    | some d =>
      match s.coveredBy d with
      | some r =>
        if r.origin = 0 then s.updAdm ch (fun a => { a with started := false })
        else s.updRun r.dom (fun r => { r with waiters := r.waiters ++ [ch], origin := if r.origin = 3 then 1 else r.origin })
      | none =>
        match s.findRun d with
        | some _ => s.updRun d (fun r => { r with step := 4, origin := 1, waiters := [ch] })
        | none => s.startRun d 1 0 (fl.testBit 0) [ch] []

/-- DOMAIN_RECOVER at L1 (R471, R486). -/
def execDomainRecoverL1 (ch : Fin 5) (pkt : List Byte) (s : State) : Host.Outcome State Fault Refusal :=
  .next (s.admCommand ch pkt (isRecover 1) (fun s b => s.recoverCommand ch b))

/-- DOMAIN_RECOVER at L2 (R471, R486). -/
def execDomainRecoverL2 (ch : Fin 5) (pkt : List Byte) (s : State) : Host.Outcome State Fault Refusal :=
  .next (s.admCommand ch pkt (isRecover 2) (fun s b => s.recoverCommand ch b))

/-- DOMAIN_RECOVER at L3 (R363, R486): the reply, then the package reset, which takes in the recoveries in progress. -/
def execDomainRecoverL3 (ch : Fin 5) (pkt : List Byte) (s : State) : Host.Outcome State Fault Refusal :=
  .next (s.admCommand ch pkt (isRecover 3) (fun s b =>
    if !recoverZero b then s.refuse ch 0x0003
    else if par b 1 1 ≠ 0 ∨ par b 2 2 ≠ 0 ∨ par b 4 2 ≠ 0 then s.refuse ch 0x0005
    else (s.done ch []).l3Recovering))

-- timeouts (R464, R474, R477)

/-- FABRIC_TIMEOUT answers aimed at a cluster within the last 10 ms, the newest added. -/
def recentTimes (ts : List Nat) (now : Nat) : List Nat := ts.filter (fun t => decide (now < t + 17000000)) ++ [now]

/-- A request of a die's stop to a place timed out (R474): counted, and the fourth aimed at one cluster within 10 ms starts its L1 (R464). -/
def State.timedOut (s : State) (die : Nat) (aim : Place) : State :=
  let s := s.trackAbort die
  let s := { s with recov := { s.recov with timeouts := satInc32 s.recov.timeouts } }
  match aim with
  | .cluster c =>
    let ts := recentTimes (tabGet [] s.recov.clusterTimeouts c) s.ticks
    let four := decide (4 ≤ ts.length)
    let s := { s with recov := { s.recov with clusterTimeouts := tabSet s.recov.clusterTimeouts c (if four then [] else ts) } }
    if h : c < 192 then (if four && !s.clTaped c then s.deviceRun (.l1 ⟨c, h⟩) 0x8001 else s) else s
  | _ => s

/-- The read, or the write, of a DMA transaction times out; not while tension holds it (R454). -/
def State.dmaTimesOut (s : State) (k : CoreId) (dq tx : Nat) (onWrite : Bool) : State :=
  match (s.cl k.cl).ctx, findTx ((s.core k).dma dq) 0 tx with
  | some h, some (i, e, tx) =>
    (match e.sides (s.core k) tx, e.isDone tx || !(e.faultsOf tx).isEmpty with
     | some (a, b, _), false =>
       if !(s.txGate k h e tx a b).2 then s
       else (s.dmaFault k dq i 0x8001).timedOut (clDie k.cl) (s.placeOf h (if onWrite then b else a))
     | _, _ => s)
  | _, _ => s

/-- Tension holds what a COPY, FILL, KV_PUT or KV_GET is to issue (R454): no timeout runs for it. -/
def State.packetHeld (s : State) (p c : Nat) (r : PacketRun) : Bool :=
  if r.typ = 3 ∨ r.typ = 4 then !(s.copyGate p c r).2
  else !(s.kvTension p c (s.slot (handleSlot (pay r.bytes 0 8))).channel (pay r.bytes 8 8) (decide (r.typ = 0x0B))).2

/-- A transaction of a sequencer or an agent of the hub times out: its packet fails, and a program ends with it (R227, R392). The die of a
hub agent's entry is a free value. -/
def State.agentTimesOut (s : State) (q : QRef) : State :=
  let p := q.part.val; let c := q.ctx.val
  match (s.queue p c q.queue).cur with
  | none => s
  | some r =>
    let pool := s.agentPool p c (decide ((s.ctx p c).agentSource = 3))
    let (f, s) := s.fresh
    let die := if pool < 4 then pool else f % 4
    if r.typ = 1 ∨ r.typ = 2 then ((s.ctxLose p c 0x8001 (fun _ => true))).timedOut die .elsewhere
    else if hasNat [3, 4, 0x0B, 0x0C] r.typ && !r.waiting && !s.packetHeld p c r then
      (s.packetFail p c q.queue 0x8001).timedOut die .elsewhere
    else s

/-- FABRIC_TRANSACTION_TIMEOUT (R474): the requester ends the transaction, and its core, DMA entry or packet fails. -/
def execFabricTransactionTimeout (t : TimedReq) (s : State) : Host.Outcome State Fault Refusal :=
  match t with
  | .coreRead k =>
    (match (s.cl k.cl).ctx, (s.core k).wait with
     | some h, r :: _ =>
       .next (if r.faulted || !r.sent then s else (s.coreFault k 0x8001 r.pc).timedOut (clDie k.cl) (s.placeOf h r.addr))
     | _, _ => .next s)
  | .write id =>
    (match s.findWrite id with
     | some w =>
       .next (if w.faulted || !w.sent then s else (s.writeFails w 0x8001).timedOut (clDie w.k.cl) (s.writePlace w))
     | none => .next s)
  | .dma k dq tx => .next (s.dmaTimesOut k dq tx false)
  | .dmaWrite k dq tx => .next (s.dmaTimesOut k dq tx true)
  | .agent q => .next (s.agentTimesOut q)

/-- D2D_REPLAY_TIMEOUT (R477): the module leaves its edge; its flits go over another module of the edge, or their transactions end by
their own timeout. -/
def execD2dReplayTimeout (lm : Fin 24) (s : State) : Host.Outcome State Fault Refusal :=
  .next (if s.lmUp lm then s.linkLeaves lm else s)

-- hang detection (R479, R480)

/-- A core is excused from the progress watchdog (R479). -/
def State.excused (s : State) (h : HostCtx) (k : CoreSt) : Bool :=
  let x := s.ctx h.part h.ctx
  !x.resident || x.frozen || k.frozen || s.ctxBlocked h.part h.ctx ||
  (match k.wait with | r :: _ => r.faulted | [] => false) ||
  (match x.genr with | some g => g.ringWait | none => false)

/-- The sample of one core: its count of ms without progress starts again when it has halted, moved or is excused. One whose HALT waits for
its DMA queues has not halted yet (R59). -/
def State.sampleCore (s : State) (h : HostCtx) (k : CoreSt) : CoreSt :=
  let runs := decide (k.run = .running ∨ k.run = .halting)
  if !runs || k.issued ≠ k.sampleIssued || s.excused h k then { k with sampleIssued := k.issued, sampleMs := 0 }
  else { k with sampleMs := k.sampleMs + 1 }

/-- PROGRESS_SAMPLE (R479): a sequencer samples ISSUED of every core of its die's resident contexts, once per ms. -/
def execProgressSample (d : Fin 4) (s : State) : Host.Outcome State Fault Refusal :=
  let one (e : Nat × ClusterSt) : Nat × ClusterSt :=
    match e.2.ctx with
    | some h => if clDie e.1 = d then
        (e.1, { e.2 with cores := e.2.cores.map (fun (f : Nat × CoreSt) => (f.1, s.sampleCore h f.2)) }) else e
    | none => e
  .next { s with clusters := s.clusters.map one }

/-- WATCHDOG_EXPIRED (R479): a core of the context made no progress over WATCHDOG_MS; its running packet ends, and its clusters are
frozen and their state discarded. -/
def execWatchdogExpired (p : Fin 64) (c : Fin 256) (s : State) : Host.Outcome State Fault Refusal :=
  let cls := s.runClusters p c
  let late := cls.any (fun i => (s.cl i).cores.any (fun e => decide (s.recov.watchdogMs ≤ e.2.sampleMs) && decide (e.2.run = .running ∨ e.2.run = .halting)))
  .next (if !(s.ctx p c).resident ∨ !late then s
    else
      let s := { s with recov := { s.recov with watchdogCount := satInc32 s.recov.watchdogCount } }
      let s := s.runFail p c 0x8048 (fun _ => false)
      cls.foldl (fun s i => s.updCl i (fun k => { k with expired := some (p.val, c.val) })) s)

/-- CORE_HUNG (R480): a watchdog freeze of the cluster has not completed: it is posted, and L1 of the cluster starts. The record's DATA
is not stated: a free value. -/
def execCoreHung (cl : Fin 192) (s : State) : Host.Outcome State Fault Refusal :=
  match (s.cl cl).expired with
  | none => .next s
  | some (p, c) =>
    if s.clTaped cl then .next s
    else
      let s := s.updCl cl (fun k => { k with expired := none })
      match s.fresh with
      | (v, s) => .next ((s.notice p 0 0x8049 c (leBytes 14 v)).deviceRun (.l1 cl) 0x8049)

end Sys2Proof.Machine
end

