-- ==== Sys2Proof/Machine/Queries.lean ====
section
/-! DEFINITION. The queries of the admin channel: INVENTORY (R32-R36), IDENTIFY, STATUS, SENSORS_READ and LOG_READ (R369-R372). -/

namespace Sys2Proof.Machine

-- INVENTORY (R32-R35)

/-- STATE code of an entry (R26). -/
def EntryState.code : EntryState → Nat
  | .disabled => 0 | .free => 1 | .bound => 2 | .reserved => 3 | .retired => 4 | .stripping => 5

/-- OWNER_VALID of an entry for an asking channel (R34). -/
def State.ownerShown (s : State) (ch : Nat) (e : PoolEntry) : Bool :=
  (match e.state with | .bound | .stripping => true | .disabled | .free | .reserved | .retired => false)
    && (s.isPm ch || s.isOwner ch e.owner)

/-- A 16-bit entry of the record (R33). -/
def State.entryWord (s : State) (ch : Nat) (e : PoolEntry) : Nat :=
  e.state.code * 4096 + (if e.state = .retired then e.cause % 16 * 256 else 0)
    + (if s.ownerShown ch e then 128 + e.owner % 64 else 0)

/-- Entries of a kind in service. -/
def State.servingCount (s : State) (kind top : Nat) : Nat := ((natRange 0 top).filter (fun i => (s.entry kind i).inService)).length

/-- CLUSTERS_SHIPPED. -/
def State.shipped (s : State) : Nat := 192 - s.fuses.disabledClusters.length

/-- The entries of a kind as the record holds them. -/
def State.entryBytes (s : State) (ch kind top : Nat) : List Byte :=
  (natRange 0 top).flatMap (fun i => leBytes 2 (s.entryWord ch (s.entry kind i)))

/-- The inventory record (R32), as a channel receives it. -/
def State.inventoryRecord (s : State) (ch : Nat) : List Byte :=
  let edge (e : Nat) : Nat := ((natRange (6 * e) 6).filter (fun m => (s.lmEntry m).inService)).length
  leBytes 4 1 ++ leBytes 4 s.pool.sequence ++ leBytes 8 s.fuses.serial ++ leBytes 1 s.fuses.orderCode ++ leBytes 1 s.sites
    ++ leBytes 2 s.shipped ++ leBytes 2 (s.servingCount 1 192) ++ leBytes 2 (s.servingCount 2 320)
    ++ (natRange 0 4).flatMap (fun e => leBytes 1 (edge e)) ++ zeros 4 ++ s.entryBytes ch 1 192 ++ s.entryBytes ch 2 320
    ++ s.entryBytes ch 3 24

/-- INVENTORY (R32, R368). -/
def execInventory (ch : Fin 5) (pkt : List Byte) (s : State) : Host.Outcome State Fault Refusal :=
  .next (s.admCommand ch pkt (isOp 0x0002) (fun s b =>
    if !parZero b 0 8 then s.refuse ch 0x0003 else s.done ch (s.inventoryRecord ch)))

-- IDENTIFY (R369)

/-- The identity record. -/
def State.identityRecord (s : State) (ch : Nat) : List Byte :=
  let f := s.fw
  leBytes 4 1 ++ leBytes 2 0x4820 ++ leBytes 2 s.fuses.stepping ++ leBytes 8 s.fuses.serial ++ leBytes 1 s.fuses.orderCode
    ++ leBytes 1 s.sites ++ leBytes 1 ch ++ leBytes 1 (bnat (s.isPm ch)) ++ leBytes 2 s.shipped ++ leBytes 2 1
    ++ leBytes 8 (fwVersion (f.slot f.runSlot).image)
    ++ leBytes 4 (bnat s.prs.lock + 2 * s.prs.debugLevel + 16 * s.prs.pmPorts) ++ zeros 12

/-- IDENTIFY (R369). -/
def execIdentify (ch : Fin 5) (pkt : List Byte) (s : State) : Host.Outcome State Fault Refusal :=
  .next (s.admCommand ch pkt (isOp 0x0001) (fun s _ => s.done ch (s.identityRecord ch)))

-- STATUS (R370)

/-- DEV_FLAGS. -/
def State.devFlags (s : State) : Nat :=
  bnat s.power.capUnmet + 2 * bnat s.throttling + 4 * bnat s.faultLow + 8 * bnat s.sensorFault + 16 * bnat s.power.untrusted

/-- RECOVERING: the dies under an L2 that the device started. -/
def State.recoveringDies (s : State) : Nat :=
  (natRange 0 4).foldl (fun a d =>
    if s.recov.domains.any (fun r => domIsDie r.dom d && r.active && decide (r.origin = 2)) then a + 2 ^ d else a) 0

/-- BUSY_CHANNELS; a channel that does not exist has its bit clear. -/
def State.busyChannels (s : State) : Nat :=
  (natRange 0 5).foldl (fun a c => if (c == 4 || s.chanExists c) && s.admBusy c then a + 2 ^ c else a) 0

/-- The status record. -/
def State.statusRecord (s : State) : List Byte :=
  leBytes 2 s.devFlags ++ leBytes 1 s.recoveringDies ++ leBytes 1 s.busyChannels
    ++ leBytes 1 (s.parts.filter (fun e => e.2.present)).length ++ zeros 3 ++ leBytes 4 s.pool.sequence ++ zeros 4
    ++ leBytes 8 s.log.next ++ leBytes 8 s.hubCycles

/-- STATUS (R370). -/
def execStatus (ch : Fin 5) (pkt : List Byte) (s : State) : Host.Outcome State Fault Refusal :=
  .next (s.admCommand ch pkt (isOp 0x0003) (fun s _ => s.done ch s.statusRecord))

-- SENSORS_READ (R371, R530)

/-- A temperature record: a point without a reading has VALID 0, and its TEMP is a free value. -/
def State.tempRecord (s : State) (free n : Nat) : List Byte :=
  let valid := (s.reading n).isSome
  let v : Int := (s.reading n).getD (sext 16 (free % 65536))
  leBytes 2 (BitVec.ofInt 16 v).toNat
    ++ leBytes 2 (bnat valid + 2 * bnat (decide (6400 ≤ v)) + 4 * bnat (decide (7040 ≤ v)) + 8 * bnat (s.pointAbsent n))

/-- A rail record: before the first sample of a start VALID is 0, and the figures are a free value. -/
def State.railRecord (s : State) (free n : Nat) : List Byte :=
  match s.sensors.rails[n]? with
  | some r => leBytes 2 r.millivolts ++ leBytes 2 r.current ++ leBytes 2 r.power ++ leBytes 1 r.phasesOk
      ++ leBytes 1 (1 + 2 * bnat r.overcurrent)
  | none => leBytes 7 free ++ leBytes 1 0

/-- The record of point `n` of a class. -/
def State.sensorRecord (s : State) (cls free n : Nat) : List Byte :=
  if cls = 0 then s.tempRecord free n
  else if cls = 1 then s.railRecord free n
  else leBytes 4 (s.chan n).corrected ++ leBytes 4 (s.chan n).uncorrectable

/-- Points and the largest COUNT of a class. -/
def sensorClass : Nat → Option (Nat × Nat)
  | 0 => some (1076, 1016)
  | 1 => some (12, 508)
  | 2 => some (320, 320)
  | _ => none

/-- SENSORS_READ (R371). -/
def execSensorsRead (ch : Fin 5) (pkt : List Byte) (s : State) : Host.Outcome State Fault Refusal :=
  .next (s.admCommand ch pkt (isOp 0x0004) (fun s b =>
    let cls := par b 0 1
    let first := par b 2 2
    let n := par b 4 2
    if !parZero b 1 1 ∨ !parZero b 6 2 then s.refuse ch 0x0003
    else
      match sensorClass cls with
      | none => s.refuse ch 0x0005
      | some (points, most) =>
        if first + n > points ∨ n < 1 ∨ n > most then s.refuse ch 0x0005
        else
          let recs := (natRange 0 n).flatMap (fun i => s.sensorRecord cls (Config.freeNat (s.freeCtr + i)) (first + i))
          ({ s with freeCtr := s.freeCtr + n }).done ch
            (leBytes 8 s.sensors.rounds ++ leBytes 1 cls ++ zeros 1 ++ leBytes 2 first ++ leBytes 2 n ++ zeros 2 ++ recs)))

-- LOG_READ (R372)

/-- SEQ of a log entry. -/
def logSeqOf (e : List Byte) : Nat := fieldAt e 0 8

/-- OLDEST: of an empty ring it is NEXT. -/
def LogSt.oldest (g : LogSt) : Nat :=
  match g.ring with
  | [] => g.next
  | e :: _ => logSeqOf e

/-- A channel receives an entry (R372). -/
def State.logShown (s : State) (ch : Nat) (e : List Byte) : Bool :=
  ch == 4 || s.isPm ch || (let p := fieldAt e 0x10 1; p == 0xFF || s.isOwner ch p)

/-- LOG_READ (R372). -/
def execLogRead (ch : Fin 5) (pkt : List Byte) (s : State) : Host.Outcome State Fault Refusal :=
  .next (s.admCommand ch pkt (isOp 0x0005) (fun s b =>
    let n := par b 8 2
    if !parZero b 10 6 then s.refuse ch 0x0003
    else if n < 1 ∨ n > 63 then s.refuse ch 0x0005
    else
      let es := s.log.ring.filter (fun e => decide (par b 0 8 ≤ logSeqOf e) && s.logShown ch e)
      s.done ch (leBytes 8 s.log.oldest ++ leBytes 8 s.log.next ++ (es.take n).flatMap id)))

end Sys2Proof.Machine
end

