-- ==== Sys2Proof/Machine/Mgmt.lean ====
section
/-! DEFINITION. The management subsystem (R482, R496-R501): its watchdog, the interrupt controller, the event log's upkeep, and the fuse
controller. -/

namespace Sys2Proof.Machine

-- the watchdog (R482, R498, R507)

/-- The management firmware runs from admin-ready on. -/
def State.mgtRuns (s : State) : Bool := decide (s.phase = .ready)

/-- MGT_WATCHDOG_SERVICE (R482): the watchdog's count starts again; firmware that has taken over completes its activation (R507). -/
def execMgtWatchdogService (s : State) : Host.Outcome State Fault Refusal :=
  .next (if s.mgtRuns then { s.handoverDone with mgtWatch := s.ticks } else s)

/-- MGT_WATCHDOG_WARNING (R498 source 9): 200 ms without service. -/
def execMgtWatchdogWarning (s : State) : Host.Outcome State Fault Refusal :=
  .next (if s.mgtRuns then s.irqRaise 9 else s)

/-- MGT_WATCHDOG_EXPIRY (R482, R507): in an activation it is that activation's failure; during a recovery it starts L3; otherwise the
firmware restarts and no data path is withdrawn. -/
def execMgtWatchdogExpiry (s : State) : Host.Outcome State Fault Refusal :=
  .next (if !s.mgtRuns then s
    else if s.fw.handover.isSome then s.handoverFails
    else
      let s := s.logCondition 4 2 0x804A []
      if s.recovering then s.l3Recovering else { s with mgtWatch := s.ticks })

/-- MANAGEMENT_ERROR (R482): during a recovery it starts L3. -/
def execManagementError (s : State) : Host.Outcome State Fault Refusal :=
  .next (if s.mgtRuns ∧ s.recovering then s.l3Recovering else s)

-- the interrupt controller (R497, R498)

/-- MGT_IRQ_SOURCE_RAISE (R498): sources 20-63 never become pending. -/
def execMgtIrqSourceRaise (src : Fin 64) (s : State) : Host.Outcome State Fault Refusal :=
  .next (s.whileUp (fun s => s.irqRaise src))

/-- A core claims (R498): the lowest pending source of the class that targets it, or SPURIOUS. -/
def IrqSt.claim (q : IrqSt) (mc : Nat) (fast : Bool) : IrqSt :=
  match (natRange 0 64).find? (fun x => hasNat (q.pendingFor mc fast) x) with
  | none => { q with lastClaim := 0xFFFFFFFF }
  | some x => { q with pending := dropAll q.pending x, claimed := q.claimed ++ [(x, mc)], lastClaim := x }

/-- MGT_IRQ_CLAIM (R497): a read of MGT_IRQ_CLAIM by a management core. -/
def execMgtIrqClaim (core : Fin 4) (fast : Bool) (s : State) : Host.Outcome State Fault Refusal :=
  .next (s.whileUp (fun s => { s with irq := s.irq.claim core fast }))

/-- A completion (R498): of a claimed source of the bank's class; another is ignored. A source raised meanwhile is pending again. -/
def State.irqComplete (s : State) (fast : Bool) (src : Nat) : State :=
  let q := s.irq
  if !q.claimed.any (fun x => decide (x.1 = src)) ∨ (tabGet 0 q.cfg src).testBit 4 ≠ fast then s
  else
    let q := { q with claimed := q.claimed.filter (fun x => decide (x.1 ≠ src)) }
    if hasNat q.again src then ({ s with irq := { q with again := dropAll q.again src } }).irqRaise src else { s with irq := q }

/-- MGT_IRQ_COMPLETE (R497): bits [63:6] are written as zero, and the source is bits [5:0]. -/
def execMgtIrqComplete (_core : Fin 4) (fast : Bool) (v : BitVec 64) (s : State) : Host.Outcome State Fault Refusal :=
  .next (s.whileUp (fun s => s.irqComplete fast (v.toNat % 64)))

-- the management access window (R291)

/-- The pieces of a range between 4 KiB boundaries. -/
def pagePieces (addr n : Nat) : List (Nat × Nat) :=
  (natRange (addr / 4096) ((addr + n + 4095) / 4096 - addr / 4096)).map (fun q =>
    let lo := max addr (4096 * q)
    (lo, min (addr + n) (4096 * q + 4096) - lo))

/-- A range of host memory lies whole in an object that a partition registered at an HPA, or at a VA in its context. -/
def State.rangeHolds (s : State) (p c base size port addr n : Nat) : Bool :=
  decide ((s.part p).desc.ownerPort = port) &&
  if isHpa base then decide (base % 2 ^ 52 ≤ addr) && decide (addr + n ≤ base % 2 ^ 52 + size)
  else if isVa base then
    let x := s.ctx p c
    let va := base % 2 ^ 57
    (pagePieces addr n).all (fun r => (natRange (va / 4096) ((va + size + 4095) / 4096 - va / 4096)).any (fun q =>
      match s.walk p x.xs1 x.xg (4096 * q) true with
      | (_, .ok (hpa, _)) =>
        let at' := 4096 * q + r.1 % 4096
        decide (hpa / 4096 = r.1 / 4096) && decide (va ≤ at') && decide (at' + r.2 ≤ va + size)
      | (_, .error _) => false))
  else false

/-- A read of descriptors, or a write of event records, at addresses that a partition registered (R291). -/
def State.registered (s : State) (port addr n : Nat) (write : Bool) : Bool :=
  let h := s.port port
  let peq := h.peqEnable && decide (h.peqRing ≤ addr) && decide (addr + n ≤ h.peqRing + 32 * 2 ^ h.peqLog2)
  (write && peq) ||
  s.parts.any (fun e =>
    let d := e.2.desc
    e.2.present &&
    (if write then e.2.evqs.any (fun q => q.2.enabled && s.rangeHolds e.1 q.2.ctx q.2.ring (32 * q.2.entries) port addr n)
     else [d.controlQueue, d.eventQueue, d.faultQueue].any (fun a => isHpa a && s.rangeHolds e.1 0 a 64 port addr n)))

/-- A request of the management subsystem for `n` bytes reaches its target (R291), all of it. -/
def State.mgtAllowed (s : State) (t : MgtTarget) (n : Nat) (write : Bool) : Bool :=
  match t with
  | .sram a => decide (a + n ≤ 0x800000)
  | .log a => decide (a + n ≤ 0x200000)
  | .flash _ | .fuses _ | .sensor _ | .hub | .table | .control => true
  | .mgtChannel i off | .channelData i off => hasNat s.mgtServing i && (s.chanRefuses i).isNone && decide (off + n ≤ 256 * chanLocations)
  | .clusterData _ => false
  | .hostMemory port addr => s.registered port addr n write

/-- TARGET_KIND of a refusal's log entry, and its TARGET (R500 KIND 5, log entry 72). -/
def mgtBytes (t : MgtTarget) : List Byte :=
  let row (kind target : Nat) : List Byte := leBytes 1 kind ++ zeros 7 ++ leBytes 8 target
  match t with
  | .hub => row 0 0
  | .mgtChannel i off => row 1 (i * 2 ^ 32 + off)
  | .table => row 2 0
  | .control => row 3 0
  | .clusterData i => row 4 i
  | .channelData i off => row 5 (i * 2 ^ 32 + off)
  | .hostMemory p a => row 6 (p * 2 ^ 52 + a)
  | .sram a => row 7 a
  | .flash a => row 8 a
  | .log a => row 9 a
  | .fuses _ => row 10 0
  | .sensor i => row 11 i

/-- The fuses of a bank, lowest first, one bit each (R29, R496). -/
def State.fuseBits (s : State) : FuseBank → Nat
  | .retirement => s.fuses.retired.foldl (fun a r => setBit a (if r.1 = 1 then r.2.1 else if r.1 = 2 then 192 + r.2.1 else 512 + r.2.1) true) 0
  | .identityLeaf => s.fw.leafFuses
  | .antiRollback => 2 ^ s.fw.fusedSvn - 1

/-- A byte of the external flash (R502, R560), of which CS0_N holds the lower addresses: the boot area with the two copies of the boot record,
slots A and B, the log area, which is of the device's own format, and what is unused. -/
def State.flashByte (s : State) (f a : Nat) : Byte :=
  let w := s.fw
  if 0xFE0000 ≤ a ∧ a < 0xFE0010 then w.bootA.getD (a - 0xFE0000) 0#8
  else if 0xFF0000 ≤ a ∧ a < 0xFF0010 then w.bootB.getD (a - 0xFF0000) 0#8
  else if a < 0x1000000 then s.boot.bootArea.getD a 0#8
  else if a < 0x5000000 then w.slotA.image.getD (a - 0x1000000) 0#8
  else if a < 0x9000000 then w.slotB.image.getD (a - 0x5000000) 0#8
  else if a < 0xA000000 then (Config.ownFormat 4 f).getD (a - 0x9000000) 0#8
  else 0#8

/-- The bytes of a region of the flash after a write that may reach into it. -/
def flashPut (old : List Byte) (base size a : Nat) (bs : List Byte) : List Byte :=
  let lo := max a base
  match (bs.drop (lo - a)).take (base + size - lo) with
  | [] => old
  | d => patchAt old (lo - base) d

/-- A write of the external flash by the management subsystem (R291, R502). What it writes in the log area, whose format is the device's own,
and beyond, where nothing is kept, no rule reads (log entry 72). -/
def State.flashStore (s : State) (a : Nat) (bs : List Byte) : State :=
  let w := s.fw
  { s with boot := { s.boot with bootArea := flashPut s.boot.bootArea 0 0x1000000 a bs },
           fw := { w with bootA := flashPut w.bootA 0xFE0000 16 a bs, bootB := flashPut w.bootB 0xFF0000 16 a bs,
                          slotA := { w.slotA with image := flashPut w.slotA.image 0x1000000 0x4000000 a bs },
                          slotB := { w.slotB with image := flashPut w.slotB.image 0x5000000 0x4000000 a bs } } }

/-- The ring of the event log with bytes written into it, the oldest entry first. -/
def LogSt.ringPut (g : LogSt) (off : Nat) (bs : List Byte) : LogSt :=
  { g with ring := (natRange 0 g.ring.length).map (fun i => flashPut (g.ring.getD i []) (64 * i) 64 off bs) }

/-- An allowed read of `n` bytes: what the target holds; of a target whose layout the spec does not give, free bytes (log entry 72). -/
def State.mgtRead (s : State) (t : MgtTarget) (n : Nat) : State :=
  match t with
  | .sram a => { s with mgtData := memRead s.mgtSram a n }
  | .flash a => match s.fresh with | (f, s) => { s with mgtData := (natRange a n).map (fun i => s.flashByte f i) }
  | .log a => { s with mgtData := padTo n (s.log.ring.flatten.drop a) }
  | .fuses b => { s with mgtData := leBytes n (s.fuseBits b) }
  | .sensor i => match s.fresh with | (f, s) => { s with mgtData := padTo n (s.tempRecord f i) }
  | .mgtChannel i off | .channelData i off => { s with mgtData := memRead (s.chan i).mem off n }
  | .hostMemory port a => { s with mgtData := memRead (s.port port).mem a n }
  | .hub | .control | .clusterData _ => match s.fresh with | (f, s) => { s with mgtData := padTo n (Config.mgtRead f n) }
  | .table => { s with mgtData := [] }

/-- An allowed write: memory and flash take it. A fuse is blown only as R496 says, a sensor measures, a table changes only by the commands
that govern it, and what registers of no given layout hold is left (log entry 72). -/
def State.mgtStore (s : State) (t : MgtTarget) (bs : List Byte) : State :=
  match t with
  | .sram a => { s with mgtSram := memWrite s.mgtSram a bs }
  | .flash a => s.flashStore a bs
  | .log a => { s with log := s.log.ringPut a bs }
  | .mgtChannel i off | .channelData i off => s.writeLoc (.chan i off) bs [] false
  | .hostMemory port a => s.writeLoc (.host port a) bs [] false
  | .fuses _ | .sensor _ | .hub | .table | .control | .clusterData _ => s

/-- How many bytes a request is for. -/
def mgtLen : MgtAccess → Nat
  | .read n => n
  | .write bs => bs.length

/-- The instances that a management request crosses (R444, R446). -/
def State.mgtCrossings (s : State) : MgtTarget → Bool → List Crossing
  | .mgtChannel i off, w | .channelData i off, w => s.crossings 0 0 .hub (.chan i off) w
  | .hostMemory port a, w => s.crossings 0 0 .hub (.host port a) w
  | _, _ => []

/-- A request is served where the window admits it; a refused one returns zero data, and hardware logs it (R291). -/
def State.mgtRequest (s : State) (t : MgtTarget) (a : MgtAccess) : State :=
  if s.mgtAllowed t (mgtLen a) a.isWrite then
    (match a with | .write bs => s.mgtStore t bs | .read n => s.mgtRead t n).servedMgt (s.mgtCrossings t a.isWrite) (mgtLen a)
  else ({ s with mgtRefused := s.mgtRefused + 1, mgtData := match a with | .write _ => s.mgtData | .read n => zeros n }).logEntry 4 2 0 0xFF
    5 (mgtBytes t)

/-- MGT_REQUEST (R291): the management subsystem runs only while the hub does (R554). -/
def execMgtRequest (t : MgtTarget) (a : MgtAccess) (s : State) : Host.Outcome State Fault Refusal :=
  .next (s.whileUp (fun s => s.mgtRequest t a))

-- the event log (R501)

/-- LOG_SECOND_END (R501): the entries not accepted in the second are counted in one SUPPRESSED entry. -/
def execLogSecondEnd (s : State) : Host.Outcome State Fault Refusal :=
  .next (s.whileUp (fun s =>
    let n := s.log.suppressed
    let s := { s with log := { s.log with second := 0, suppressed := 0 } }
    if n = 0 then s else s.logEntry 4 1 0 0xFF 6 (leBytes 4 n)))

/-- The ring is copied to the log area, which holds 262,144 entries, with the reserved SEQ (R501). -/
def LogSt.copied (g : LogSt) : LogSt :=
  let all := g.flash ++ g.ring.drop (g.ring.length - g.uncopied)
  { g with flash := all.drop (all.length - 262144), reserved := g.next + 32768, uncopied := 0 }

/-- LOG_FLASH_COPY (R501); the xSPI controller reports the operation done (R498). -/
def execLogFlashCopy (s : State) : Host.Outcome State Fault Refusal :=
  .next (s.whileUp (fun s => ({ s with log := s.log.copied }).irqRaise 12))

-- the fuse controller (R29, R496)

/-- The first unit whose retirement fuse is being blown: it has left service, and its strip, if it had one, is over. -/
def State.retireReady (s : State) : Option (Nat × Nat × Nat) :=
  s.recov.retiring.find? (fun r => let e := s.entry r.1 r.2.1; decide (e.state ≠ .stripping) || e.stripped)

/-- A retirement fuse reads blown (R29, R493): the unit is RETIRED, and its command, if one waits, replies. -/
def State.retireDone (s : State) : State :=
  match s.retireReady with
  | none => s
  | some r =>
    let left := s.recov.retiring.filter (fun x => decide (x ≠ r))
    let e := s.entry r.1 r.2.1
    let s := { s with recov := { s.recov with retiring := left } }
    let s := if e.state = .retired then s else (s.blowRetire r.1 r.2.1 e.retireAs).retireEntry r.1 r.2.1 e.retireAs
    if r.2.2 < 5 then s.done r.2.2 [] else s

end Sys2Proof.Machine
end

