-- ==== Sys2Proof/Machine/Migrate.lean ====
section
/-! DEFINITION. Moving a partition as a sealed image (R439-R443). Sections 1 to 3 of an image are in the device's own format: what they
hold is a `PartImage`, and the packing is a free function of Config. -/

namespace Sys2Proof.Machine

/-- The shape of a VD: N, OWN_CLUSTERS, and the rank of its parent (0 for the root), by ascending node index (R442). -/
structure VdShape where
  n : Nat
  own : Nat
  parent : Nat
  deriving DecidableEq, Repr

/-- What sections 1 to 3 of an image hold (R441): the partition, the contexts with their VDs by rank, and the frozen resident contexts:
context, clusters in virtual order, writes that wait. -/
structure PartImage where
  ctxMax : Nat
  caps : List Nat
  slowdown : Nat
  vds : List VdShape
  map : List (Nat × Nat × Nat)
  dir : Option DirSt
  gens : Tab Nat
  zeroing : Tab Nat
  ctxs : Tab CtxSt
  evqs : Tab EvqSt
  runnable : List Nat
  startOrder : Nat
  resident : List (Nat × List ClusterSt × List FabWrite)
  deriving DecidableEq, Repr

end Sys2Proof.Machine

namespace Sys2Proof.Config

/-- Sections 1, 2 and 3 of an image, headers apart, in the device's own format (R441). -/
opaque packSection : Nat → Machine.PartImage → List Byte
/-- What those sections hold, where the running firmware can read them (R442). -/
opaque unpackSections : List Byte → List Byte → List Byte → Option Machine.PartImage

end Sys2Proof.Config

namespace Sys2Proof.Machine

-- shapes

/-- VD nodes in ascending node index. -/
def Pattern.ranked (pat : Pattern) : List Nat := (natRange 1 4095).filter (fun n => pat.isVd n)

/-- The shapes of a pattern's VDs. -/
def Pattern.shapes (pat : Pattern) : List VdShape :=
  pat.ranked.map (fun n =>
    let v := (pat.vd n).getD { node := n }
    { n := pat.size n, own := v.clusters.length, parent := if v.parent = 0 then 0 else indexIn pat.ranked v.parent + 1 })

/-- The PLA map: base, channels of the group, length of a vacant range. -/
def Pattern.mapShape (pat : Pattern) : List (Nat × Nat × Nat) := pat.map.map (fun i => (i.base, i.chans.length, i.vacLen))

/-- The image of a partition. -/
def State.partImage (s : State) (p : Nat) : PartImage :=
  let x := s.part p
  let d := x.desc
  let rank (c : CtxSt) : CtxSt := { c with vd := indexIn x.pat.ranked c.vd }
  { ctxMax := d.ctxMax, caps := [d.clusterCap, d.channelCap, d.linkCap], slowdown := d.slowdown, vds := x.pat.shapes,
    map := x.pat.mapShape, dir := x.dir, gens := x.gens, zeroing := x.zeroing,
    ctxs := (x.ctxs.filter (fun e => decide (e.2.state ≠ 0))).map (fun e => (e.1, rank e.2)),
    evqs := x.evqs.filter (fun e => decide (2 ≤ e.1)), runnable := x.runnable, startOrder := x.startOrder,
    resident := (x.ctxs.filter (fun e => e.2.resident)).map (fun e =>
      (e.1, e.2.residentVd.map (fun i => s.cl i), s.takeWrites e.2.residentVd)) }

/-- The PLA bytes of a partition outside vacant ranges, in PLA order. -/
def State.plaBytes (s : State) (p : Nat) : List Byte :=
  (s.part p).pat.map.flatMap (fun i => if i.chans.isEmpty then [] else s.plaRead p i.base i.len)

/-- The same bytes are read out of the host's caches first (R322). -/
def State.imageSync (s : State) (p : Nat) : State :=
  (s.part p).pat.map.foldl (fun s i => if i.chans.isEmpty then s else s.plaSync p i.base i.len) s

/-- A section with its header. -/
def section_ (kind : Nat) (bs : List Byte) : List Byte := leBytes 4 kind ++ leBytes 8 bs.length ++ zeros 4 ++ bs

/-- The plaintext of an image (R441). -/
def State.imagePlain (s : State) (p : Nat) : List Byte :=
  let i := s.partImage p
  [1, 2, 3].flatMap (fun k => section_ k (Config.packSection k i)) ++ section_ 4 (s.plaBytes p)

/-- Bytes of a chunk. -/
def chunkLen : Nat := 67108864
/-- Chunks of a plaintext. -/
def chunksOf (n : Nat) : Nat := ceilDiv n chunkLen
/-- Bytes of an image. -/
def imageLen (plain : Nat) : Nat := 0x680 + plain + 16 * chunksOf plain
/-- The nonce of a chunk. -/
def chunkNonce (i : Nat) : List Byte := leBytes 8 i ++ zeros 4

/-- The body of an image: each chunk's ciphertext, then its tag (R441). -/
def sealBody (key aad plain : List Byte) : List Byte :=
  (natRange 0 (chunksOf plain.length)).flatMap (fun i =>
    let c := gcmXor key (chunkNonce i) ((plain.drop (chunkLen * i)).take chunkLen)
    c ++ padTo 16 (Config.gcmTag key (chunkNonce i) aad c))

-- receipts (R439, R440)

/-- A receipt is valid for sealing (R440, R518). -/
def receiptOk (r : List Byte) : Bool :=
  let rep := r.drop 0x660
  fieldAt r 0 4 == 0x50434552 && decide (fieldAt r 4 4 ≤ r.length)
    && reportVerifies rep && fieldAt rep 0x0C 2 == 0x4820 && fieldAt rep 0x168 1 % 4 != 2
    && (rep.drop 0x30).take 32 == sha256 ((r.drop 0x20).take 32 ++ (r.drop 0x40).take 1568)

/-- Refuse with what an agent's access met. -/
def State.refuseAcc (s : State) (ch : Nat) : AccErr → State
  | .code c => s.refuse ch c
  | .xlate e => s.refuse ch e.code

-- PART_SAVE (R440)

/-- PART_SAVE with SIZE_ONLY (R440). -/
def execPartSaveSizeOnly (ch : Fin 5) (pkt : List Byte) (s : State) : Host.Outcome State Fault Refusal :=
  .next (s.admCommand ch pkt (fun b => isOp 0x0107 b && (par b 0 1).testBit 0) (fun s b =>
    if par b 0 1 > 1 ∨ !parZero b 1 7 ∨ !parZero b 0x24 4 then s.refuse ch 0x0003
    else s.done ch (leBytes 8 (imageLen (s.imagePlain (pktTarget b)).length))))

/-- The header of an image (R441), which is the additional data of every chunk. -/
def State.imageHeader (s : State) (p : Nat) (receipt ct : List Byte) (plain : Nat) : List Byte :=
  leBytes 4 0x474D494D ++ leBytes 4 1 ++ leBytes 8 (imageLen plain) ++ leBytes 8 s.fuses.serial ++ leBytes 1 p
    ++ leBytes 1 (fieldAt receipt 0x10 1) ++ zeros 6 ++ padTo 32 ((receipt.drop 0x20).take 32) ++ padTo 1568 ct ++ leBytes 8 plain
    ++ leBytes 4 (chunksOf plain) ++ zeros 20

/-- PART_SAVE (R440, R441). -/
def execPartSave (ch : Fin 5) (pkt : List Byte) (s : State) : Host.Outcome State Fault Refusal :=
  .next (s.admCommand ch pkt (fun b => isOp 0x0107 b && !(par b 0 1).testBit 0) (fun s b =>
    let p := pktTarget b
    let dest := par b 8 8
    let rcpt := par b 0x18 8
    if par b 0 1 > 1 ∨ !parZero b 1 7 ∨ !parZero b 0x24 4 then s.refuse ch 0x0003
    else if (s.part p).pstate ≠ .frozen then s.refuse ch 0x0104
    else if !isHpa dest ∨ dest % 256 ≠ 0 ∨ !isHpa rcpt then s.refuse ch 0x0005
    else
      match s.agentRead p 0 rcpt (par b 0x20 4) true (some 0) with
      | (s, .error e) => s.refuseAcc ch e
      | (s, .ok (r, poison)) =>
        let s := s.imageSync p
        let plain := s.imagePlain p
        if poison ∨ !receiptOk r then s.refuse ch 0x0121
        else if par b 0x10 8 < imageLen plain.length then s.refuse ch 0x0123
        else
          let ek := (r.drop 0x40).take 1568
          let k := s.freeCtr
          let s := { s with freeCtr := k + 1 }
          let head := s.imageHeader p r (Config.kemCipher ek k) plain.length
          match s.agentWrite p 0 dest (head ++ sealBody (padTo 32 (Config.kemSecret ek k)) head plain) false true (some 0) with
          | (s, .error e) => s.refuseAcc ch e
          | (s, .ok _) => s.done ch (leBytes 8 (imageLen plain.length))))

-- PART_RESTORE (R439, R442)

/-- The checks that come before an operation's own: XLATE_G first (R439). -/
def restoreCode (b : List Byte) : Option Nat :=
  let g := par b 0x18 8
  if g ≠ 0 ∧ !xlateOk 0 g then some 0x0801
  else if !parZero b 1 7 then some 0x0003
  else if !isHpa (par b 8 8) ∨ par b 8 8 % 256 ≠ 0 then some 0x0005
  else none

/-- PART_RESTORE with PREPARE (R439, R515): a new migration session, and its receipt at ADDR. -/
def execPartRestorePrepare (ch : Fin 5) (pkt : List Byte) (s : State) : Host.Outcome State Fault Refusal :=
  .next (s.admCommand ch pkt (fun b => isOp 0x0108 b && par b 0 1 == 1) (fun s b =>
    let p := pktTarget b
    let len := 0x660 + reportLen
    match restoreCode b with
    | some c => s.refuse ch c
    | none =>
      if par b 0x10 8 < len then s.refuse ch 0x0123
      else
        match s.leafCode with
        | some c => s.refuse ch c
        | none =>
          let k := s.freeCtr
          let id := padTo 32 (Config.entropy k 32)
          let ek := padTo 1568 (Config.kemKey k)
          match ({ s with freeCtr := k + 1 }).takeReport p (sha256 (id ++ ek)) with
          | (s, r) =>
            let s := s.updPart p (fun x => { x with mig := some { rcId := id, key := k } })
            let rc := leBytes 4 0x50434552 ++ leBytes 4 len ++ leBytes 8 s.fuses.serial ++ leBytes 1 p ++ zeros 15 ++ id ++ ek ++ r
            match s.agentWrite p 0 (par b 8 8) rc false true (some 0) with
            | (s, .error e) => s.refuseAcc ch e
            | (s, .ok _) => s.done ch (leBytes 4 len ++ zeros 4)))

/-- A chunk of a body: ciphertext and tag. -/
def chunkAt (img : List Byte) (plain i : Nat) : List Byte × List Byte :=
  let n := min chunkLen (plain - chunkLen * i)
  let c := (img.drop (0x680 + (chunkLen + 16) * i)).take n
  (c, (img.drop (0x680 + (chunkLen + 16) * i + n)).take 16)

/-- A chunk's tag matches. -/
def chunkOk (key img : List Byte) (plain i : Nat) : Bool :=
  let c := chunkAt img plain i
  padTo 16 (Config.gcmTag key (chunkNonce i) (img.take 0x680) c.1) == c.2

/-- The plaintext of a body. -/
def openBody (key img : List Byte) (plain : Nat) : List Byte :=
  (natRange 0 (chunksOf plain)).flatMap (fun i => gcmXor key (chunkNonce i) (chunkAt img plain i).1)

/-- The contents of the four sections of a plaintext. -/
def sectionsOf (bs : List Byte) : List (List Byte) :=
  let cut (o : Nat) : List Byte × Nat := let n := fieldAt bs (o + 4) 8; ((bs.drop (o + 16)).take n, o + 16 + n)
  let a := cut 0
  let b := cut a.2
  let c := cut b.2
  let d := cut c.2
  [a.1, b.1, c.1, d.1]

/-- The offset of section 4's bytes in a plaintext. -/
def plaOffset (secs : List (List Byte)) : Nat := ((secs.take 3).map (fun x => x.length + 16)).foldl (· + ·) 16

/-- Write bytes over the PLA space outside vacant ranges, in PLA order. -/
def plaFill (p : Nat) : List PlaItem → List Byte → State → State
  | [], _, s => s
  | i :: t, bs, s =>
    if i.chans.isEmpty then plaFill p t bs s
    else plaFill p t (bs.drop i.len) (s.plaWrite p i.base (bs.take i.len))

/-- The target has the image's shape (R442 step 4). -/
def State.shapeOk (s : State) (p : Nat) (i : PartImage) : Bool :=
  let x := s.part p
  decide (i.ctxMax ≤ x.desc.ctxMax) && i.vds == x.pat.shapes && i.map == x.pat.mapShape

/-- A cluster as an image holds it, its memories in their canonical form. -/
def ClusterSt.loaded (c : ClusterSt) : ClusterSt :=
  { c with cmem := memCanon c.cmem, cores := c.cores.map (fun e => (e.1, { e.2 with scratch := memCanon e.2.scratch })) }

/-- A context of an image becomes LIVE in the target (R442 step 6, R443). -/
def State.ctxLoaded (s : State) (p : Nat) (g : Nat) (c : CtxSt) : CtxSt :=
  let nodes := (s.part p).pat.ranked
  { c with vd := nodes.getD c.vd 0, xg := if g = 0 then c.xg else g, faultWait := false, resident := false, residentVd := [],
           savedCls := c.savedCls.map ClusterSt.loaded }

/-- A resident context of an image takes the clusters of its VD, frozen. -/
def State.placeLoaded (s : State) (p : Nat) (e : Nat × List ClusterSt × List FabWrite) : State :=
  let cls := s.vdOf p e.1
  match (s.ctx p e.1).running with
  | none => s
  | some (q, r) =>
    let s := s.placeAll p e.1 q r (e.2.1.map ClusterSt.loaded) cls
    let s := s.reissueWrites p cls e.2.2
    let hold (w : FabWrite) : FabWrite := if hasNat cls w.k.cl then { w with faulted := true } else w
    ({ s with writes := s.writes.map hold }).updCtx p e.1 (fun x => { x with resident := true, residentVd := cls, frozen := true })

/-- Packets of an image that name what it does not carry fail (R443): a KV slot, a session. -/
def State.dropForeign (s : State) (p : Nat) : State :=
  (s.inProgress.filter (fun e => decide (e.1 = p))).foldl (fun s e =>
    let r := e.2.2.2
    if r.typ = 0x0B ∨ r.typ = 0x0C then s.packetFail p e.2.1 e.2.2.1 0x0602
    else if r.typ = 3 ∧ copyFlags r.bytes / 2 ≠ 0 then s.packetFail p e.2.1 e.2.2.1 0x0121
    else s) s

/-- Step 6 of R442: the contexts, queues and statistics of the image. No fault batch comes with it, so a switched-out context that waited for
one is runnable (R443). -/
def State.loadImageOf (s : State) (p g : Nat) (i : PartImage) : State :=
  let own := (s.part p).evqs.filter (fun e => decide (e.1 < 2))
  let ctxs := i.ctxs.map (fun e => (e.1, s.ctxLoaded p g e.2))
  let s := s.updPart p (fun x =>
    { x with pstate := .frozen, dir := i.dir, gens := i.gens, zeroing := i.zeroing, ctxs := ctxs, evqs := own ++ i.evqs,
             runnable := i.runnable, startOrder := i.startOrder })
  let s := (i.resident.foldl (fun s e => s.placeLoaded p e) s).dropForeign p
  i.ctxs.foldl (fun s e => s.wake p e.1) s

/-- The first chunk after chunk 0 whose tag does not match. -/
def badChunk (key img : List Byte) (plain : Nat) : Option Nat :=
  (natRange 1 (chunksOf plain - 1)).find? (fun i => !chunkOk key img plain i)

/-- PART_RESTORE with LOAD (R442, R443). -/
def execPartRestoreLoad (ch : Fin 5) (pkt : List Byte) (s : State) : Host.Outcome State Fault Refusal :=
  .next (s.admCommand ch pkt (fun b => isOp 0x0108 b && par b 0 1 == 2) (fun s b =>
    let p := pktTarget b
    let m := (s.part p).mig
    let s := s.updPart p (fun x => { x with mig := none })
    match restoreCode b with
    | some c => s.refuse ch c
    | none =>
      let x := s.part p
      if x.pstate ≠ .enabled ∨ x.dir.isSome ∨ x.ctxs.any (fun e => decide (e.2.state ≠ 0)) then s.refuse ch 0x0104
      else
        match s.agentRead p 0 (par b 8 8) 0x680 true (some 0) with
        | (s, .error e) => s.refuseAcc ch e
        | (s, .ok (h, _)) =>
          match (match m with | some m => if (h.drop 0x20).take 32 = m.rcId then some m.key else none | none => none) with
          | none => s.refuse ch 0x0121
          | some k =>
            if fieldAt h 0 4 ≠ 0x474D494D ∨ fieldAt h 0x19 1 ≠ p ∨ par b 0x10 8 < fieldAt h 8 8 then s.refuse ch 0x0123
            else
              match s.agentRead p 0 (par b 8 8) (fieldAt h 8 8) true (some 0) with
              | (s, .error e) => s.refuseAcc ch e
              | (s, .ok (img, _)) =>
                let plain := fieldAt h 0x660 8
                let key := padTo 32 (Config.kemOpen k ((h.drop 0x40).take 1568))
                let secs := sectionsOf (openBody key img plain)
                let sec (j : Nat) : List Byte := secs.getD j []
                if fieldAt h 4 4 ≠ 1 ∨ !chunkOk key img plain 0 then s.refuse ch 0x020B
                else
                  match Config.unpackSections (sec 0) (sec 1) (sec 2) with
                  | none => s.refuse ch 0x020B
                  | some i =>
                    if !s.shapeOk p i then s.refuse ch 0x020B
                    else
                      match badChunk key img plain with
                      | some j =>
                        let n := min (sec 3).length ((j + 1) * chunkLen - plaOffset secs)
                        (plaFill p x.pat.map (zeros n) s).refuse ch 0x8103
                      | none =>
                        let s := (plaFill p x.pat.map (sec 3) s).loadImageOf p (par b 0x18 8) i
                        let (f, s) := s.fresh
                        s.done ch (leBytes 4 f ++ zeros 4)))

end Sys2Proof.Machine
end

