-- ==== Sys2Proof/Machine/Package.lean ====
section
/-! DEFINITION. The package (R524, R537, R547-R564): the lock of the protection set-up (R287) and the start-up steps that follow it, link
training, the 36 V input, RST_N, clocks, and the events that stop or restart the part. -/

namespace Sys2Proof.Machine

-- the lock check (R285-R287)

/-- The 18 channel entries of the set-up: PRS_KV_CHAN0-15 and PRS_MGT_CHAN0-1. -/
def PrsSt.chanEntries (r : PrsSt) : List Nat := (natRange 0 18).map (fun i => fieldAt r.regs (0x20 + 2 * i) 2)

/-- The first check of R287: reserved fields, DEBUG_LEVEL, ceilings, and the CHANNEL of valid entries. -/
def PrsSt.fieldsOk (r : PrsSt) : Bool :=
  fieldAt r.regs 0 2 / 2 == 0 && decide (fieldAt r.regs 4 4 < 16) && decide (fieldAt r.regs 8 4 < 3) && decide (fieldAt r.regs 0x0C 4 < 2)
    && (natRange 0 4).all (fun p =>
      let v := fieldAt r.regs (0x10 + 4 * p) 4
      bitsAt v 31 29 == 0 && bitsAt v 23 17 == 0 && decide (bitsAt v 28 24 ≤ 24) && decide (bitsAt v 16 8 ≤ 320) && decide (bitsAt v 7 0 ≤ 192))
    && r.chanEntries.all (fun e => bitsAt e 14 9 == 0 && (!e.testBit 15 || decide (e % 512 < 320)))
    && decide (fieldAt r.regs 0x44 4 < 4) && zeroAt r.regs 0x50 48

/-- The lock check in table order: the code of the first check that fails (R287). -/
def State.lockCode (s : State) : Option Nat :=
  let r := s.prs
  let named := r.kvChans ++ r.mgtChans
  if !r.fieldsOk then some 0x0112
  else if r.pmPorts = 0 ∨ (natRange 0 4).any (fun p => r.pmPorts.testBit p && !s.sites.testBit p) then some 0x0110
  else if !decide named.Nodup then some 0x0111
  else none

/-- PRS_LOCK after a check: REASON holds its code, or LOCK reads 1 and REASON 0. -/
def PrsSt.checked (r : PrsSt) : Option Nat → PrsSt
  | some code => { r with regs := patchAt r.regs 2 (leBytes 2 code) }
  | none => { r with regs := patchAt r.regs 0 (leBytes 4 1) }

-- the end of a start (R36, R290, R361 steps 7 to 10)

/-- The inventory as start-up leaves it (R29, R36, R290). Every link module not retired is FREE; a unit whose retirement fuse is still being
blown is out of service. -/
def State.filledPool (s : State) : PoolSt :=
  let f := s.fuses
  let fill (kind top : Nat) (off : List Nat) (set : List Nat) : Tab PoolEntry :=
    (natRange 0 top).filterMap (fun i =>
      if hasNat off i then some (i, { state := .disabled })
      else
        match f.retired.find? (fun r => decide (r.1 = kind ∧ r.2.1 = i)) with
        | some r => some (i, { state := .retired, cause := r.2.2 })
        | none =>
          let e : PoolEntry := { state := if hasNat set i then .reserved else .free, retireAs := (s.entry kind i).retireAs }
          if e = {} then none else some (i, e))
  { clusters := fill 1 192 f.disabledClusters [], channels := fill 2 320 f.disabledChannels (s.prs.kvChans ++ s.prs.mgtChans),
    links := fill 3 24 f.disabledLinks [], sequence := 1 }

/-- A slot passes the check of a package start (R510). -/
def FwSt.slotBoots (f : FwSt) (i : Nat) : Bool := fwValid (f.slot i).image && decide (f.fusedSvn ≤ fwSvn (f.slot i).image)

/-- A slot becomes the ACTIVE one, and every sequencer is loaded from it (R508, R510). -/
def FwSt.bootFrom (f : FwSt) (i : Nat) (otherState : Nat) : FwSt :=
  let f := f.setSlot i { f.slot i with state := 3 }
  let f := f.setSlot (1 - i) { f.slot (1 - i) with state := otherState }
  (natRange 0 4).foldl (fun f d => f.loadSeq d) f

/-- The firmware of a slot runs, and MEAS takes the digests (R510, R517). -/
def State.bootFrom (s : State) (i otherState : Nat) : State := ({ s with fw := s.fw.bootFrom i otherState }).loadFirmware i

/-- Step 9 of R561: every entry in service is stripped. -/
def State.stripAll (s : State) : State :=
  { s with clusters := s.clusters.map (fun (e : Nat × ClusterSt) => (e.1, if (s.clEntry e.1).inService then e.2.strip else e.2)),
           channels := s.channels.map (fun (e : Nat × ChannelSt) => (e.1, if (s.chEntry e.1).inService then e.2.strip else e.2)) }

/-- The inventory is filled, what is in service is stripped, and the part is admin-ready (R561 steps 8 to 10, R563, R484, R36). -/
def State.becomeReady (s : State) : State :=
  let s := ({ s with pool := s.filledPool }).stripAll
  { s with phase := .ready, faultHold := false, mgtWatch := s.ticks,
           recov := { s.recov with failedStarts := 0 }, bc := { s.bc with hotJoin := true } }

/-- Step 7 of R561 and what follows it (R510): the slot that the boot record names, else the other, else neither. -/
def State.bootFirmware (s : State) : State :=
  let f := s.fw
  let n := f.bootSlot
  let other := (f.slot (1 - n)).state
  if f.slotBoots n then (s.bootFrom n (if other = 3 then 4 else other)).becomeReady
  else if f.slotBoots (1 - n) then
    ((s.bootFrom (1 - n) 5).logFirmware 0 (1 - n) 0).becomeReady
  else { s with phase := .stuck }

-- the identity stage (R513, R514)

/-- The lowest unblown identity leaf from `q` on. -/
def FwSt.leafFrom (f : FwSt) (q : Nat) : Option Nat := (natRange q (4096 - q)).find? (fun i => !f.leafFuses.testBit i)

/-- An identity entry of the log (R500 KIND 7). -/
def State.logIdentity (s : State) (leaf result code : Nat) : State :=
  s.logEntry 4 (if code = 0 then 0 else 2) code 0xFF 7 (leBytes 4 leaf ++ leBytes 1 result)

/-- The identity stage begins: the blow of the lowest unblown leaf, whose end FUSE_OPERATION_DONE reports; with none the boot has no
identity. -/
def State.identityStart (s : State) : State :=
  match s.fw.leafFrom 0 with
  | some q => { s with phase := .identity, fw := { s.fw with leafTry := some (q, 1) } }
  | none => (s.logIdentity 0 2 0).bootFirmware

/-- A blow of the identity stage has been read back (R513 step 2): a leaf that reads blown signs the boot's lower tree. After three failures
the boot has no identity. The next leaf tried is the next one that reads unblown (R514). -/
def State.identityBlow (s : State) (q tries : Nat) (ok : Bool) : State :=
  if ok then
    let fw : FwSt := { s.fw with leafFuses := setBit s.fw.leafFuses q true, leafTry := none }
    (({ s with fw := fw.lowerTree s.fuses.topSeed q s.freeCtr, freeCtr := s.freeCtr + 2 }).logIdentity q 0 0).bootFirmware
  else
    match (if tries < 3 then s.fw.leafFrom (q + 1) else none) with
    | some r => { s with fw := { s.fw with leafTry := some (r, tries + 1) } }
    | none => (({ s with fw := { s.fw with leafTry := none } }).logIdentity q 1 0x8703).bootFirmware

/-- PRS_LOCK (R287-R290): a write of PRS_LOCK by the first-stage boot code. Writing 1 to LOCK runs the check; a lock
reserves the channels that the set-up names (R290) and starts step 6. -/
def State.prsLockWrite (s : State) (v : Nat) : State :=
  if s.phase ≠ .bootCode ∨ s.prs.lock ∨ !v.testBit 0 then s
  else
    let code := s.lockCode
    let s := { s with prs := s.prs.checked code }
    if code.isNone then ({ s with pool := s.filledPool }).identityStart else s

/-- PRS_LOCK (R287). -/
def execPrsLock (v : BitVec 32) (s : State) : Host.Outcome State Fault Refusal := .next (s.prsLockWrite v.toNat)

/-- FUSE_OPERATION_DONE (R496): a blow has been read back. Only one that reads blown is relied on; another is tried again. The identity
leaf's comes first (log entry 46). -/
def execFuseOperationDone (ok : Bool) (s : State) : Host.Outcome State Fault Refusal :=
  .next (s.whileUp (fun s =>
    let s := s.irqRaise 13
    match s.phase, s.fw.leafTry with
    | .identity, some (q, tries) => s.identityBlow q tries ok
    | _, _ => if !ok then s else if s.fw.svnCh.isSome then s.svnDone else s.retireDone))

-- link training (R309, R477, R561 step 8)

/-- A start is past its third step, or the part runs. -/
def State.linksTrain (s : State) : Bool := s.bcUp

/-- A die is in step 4 of an L2 (R471). -/
def State.dieRetrains (s : State) (die : Nat) : Bool :=
  s.recov.domains.any (fun r => domIsDie r.dom die && decide (r.step = 4))

/-- A die-to-die module fails its training: it is retired with CAUSE 3 (R28, R477). -/
def State.linkFails (s : State) (lm : Nat) : State := s.retireByItself 3 lm 3

/-- LINK_TRAINING (R309, R477): a module's training ends. A host module trains once in a start; a die-to-die module trains in a start and
in step 4 of an L2 of either of its dies. The compute-to-hub modules are no pool entry and have no state. -/
def execLinkTraining (m : LinkModule) (ok : Bool) (s : State) : Host.Outcome State Fault Refusal :=
  match m with
  | .hub _ _ => .next s
  | .host port u =>
    let h := s.port port
    .next (if !s.linksTrain ∨ !s.sites.testBit port ∨ h.failed ∨ h.modules.testBit u ∨ h.outModules.testBit u then s
      else if ok then s.updPort port (fun h => { h with modules := setBit h.modules u true })
      else s.updPort port (fun h => { h with outModules := setBit h.outModules u true }))
  | .d2d lm =>
    let e := edgeDies (lmEdge lm)
    let again := decide (s.phase = .ready) && (s.dieRetrains e.1 || s.dieRetrains e.2)
    let starts := decide (s.phase = .bootCode) || decide (s.phase = .identity)
    .next (if !starts && !again then s
      else if ok then { s with recov := { s.recov with linkOut := dropAll s.recov.linkOut lm } }
      else s.linkFails lm)

/-- LINK_PLL_LOSS_OF_LOCK (R524): the modules of the PLL fail their replay (R477, R478). -/
def execLinkPllLossOfLock (mods : List LinkModule) (s : State) : Host.Outcome State Fault Refusal :=
  .next (mods.foldl (fun s m =>
    match m with
    | .d2d lm => if s.lmUp lm then s.linkLeaves lm else s
    | .host port u => s.hostReplay port u
    | .hub _ _ => s) s)

-- starts and stops (R483, R524, R537, R553, R556, R564)

/-- The second stage is powered. -/
def State.powered (s : State) : Bool :=
  match s.phase with
  | .off | .overvoltage => false
  | _ => true

/-- The board has programmed the flash (R557): slot A holds its image, and the boot record its copies. A slot so written reads STAGED until
a start runs it (DESIGN CHOICE, log entry 23). -/
def State.boardWrote (s : State) (b : StartInfo) : State :=
  match b.board with
  | none => s
  | some x => { s with fw := { s.fw with slotA := { state := 2, image := x.slotA }, bootA := x.recordA, bootB := x.recordB } }

/-- What a start that no command brings finds: the straps and the boot area as before. -/
def keptStart (b : StartInfo) : StartInfo := { b with board := none }

/-- A start from step 3, as at package reset, where nothing holds it: RST_N, PGOOD, the PLL, THERMTRIP_N (R556). -/
def State.startIf (s : State) (b : StartInfo) : State :=
  let s := (s.boardWrote b).packageReset
  let b := keptStart b
  if s.pins.rstN && s.pins.pgood && s.power.pllLocked && s.pins.thermtripN then s.start b
  else { s with phase := if s.pins.thermtripN then .held else .tripped }

/-- START_FAILURE (R483): a start that fails before admin-ready is retried as a further package reset, until three have failed. The straps read
as before, since the board holds them from their first sample until admin-ready (R557). -/
def execStartFailure (s : State) : Host.Outcome State Fault Refusal :=
  match s.phase with
  | .bootCode | .identity | .stuck =>
    let s := { s with recov := { s.recov with failedStarts := s.recov.failedStarts + 1 } }
    .next (if s.recov.failedStarts ≥ 3 then { s.packageReset with phase := .dead } else s.packageReset.start s.boot)
  | _ => .next s

/-- PLL_LOSS_OF_LOCK (R524, R484): FAULT_N low, and every die is held in reset. -/
def execPllLossOfLock (s : State) : Host.Outcome State Fault Refusal :=
  match s.phase with
  | .off | .overvoltage | .tripped => .next s
  | _ =>
    let s := ({ s with faultHold := true }).packageReset
    .next { s with phase := .held, power := { s.power with pllLocked := false } }

/-- REFCLK_STABLE (R524): the package starts as at package reset. -/
def execRefclkStable (b : StartInfo) (s : State) : Host.Outcome State Fault Refusal :=
  .next (if s.power.pllLocked ∨ s.phase ≠ .held then s
    else ({ s with power := { s.power with pllLocked := true } }).startIf b)

/-- THERMTRIP (R537): THERMTRIP_N low and every clock stopped. The device tries to log it first, where its log runs: whether the entry reaches
the flash is a free value. -/
def execThermtrip (s : State) : Host.Outcome State Fault Refusal :=
  if !s.powered || !s.pins.pgood then .next s
  else
    match s.fresh with
    | (v, s) =>
      let s := s.whileUp (fun s =>
        let s := s.logCondition 4 3 0x8506 []
        if v % 2 = 1 then { s with log := s.log.copied } else s)
      let s := s.packageReset
      .next { s with phase := .tripped, pins := { s.pins with thermtripN := false } }

/-- The regulators stop (R553): nothing runs, and PGOOD is low. -/
def State.powerOff (s : State) (ph : Phase) : State :=
  let s := s.packageReset
  { s with phase := ph, railFailed := false, faultHold := false, pins := { s.pins with pgood := false },
           power := { s.power with rails := [], pllLocked := true }, recov := { s.recov with failedStarts := 0 } }

/-- The regulators sequence, PGOOD rises, and the package starts (R561 steps 1 to 3). -/
def State.powerOn (s : State) (b : StartInfo) : State :=
  let s := { s with boot := keptStart b, pins := { s.pins with pgood := true }, power := s.power.railsUp (decide (b.bootSrc ≠ 0)) }
  s.startIf b

/-- VIN36_RISE (R553, R561). -/
def execVin36Rise (b : StartInfo) (s : State) : Host.Outcome State Fault Refusal :=
  .next (if s.phase = .off then s.powerOn b else s)

/-- VIN36_UNDERVOLTAGE (R553): the input counts as removed, and THERMTRIP_N rises (R537). -/
def execVin36Undervoltage (s : State) : Host.Outcome State Fault Refusal :=
  let s := s.powerOff .off
  .next { s with pins := { s.pins with thermtripN := true } }

/-- VIN36_OVERVOLTAGE (R553). -/
def execVin36Overvoltage (s : State) : Host.Outcome State Fault Refusal :=
  .next (if s.phase = .off then s else s.powerOff .overvoltage)

/-- VIN36_OVERVOLTAGE_RESTART (R553): VIN36 has fallen below 40 V. -/
def execVin36OvervoltageRestart (b : StartInfo) (s : State) : Host.Outcome State Fault Refusal :=
  .next (if s.phase = .overvoltage then s.powerOn b else s)

/-- RAIL_OUT_OF_REGULATION (R564): PGOOD falls and every die is reset; the regulators sequence again once. The start samples the straps again
(R557), which the board may have changed since the part was ready: what they read is a free value (log entry 23). -/
def execRailOutOfRegulation (s : State) : Host.Outcome State Fault Refusal :=
  .next (if !s.powered || !s.pins.pgood then s
    else
      let again := s.railFailed
      let s := s.packageReset
      let s := { s with railFailed := true, pins := { s.pins with pgood := !again } }
      if again then { s with phase := if s.pins.thermtripN then .held else .tripped, power := { s.power with rails := [] } }
      else match s.fresh with | (f, s) => s.powerOn { s.boot with bootSrc := f % 4, board := none })

/-- RST_N_ASSERT (R556, R564): every die and the hub are held in reset; the regulators, PGOOD and THERMTRIP_N are as before. In the state of
R483 the failure count returns to zero. -/
def execRstNAssert (s : State) : Host.Outcome State Fault Refusal :=
  let low (s : State) : State := { s with pins := { s.pins with rstN := false } }
  match s.phase with
  | .off | .overvoltage => .next (low s)
  | _ =>
    let count := if s.phase = .dead then 0 else s.recov.failedStarts
    let s := low s.packageReset
    .next { s with phase := if s.pins.thermtripN then .held else .tripped, recov := { s.recov with failedStarts := count } }

/-- RST_N_RELEASE (R556): with PGOOD high and REFCLK stable, the package starts from step 3. -/
def execRstNRelease (b : StartInfo) (s : State) : Host.Outcome State Fault Refusal :=
  let s := { s with pins := { s.pins with rstN := true } }
  .next (if s.phase = .held then s.startIf b else s)

end Sys2Proof.Machine
end

