-- ==== Sys2Proof/Machine/Registers.lean ====
section
/-! DEFINITION. Writes to registers (R8, R10): the admin area, MSI-X table and port registers of PF0 (R313-R319, R345-R349), the pages, banks
and MSI-X table of a VF (R314-R318, R409), the HDM decoder's base (R320), the protection set-up (R285-R288) and the management cores' interrupt registers
(R497). A field that a write does not reach, a read-only field and a reserved bit keep their values. -/

namespace Sys2Proof.Machine

/-- The write is one aligned access of 8 bytes at an offset. -/
def whole8 (off : Nat) (data : List Byte) : Bool := data.length == 8 && off % 8 == 0

/-- The write reaches a byte of the 8-byte register at `reg`. -/
def touches8 (reg off : Nat) (data : List Byte) : Bool := decide (off < reg + 8) && decide (reg < off + data.length)

-- PF0 (R313, R319, R345)

/-- A doorbell of the admin channel (R347-R349): the copy of ADM_CMD is accepted, or the doorbell dropped. A row of the table runs the
accepted command; one of no row is answered here. -/
def State.admDoorbell (s : State) (port : Nat) : State :=
  if s.admBusy port then s.admDrop port
  else (s.admAccept port (memRead (s.admch port).cmd 0 4096)).admRunRowless port

/-- A write of ADM_CMD, which takes accesses of any size and alignment (R345). -/
def State.admCmdWrite (s : State) (port off : Nat) (data : List Byte) : State :=
  s.updAdm port (fun a => { a with cmd := memWrite a.cmd off (data.take (4096 - off)) })

/-- RING of ADM_PEQ_RING: bits [51:12], ignored while the queue is enabled (R319). -/
def State.peqRingWrite (s : State) (port v : Nat) : State :=
  s.updPort port (fun h => if h.peqEnable then h else { h with peqRing := bitsAt v 51 12 * 4096 })

/-- A write to BAR0 of PF0. A port whose site is not populated is held in reset (R3). -/
def State.pf0Write (s : State) (port off : Nat) (data : List Byte) : State :=
  let v := leNat data
  if !s.sites.testBit port then s
  else
    let s := if off < 0x1000 then s.admCmdWrite port off data else s
    let s := if 0x3000 ≤ off ∧ off < 0x3020 then { s with msi := s.msi.write port 0 2 (off - 0x3000) data } else s
    if touches8 0x2000 off data then
      (if whole8 off data ∧ v = 1 then s.admDoorbell port
       else s.updAdm port (fun a => { a with droppedForm := satInc32 a.droppedForm }))
    else if !whole8 off data then s
    else if off = 0x4040 then s.peqRingWrite port v
    else if off = 0x4048 then s.peqCtl port v
    else if off = 0x4058 then s.peqConsume port v
    else s

-- the BARs of a VF (R314-R317, R409)

/-- A write to a context's doorbell page: one that is not one aligned 8-byte write of a register is dropped and counted (R317). -/
def State.doorbellWrite (s : State) (port p c off : Nat) (data : List Byte) : State :=
  let v := leNat data
  if !s.vfServes port p then s
  else if whole8 off data ∧ off = 0 then s.dblRing port p (some c) v
  else if whole8 off data ∧ off = 8 then s.dblAbort port p c v
  else if touches8 0 off data ∨ touches8 8 off data then s.dblDrop p
  else s

/-- A write to the partition page. -/
def State.partPageWrite (s : State) (port p off : Nat) (data : List Byte) : State :=
  let v := leNat data
  if !s.vfServes port p then s
  else if whole8 off data ∧ off = 0 then s.dblRing port p none v
  else if whole8 off data ∧ off = 0x10 then s.dblFault port p v
  else if touches8 0 off data ∨ touches8 0x10 off data then s.dblDrop p
  else s

/-- A write to a claim and complete bank: EVQ_COMPLETEq at 0x008 + 16q. -/
def State.claimBankWrite (s : State) (port p : Nat) (fast : Bool) (off : Nat) (data : List Byte) : State :=
  if whole8 off data ∧ off % 16 = 8 ∧ off < 0x400 then s.evqComplete port p fast (off / 16) (leNat data) else s

/-- A write to BAR2 of a VF: its MSI-X table of 128 entries (R314). -/
def State.vfMsixWrite (s : State) (port p off : Nat) (data : List Byte) : State :=
  if s.vfServes port p ∧ off < 0x800 then { s with msi := s.msi.write port (p + 1) 128 off data } else s

-- the HDM decoder's base (R320)

/-- The base must be aligned to 256 MiB; another value is not taken (log entry 27). -/
def State.hdmBaseWrite (s : State) (port off : Nat) (data : List Byte) : State :=
  let v := leNat data
  if off = 0 ∧ data.length = 8 ∧ v % 2 ^ 28 = 0 ∧ s.sites.testBit port then s.updPort port (fun h => { h with hdmBase := some v }) else s

-- the protection set-up (R285-R288)

/-- Writable bits of byte `i` of the set-up: its BL fields; LOCK, REASON and reserved bits are not among them. -/
def prsMask (i : Nat) : Nat :=
  if i = 4 then 0x0F else if i = 8 then 0x03 else if i = 0x0C then 0x01
  else if 0x10 ≤ i ∧ i < 0x20 then
    (if i % 4 = 0 then 0xFF else if i % 4 = 1 then 0xFF else if i % 4 = 2 then 0x01 else 0x1F)
  else if 0x20 ≤ i ∧ i < 0x44 then (if i % 2 = 0 then 0xFF else 0x81)
  else if i = 0x44 then 0x03
  else if 0x48 ≤ i ∧ i < 0x50 then 0xFF
  else 0

/-- A byte of which the bits of a mask are written. -/
def maskedByte (m : Nat) (old new : Byte) : Byte := (old &&& ~~~(BitVec.ofNat 8 m)) ||| (new &&& BitVec.ofNat 8 m)

/-- The registers after bytes have been written from an offset. -/
def PrsSt.written (r : PrsSt) (off : Nat) (data : List Byte) : PrsSt :=
  { r with regs := (natRange 0 128).map (fun i =>
      let old := r.regs.getD i 0#8
      if off ≤ i ∧ i < off + data.length then maskedByte (prsMask i) old (data.getD (i - off) 0#8) else old) }

/-- A write to the set-up: BL fields before the lock; a write that reaches LOCK acts on it (R287, R288). -/
def State.prsWrite (s : State) (off : Nat) (data : List Byte) : State :=
  if s.phase ≠ .bootCode ∨ s.prs.lock then s
  else
    let s := { s with prs := s.prs.written off data }
    if off = 0 ∧ 0 < data.length then s.prsLockWrite (leNat (data.take 4)) else s

-- the interrupt controller (R497)

/-- A source's configuration is set; a line whose count of pending sources rises from 0 by that is raised (R498). -/
def IrqSt.configure (q : IrqSt) (src v : Nat) : IrqSt :=
  let new := { q with cfg := tabSet q.cfg src v }
  { new with lines := q.lines ++ q.rises new }

/-- A write of the management cores: MGT_IRQ_CFGs, and the complete registers of the two banks. -/
def State.mgtWrite (s : State) (off : Nat) (data : List Byte) : State :=
  let v := leNat data
  if !whole8 off data then s
  else if off < 0x200 then
    { s with irq := s.irq.configure (off / 8) (bitsAt v 8 8 * 256 + bitsAt v 4 4 * 16 + v % 16) }
  else if off = 0x208 then s.irqComplete false (v % 64)
  else if off = 0x308 then s.irqComplete true (v % 64)
  else s

-- the SR-IOV settings of a port (R312)

/-- A write of the SR-IOV capability: NumVFs, at its offset in the capability (log entry 29); a number above TotalVFs is not taken. -/
def State.sriovWrite (s : State) (port off : Nat) (data : List Byte) : State :=
  let v := leNat data
  if off = 0x10 ∧ data.length = 2 ∧ v ≤ 64 ∧ s.sites.testBit port then s.updPort port (fun h => { h with numVfs := v }) else s

/-- The SR-IOV capability's InitialVFs, TotalVFs, NumVFs, First VF Offset and VF Stride. -/
def State.sriovBytes (s : State) (port : Nat) : List Byte :=
  zeros 0x0C ++ leBytes 2 64 ++ leBytes 2 64 ++ leBytes 2 (s.port port).numVfs ++ zeros 2 ++ leBytes 2 1 ++ leBytes 2 1

-- where an access falls (R314)

/-- The page or bank that an offset of a VF's BAR0 lies in, and the offset within it; none where it is reserved. -/
def vfPage (port : Fin 4) (vf : Fin 64) (off : Nat) : Option (RegSpace × Nat) :=
  if h : off / 0x1000 < 256 then some (.doorbellPage port vf ⟨off / 0x1000, h⟩, off % 0x1000)
  else if off / 0x1000 = 256 then some (.partitionPage port vf, off % 0x1000)
  else if off / 0x1000 = 257 then some (.claimBank port vf false, off % 0x1000)
  else if off / 0x1000 = 258 then some (.claimBank port vf true, off % 0x1000)
  else none

/-- The register space that an access reaches and the offset within it: a VF's BAR0 is its pages and banks. -/
def regPlace (r : RegSpace) (off : Nat) : Option (RegSpace × Nat) :=
  match r with
  | .vfBar0 port vf => vfPage port vf off
  | _ => some (r, off)

/-- A write to a register space at an offset of it. -/
def State.spaceWrite (s : State) (r : RegSpace) (off : Nat) (data : List Byte) : State :=
  match r with
  | .vfBar0 _ _ => s
  | .sriov port => s.sriovWrite port off data
  | .pf0 port => s.pf0Write port off data
  | .doorbellPage port vf ctx => s.doorbellWrite port vf ctx off data
  | .partitionPage port vf => s.partPageWrite port vf off data
  | .claimBank port vf fast => s.claimBankWrite port vf fast off data
  | .vfMsix port vf => s.vfMsixWrite port vf off data
  | .hdmBase port => s.hdmBaseWrite port off data
  | .protection => s.prsWrite off data
  | .management => s.mgtWrite off data

/-- A register write (R8). -/
def State.regWrite (s : State) (r : RegSpace) (off : Nat) (data : List Byte) : State :=
  match regPlace r off with
  | some x => s.spaceWrite x.1 x.2 data
  | none => s

/-- REGISTER_WRITE (R8): no register is reached while the hub is in reset (R556). -/
def execRegisterWrite (r : RegSpace) (off : Nat) (data : List Byte) (s : State) : Host.Outcome State Fault Refusal :=
  .next (s.whileUp (fun s => s.regWrite r off data))

end Sys2Proof.Machine
end

