-- ==== Sys2Proof/Machine/SSlot.lean ====
section
/-! DEFINITION. The S slot (R57, R58): each command issues its bundle with its own opcode in the slot. -/

namespace Sys2Proof.Machine

/-- ADD (R57): issue the bundle with opcode 0x01 in its S slot. -/
def execAdd (k : CoreId) (b : Bundle) (s : State) : Host.Outcome State Fault Refusal :=
  .next (s.issue k { b with s := { b.s with op := 0x01 } })

/-- ADDI (R57): issue the bundle with opcode 0x02 in its S slot. -/
def execAddi (k : CoreId) (b : Bundle) (s : State) : Host.Outcome State Fault Refusal :=
  .next (s.issue k { b with s := { b.s with op := 0x02 } })

/-- SUB (R57): issue the bundle with opcode 0x03 in its S slot. -/
def execSub (k : CoreId) (b : Bundle) (s : State) : Host.Outcome State Fault Refusal :=
  .next (s.issue k { b with s := { b.s with op := 0x03 } })

/-- AND (R57): issue the bundle with opcode 0x04 in its S slot. -/
def execAndOp (k : CoreId) (b : Bundle) (s : State) : Host.Outcome State Fault Refusal :=
  .next (s.issue k { b with s := { b.s with op := 0x04 } })

/-- OR (R57): issue the bundle with opcode 0x05 in its S slot. -/
def execOrOp (k : CoreId) (b : Bundle) (s : State) : Host.Outcome State Fault Refusal :=
  .next (s.issue k { b with s := { b.s with op := 0x05 } })

/-- XOR (R57): issue the bundle with opcode 0x06 in its S slot. -/
def execXorOp (k : CoreId) (b : Bundle) (s : State) : Host.Outcome State Fault Refusal :=
  .next (s.issue k { b with s := { b.s with op := 0x06 } })

/-- LIS (R57): issue the bundle with opcode 0x07 in its S slot. -/
def execLis (k : CoreId) (b : Bundle) (s : State) : Host.Outcome State Fault Refusal :=
  .next (s.issue k { b with s := { b.s with op := 0x07 } })

/-- SHL (R57): issue the bundle with opcode 0x08 in its S slot. -/
def execShl (k : CoreId) (b : Bundle) (s : State) : Host.Outcome State Fault Refusal :=
  .next (s.issue k { b with s := { b.s with op := 0x08 } })

/-- SHR (R57): issue the bundle with opcode 0x09 in its S slot. -/
def execShr (k : CoreId) (b : Bundle) (s : State) : Host.Outcome State Fault Refusal :=
  .next (s.issue k { b with s := { b.s with op := 0x09 } })

/-- SRA (R57): issue the bundle with opcode 0x0a in its S slot. -/
def execSra (k : CoreId) (b : Bundle) (s : State) : Host.Outcome State Fault Refusal :=
  .next (s.issue k { b with s := { b.s with op := 0x0a } })

/-- SHLI (R57): issue the bundle with opcode 0x0b in its S slot. -/
def execShli (k : CoreId) (b : Bundle) (s : State) : Host.Outcome State Fault Refusal :=
  .next (s.issue k { b with s := { b.s with op := 0x0b } })

/-- SHRI (R57): issue the bundle with opcode 0x0c in its S slot. -/
def execShri (k : CoreId) (b : Bundle) (s : State) : Host.Outcome State Fault Refusal :=
  .next (s.issue k { b with s := { b.s with op := 0x0c } })

/-- SRAI (R57): issue the bundle with opcode 0x0d in its S slot. -/
def execSrai (k : CoreId) (b : Bundle) (s : State) : Host.Outcome State Fault Refusal :=
  .next (s.issue k { b with s := { b.s with op := 0x0d } })

/-- MUL (R57): issue the bundle with opcode 0x10 in its S slot. -/
def execMul (k : CoreId) (b : Bundle) (s : State) : Host.Outcome State Fault Refusal :=
  .next (s.issue k { b with s := { b.s with op := 0x10 } })

/-- MULH (R57): issue the bundle with opcode 0x11 in its S slot. -/
def execMulh (k : CoreId) (b : Bundle) (s : State) : Host.Outcome State Fault Refusal :=
  .next (s.issue k { b with s := { b.s with op := 0x11 } })

/-- DIV (R57): issue the bundle with opcode 0x12 in its S slot. -/
def execDiv (k : CoreId) (b : Bundle) (s : State) : Host.Outcome State Fault Refusal :=
  .next (s.issue k { b with s := { b.s with op := 0x12 } })

/-- DIVU (R57): issue the bundle with opcode 0x13 in its S slot. -/
def execDivu (k : CoreId) (b : Bundle) (s : State) : Host.Outcome State Fault Refusal :=
  .next (s.issue k { b with s := { b.s with op := 0x13 } })

/-- REM (R57): issue the bundle with opcode 0x14 in its S slot. -/
def execRem (k : CoreId) (b : Bundle) (s : State) : Host.Outcome State Fault Refusal :=
  .next (s.issue k { b with s := { b.s with op := 0x14 } })

/-- REMU (R57): issue the bundle with opcode 0x15 in its S slot. -/
def execRemu (k : CoreId) (b : Bundle) (s : State) : Host.Outcome State Fault Refusal :=
  .next (s.issue k { b with s := { b.s with op := 0x15 } })

/-- MIN (R57): issue the bundle with opcode 0x18 in its S slot. -/
def execMinOp (k : CoreId) (b : Bundle) (s : State) : Host.Outcome State Fault Refusal :=
  .next (s.issue k { b with s := { b.s with op := 0x18 } })

/-- MAX (R57): issue the bundle with opcode 0x19 in its S slot. -/
def execMaxOp (k : CoreId) (b : Bundle) (s : State) : Host.Outcome State Fault Refusal :=
  .next (s.issue k { b with s := { b.s with op := 0x19 } })

/-- MINU (R57): issue the bundle with opcode 0x1a in its S slot. -/
def execMinu (k : CoreId) (b : Bundle) (s : State) : Host.Outcome State Fault Refusal :=
  .next (s.issue k { b with s := { b.s with op := 0x1a } })

/-- MAXU (R57): issue the bundle with opcode 0x1b in its S slot. -/
def execMaxu (k : CoreId) (b : Bundle) (s : State) : Host.Outcome State Fault Refusal :=
  .next (s.issue k { b with s := { b.s with op := 0x1b } })

/-- Opcode of a compare (R57). -/
def cmpCode : CmpOp → BitVec 8
  | .eq => 0x20 | .ne => 0x21 | .lt => 0x22 | .ltu => 0x23 | .ge => 0x24 | .geu => 0x25

/-- CMP (R57): issue the bundle with the compare in its S slot. -/
def execCmp (k : CoreId) (c : CmpOp) (b : Bundle) (s : State) : Host.Outcome State Fault Refusal :=
  .next (s.issue k { b with s := { b.s with op := cmpCode c } })

/-- LI (R57): issue the bundle with opcode 0x28 in its S slot. -/
def execLi (k : CoreId) (b : Bundle) (s : State) : Host.Outcome State Fault Refusal :=
  .next (s.issue k { b with s := { b.s with op := 0x28 } })

/-- MOVS (R58): issue the bundle with opcode 0x30 in its S slot. -/
def execMovs (k : CoreId) (b : Bundle) (s : State) : Host.Outcome State Fault Refusal :=
  .next (s.issue k { b with s := { b.s with op := 0x30 } })

/-- WRS (R58): issue the bundle with opcode 0x31 in its S slot. -/
def execWrs (k : CoreId) (b : Bundle) (s : State) : Host.Outcome State Fault Refusal :=
  .next (s.issue k { b with s := { b.s with op := 0x31 } })

/-- PMOV (R57): issue the bundle with opcode 0x32 in its S slot. -/
def execPmov (k : CoreId) (b : Bundle) (s : State) : Host.Outcome State Fault Refusal :=
  .next (s.issue k { b with s := { b.s with op := 0x32 } })

/-- SETP (R57): issue the bundle with opcode 0x33 in its S slot. -/
def execSetp (k : CoreId) (b : Bundle) (s : State) : Host.Outcome State Fault Refusal :=
  .next (s.issue k { b with s := { b.s with op := 0x33 } })

end Sys2Proof.Machine
end

