-- ==== Sys2Proof/Machine/Tension.lean ====
section
/-! DEFINITION. Tension (R444-R460): the tension table and its commands, and the regulators: windows, label states, levels, cuts,
scaling and shortfalls. -/

namespace Sys2Proof.Machine

-- rated capacities (R444)

/-- Rated capacity of a host port, per direction: by its trained modules. -/
def State.portRate (s : State) (port : Nat) : Nat :=
  let m := (s.port port).modules
  256 * (bnat (m.testBit 0) + bnat (m.testBit 1))
/-- Rated capacity of a compute die's hub path, per direction. -/
def hubRate : Nat := 1024
/-- Rated capacity of an edge's pooled modules, per direction. -/
def State.edgeRate (s : State) (e : Nat) : Nat := 256 * (s.pooledModules e).length
/-- Rated capacity of the KV service. -/
def State.kvRate (s : State) : Nat := 75 * s.kvServing.length
/-- Rated capacity of a memory stop. -/
def stopRate : Nat := 600

-- the table (R447, R448)

/-- A label entry of the table, 32 bytes; zero where none was set. -/
def TensionSt.label (t : TensionSt) (i : Nat) : List Byte := t.labels.getD i (zeros 32)

/-- The stored table's 544 bytes (R447). -/
def TensionSt.bytes (t : TensionSt) : List Byte :=
  leBytes 4 t.format ++ leBytes 1 (bnat t.inForce) ++ zeros 1 ++ leBytes 2 t.reason ++ leBytes 2 t.hostAllow ++ leBytes 2 t.kvAllow
    ++ leBytes 2 t.mstopAllow ++ zeros 18 ++ (natRange 0 16).flatMap t.label

/-- MODE of a label entry. -/
def labelMode (l : List Byte) : Nat := fieldAt l 0 1 % 4
/-- GUAR of a class (0 HOST, 1 LINK, 2 KV, 3 MSTOP) in a label entry. -/
def labelGuar (l : List Byte) (class_ : Nat) : Nat := fieldAt l (4 + 4 * class_) 2
/-- CAP of a class in a label entry. -/
def labelCap (l : List Byte) (class_ : Nat) : Nat := fieldAt l (6 + 4 * class_) 2

/-- Sum of the labels' GUAR of a class. -/
def TensionSt.guarSum (t : TensionSt) (class_ : Nat) : Nat :=
  (natRange 0 16).foldl (fun a i => a + labelGuar (t.label i) class_) 0

/-- The largest rated capacity of a class (R450 order 1). -/
def State.classRate (s : State) (class_ : Nat) : Nat :=
  if class_ = 0 then hubRate
  else if class_ = 1 then (natRange 0 4).foldl (fun a e => max a (s.edgeRate e)) 0
  else if class_ = 2 then s.kvRate else stopRate

/-- The reserved bits of a label entry are zero (R448). -/
def labelForm (l : List Byte) : Bool := decide (fieldAt l 0 1 < 4) && zeroAt l 1 1 && zeroAt l 0x14 12

/-- R450 order 1 for a label entry. -/
def State.labelOk (s : State) (l : List Byte) : Bool :=
  let mode := labelMode l
  let lat := fieldAt l 2 2
  labelForm l && decide (mode ≠ 3) &&
  (if mode = 2 then decide (1 ≤ lat) && decide (lat ≤ 3200) else decide (lat = 0)) &&
  (natRange 0 4).all (fun k =>
    let g := labelGuar l k
    let c := labelCap l k
    (decide (mode = 1) || decide (g = 0)) && (decide (c = 0) || decide (g ≤ c)) && decide (g ≤ s.classRate k)
      && decide (c ≤ s.classRate k))

/-- R450 order 2: the allowances and pooled shares cover the labels' guarantees. -/
def TensionSt.allowed (t : TensionSt) (pat : Pattern) : Bool :=
  let held := (natRange 0 4).filter (fun e => decide (0 < pat.pooled e))
  decide (t.guarSum 0 ≤ t.hostAllow) && decide (t.guarSum 2 ≤ t.kvAllow) && decide (t.guarSum 3 ≤ t.mstopAllow) &&
  (if held.isEmpty then decide (t.guarSum 1 = 0) else held.all (fun e => decide (t.guarSum 1 ≤ pat.pooled e)))

/-- Partitions with a table in force, partition `p`'s replaced. -/
def State.tables (s : State) (p : Nat) (t : TensionSt) : List (Nat × TensionSt) :=
  (s.parts.filter (fun e => decide (e.1 ≠ p) && e.2.tension.inForce)).map (fun e => (e.1, e.2.tension))
    ++ (if t.inForce then [(p, t)] else [])

/-- Sum of a figure over tables. -/
def sumTables (ts : List (Nat × TensionSt)) (f : TensionSt → Nat) : Nat := ts.foldl (fun a e => a + f e.2) 0

/-- HOST_ALLOW of the tables whose partition a port owns. -/
def State.portAllow (s : State) (ts : List (Nat × TensionSt)) (port : Nat) : Nat :=
  sumTables (ts.filter (fun e => decide ((s.part e.1).desc.ownerPort = port))) (fun t => t.hostAllow)

/-- R450 order 3: the reservations of every table in force fit the rated capacities. -/
def State.admits (s : State) (ts : List (Nat × TensionSt)) : Bool :=
  (natRange 0 4).all (fun h => decide (s.portAllow ts h ≤ s.portRate h)) &&
  decide (sumTables ts (fun t => t.hostAllow + t.kvAllow) ≤ hubRate) && decide (sumTables ts (fun t => t.kvAllow) ≤ s.kvRate) &&
  decide (sumTables ts (fun t => t.mstopAllow) ≤ stopRate)

/-- The consistency check of R450; `form` says that the header's reserved bytes are zero. -/
def State.tensionCode (s : State) (p : Nat) (t : TensionSt) (form : Bool) : Option Nat :=
  if !form ∨ t.format ≠ 1 ∨ !(natRange 0 16).all (fun i => s.labelOk (t.label i)) then some 0x0303
  else if !t.allowed (s.part p).pat then some 0x0302
  else if !s.admits (s.tables p t) then some 0x0301
  else none

/-- The table a TENSION_SET would leave: its format, its control, and what its T_OP takes (R449). -/
def TensionSt.taken (t : TensionSt) (b : List Byte) : TensionSt :=
  let at_ (off size : Nat) : Nat := par b (8 + off) size
  let t := { t with format := at_ 0 4, inForce := (at_ 4 1).testBit 0 }
  if par b 0 1 = 1 then { t with hostAllow := at_ 8 2, kvAllow := at_ 10 2, mstopAllow := at_ 12 2 }
  else { t with labels := (natRange 0 16).map (fun i => parBytes b (0x28 + 32 * i) 32) }

/-- TENSION_SET (R449): with ENABLE 0 the table leaves force at once, and only reserved bits are checked (R10); with ENABLE 1 the check of
R450 decides (R373). -/
def State.tensionSet (s : State) (ch : Nat) (b : List Byte) : State :=
  let p := pktTarget b
  let t := (s.part p).tension.taken b
  let form := decide (par b 12 1 ≤ 1) && parZero b 13 1 && parZero b 0x16 18
  if !parZero b 1 7 then s.refuse ch 0x0003
  else if !t.inForce then
    (if form && (natRange 0 16).all (fun i => labelForm (t.label i)) then (s.updPart p (fun x => { x with tension := t })).done ch []
     else s.refuse ch 0x0303)
  else
    match s.tensionCode p t form with
    | some c => (s.updPart p (fun x => { x with tension := { x.tension with reason := c } })).refuse ch c
    | none => (s.updPart p (fun x => { x with tension := { t with reason := 0 } })).done ch []

/-- A TENSION_SET of a T_OP. -/
def isTensionOp (op : Nat) (b : List Byte) : Bool := pktOp b == 0x0301 && par b 0 1 == op

/-- TENSION_SET with T_OP 1 (R449): the allowances. -/
def execTensionSetAllowances (ch : Fin 5) (pkt : List Byte) (s : State) : Host.Outcome State Fault Refusal :=
  .next (s.admCommand ch pkt (isTensionOp 1) (fun s b => s.tensionSet ch b))

/-- TENSION_SET with T_OP 2 (R449): the labels. -/
def execTensionSetLabels (ch : Fin 5) (pkt : List Byte) (s : State) : Host.Outcome State Fault Refusal :=
  .next (s.admCommand ch pkt (isTensionOp 2) (fun s b => s.tensionSet ch b))

/-- The headroom block of TENSION_QUERY (R451). -/
def State.headroom (s : State) (p : Nat) : List Byte :=
  let ts := s.tables p (s.part p).tension
  let port := (s.part p).desc.ownerPort
  leBytes 2 (s.portRate port - s.portAllow ts port) ++ leBytes 2 (hubRate - sumTables ts (fun t => t.hostAllow + t.kvAllow))
    ++ leBytes 2 (s.kvRate - sumTables ts (fun t => t.kvAllow)) ++ leBytes 2 (stopRate - sumTables ts (fun t => t.mstopAllow)) ++ zeros 8

/-- TENSION_QUERY (R451). -/
def execTensionQuery (ch : Fin 5) (pkt : List Byte) (s : State) : Host.Outcome State Fault Refusal :=
  .next (s.admCommand ch pkt (isOp 0x0302) (fun s b =>
    let p := pktTarget b
    let t := (s.part p).tension
    if !parZero b 0 8 then s.refuse ch 0x0003
    else s.done ch (t.bytes ++ (natRange 0 4).flatMap (fun k =>
      leBytes 4 (tabGet 0 t.shortWindows k) ++ zeros 4 ++ leBytes 8 (tabGet 0 t.shortBytes k)) ++ s.headroom p)))

-- regulators (R452-R459)

/-- The regulator's die is under L2 recovery: it counts no windows (R460). -/
def State.regAsleep (s : State) : Regulator → Bool
  | .host i => decide (4 ≤ i.val) && s.dieTaped (i.val - 4)
  | .mstop i => s.dieTaped (i.val / 10)
  | .link _ | .kv => false

/-- Rate and ceiling in GB/s that a table gives a label at an instance (R447, R448): on a hub path, HOST and KV traffic together; on a
host port, only the owner's. -/
def TensionSt.rates (t : TensionSt) (owner : Nat) (r : Regulator) (i : Nat) : Nat × Nat :=
  let l := t.label i
  match r with
  | .host h =>
    if h.val < 4 then (if h.val = owner then (labelGuar l 0, labelCap l 0) else (0, 0))
    else (labelGuar l 0 + labelGuar l 2, if labelCap l 0 = 0 ∨ labelCap l 2 = 0 then 0 else labelCap l 0 + labelCap l 2)
  | .link _ => (labelGuar l 1, labelCap l 1)
  | .kv => (labelGuar l 2, labelCap l 2)
  | .mstop _ => (labelGuar l 3, labelCap l 3)

/-- The budget of a window for a rate in GB/s (R448); on an edge scaled by share over sum where a commit left too little share (R460). -/
def windowBudget (t : TensionSt) (pat : Pattern) (r : Regulator) (rate : Nat) : Nat :=
  match r with
  | .link e =>
    let share := pat.pooled e
    let sum := t.guarSum 1
    if sum > share then rate * 10000 * share / sum else rate * 10000
  | _ => rate * 10000

/-- A label takes the table now in force, for the window that starts; traffic beyond a VD's shares is best effort whatever its label (R247,
R249). -/
def State.loadLabel (s : State) (r : Regulator) (l : LabelSt) : LabelSt :=
  let x := s.part l.part
  let t := x.tension
  if !t.inForce ∨ l.spill then { l with mode := 0, budget := 0, cap := 0, lat := 0, level := 1 }
  else
    let e := t.label l.label
    let rc := t.rates x.desc.ownerPort r l.label
    let mode := labelMode e
    { l with mode := mode, budget := if mode = 1 then windowBudget t x.pat r rc.1 else 0, cap := rc.2 * 10000,
             lat := fieldAt e 2 2, level := if mode = 2 ∧ l.mode = 2 then l.level else 1 }

/-- A label's window is short (R457): served below its unscaled budget, with a request waiting; a frozen partition's never is (R460). -/
def State.labelShort (s : State) (x : RegSt) (l : LabelSt) : Bool :=
  decide (l.mode = 1) && decide (l.served < l.budget)
    && x.queue.any (fun q => l.isOf q.part q.label q.up q.spill) && decide ((s.part l.part).pstate ≠ .frozen)

/-- The mean completion time that was seen of a label; none where no request of it completed. -/
def obsOf (obs : List LabelObs) (l : LabelSt) : Option Nat :=
  (obs.find? (fun o => decide (o.part.val = l.part) && decide (o.label.val = l.label))).map (fun o => o.meanTime)

/-- The level of a MODE 2 label after a window, `mean` in ns and its target in 10 ns units (R456). -/
def LabelSt.nextLevel (l : LabelSt) (mean : Option Nat) : Nat :=
  match mean with
  | some m => if l.mode = 2 ∧ l.lat ≠ 0 then min 7 (1 + 6 * m / (10 * l.lat)) else l.level
  | none => l.level

/-- Labels a regulator counts: those it has served, and those of every table in force, in each of its directions. -/
def State.regLabels (s : State) (r : Regulator) (old : List LabelSt) : List LabelSt :=
  let set_ := (s.parts.filter (fun e => e.2.tension.inForce)).flatMap (fun e =>
    (natRange 0 16).flatMap (fun i => (regDirs r).map (fun up => (e.1, i, up))))
  set_.foldl (fun ls k =>
    if ls.any (fun l => l.isOf k.1 k.2.1 k.2.2 false) then ls else ls ++ [{ part := k.1, label := k.2.1, up := k.2.2 }]) old

/-- Record a short label (R459): its bytes, and at most once per 100 ms and partition its notice. -/
def State.shortfall (s : State) (r : Regulator) (l : LabelSt) (bytes : Nat) : State :=
  let k := regClass r
  let s := s.updPart l.part (fun x => { x with tension := { x.tension with
    shortBytes := tabSet x.tension.shortBytes k ((tabGet 0 x.tension.shortBytes k + bytes) % 2 ^ 64) } })
  let due : Bool := match (s.part l.part).tension.lastNotice with
    | some t => decide (s.ticks ≥ t + 170000000)
    | none => true
  if !due then s
  else
    (s.updPart l.part (fun x => { x with tension := { x.tension with lastNotice := some s.ticks } })).notice l.part 0 0x8301 0xFFFF
      (leBytes 1 k ++ zeros 1 ++ leBytes 2 (regInstance r) ++ leBytes 1 l.label ++ zeros 1 ++ leBytes 4 bytes)

/-- What a source has heard is brought to what the regulator says now. -/
def RegSt.renewed (x : RegSt) (e : SentSt) : SentSt :=
  match x.labels.find? (fun l : LabelSt => l.isOf e.part e.label e.up e.spill) with
  | some l => x.says l e
  | none => e

/-- The regulator informs the sources that `f` names. -/
def RegSt.resent (x : RegSt) (f : SentSt → Bool) : RegSt := { x with sent := x.sent.map (fun e => if f e then x.renewed e else e) }

/-- A regulator after a window (R452, R456, R458), in which the labels of `shorts` were short: debts, levels, the cut and the scale, and each
label under the table now in force. D of R458 is what was served to every label and to management, over the busy part of the window. -/
def State.nextWindow (s : State) (r : Regulator) (x : RegSt) (ls shorts : List LabelSt) (obs : WindowObs) : RegSt :=
  let run := if shorts.isEmpty then 0 else x.shortRun + 1
  let sum := ls.foldl (fun a l => if l.mode = 1 then a + l.budget else a) 0
  let num := (ls.foldl (fun a l => a + l.served) x.mgtServed) * 10000
  let den := obs.busyNs * sum
  let scale : Nat × Nat := if 2 ≤ run ∧ num < den then (num, den) else (1, 1)
  let next (l : LabelSt) : LabelSt :=
    let l := { l with debt := if l.cap = 0 then 0 else l.served + l.debt - l.cap, level := l.nextLevel (obsOf obs.labels l), served := 0 }
    let l := s.loadLabel r l
    { l with state := l.stateAt scale.1 scale.2 0 }
  { x with labels := ls.map next, mgtServed := 0, shortRun := run, cutLow := !shorts.isEmpty, scaleNum := scale.1, scaleDen := scale.2 }.resent (fun _ => true)

/-- TENSION_WINDOW_END (R452-R459): shortfalls are counted, the cut and the scale of R458 are set, and each label starts the next
window under the table now in force. What was held for the old window may go. -/
def execTensionWindowEnd (r : Regulator) (obs : WindowObs) (s : State) : Host.Outcome State Fault Refusal :=
  if s.regAsleep r then .next s
  else
    let x := s.reg r
    let ls := s.regLabels r x.labels
    let shorts := ls.filter (s.labelShort x)
    let y := s.nextWindow r x ls shorts obs
    let s := shorts.foldl (fun s l => s.shortfall r l (l.budget - l.served)) s
    let parts := shorts.foldl (fun ps l => addOnce ps l.part) []
    let s := parts.foldl (fun s p => s.updPart p (fun y => { y with tension := { y.tension with
      shortWindows := tabSet y.tension.shortWindows (regClass r) (satInc32 (tabGet 0 y.tension.shortWindows (regClass r))) } })) s
    .next (s.setReg r y).sendAll

-- the queue of an instance (R455)

/-- Level at which an instance serves a request of its queue (R454, R455): 8 once it has waited 16 µs, 0 for management. -/
def RegSt.reqLevel (x : RegSt) (q : RegReq) : Nat :=
  if q.aged then 8
  else
    match x.labels.find? (fun l => l.isOf q.part q.label q.up q.spill) with
    | some l => (issueAt l.mode l.state l.level 0 false).1
    | none => 0

/-- One round of level 0 after another, in rotation among the participants, each in arrival order (R455). -/
def rotate : Nat → List Nat → List RegReq → List RegReq
  | 0, _, _ => []
  | fuel + 1, ring, qs =>
    let heads := ring.filterMap (fun p => qs.find? (fun q => decide (q.part = p)))
    heads ++ rotate fuel ring (heads.foldl (fun t h => t.erase h) qs)

/-- The order in which an instance serves its queue: strictly by level, highest first; within a level in arrival order, and at level 0 in
rotation among partitions, management counting as one, from the participant whose turn it is (R455). -/
def RegSt.serveOrder (x : RegSt) : List RegReq :=
  let at_ (l : Nat) : List RegReq := x.queue.filter (fun q => decide (x.reqLevel q = l))
  [8, 7, 6, 5, 4, 3, 2, 1].flatMap at_ ++ rotate (at_ 0).length ((natRange x.turn (65 - x.turn)) ++ natRange 0 x.turn) (at_ 0)

/-- The instance serves the first `n` requests of its queue's order; the rotation goes on after the last one of level 0. -/
def RegSt.serve (x : RegSt) (n : Nat) : RegSt :=
  let out := x.serveOrder.take n
  { x with queue := out.foldl (fun q r => q.erase r) x.queue,
           turn := match (out.filter (fun r => decide (x.reqLevel r = 0))).getLast? with
             | some r => (r.part + 1) % 65
             | none => x.turn }

/-- A request as it stands in a queue. -/
def QueuedReq.entry (r : QueuedReq) : RegReq :=
  match r.who with
  | some w => { part := w.1, label := w.2, up := r.up, spill := r.spill }
  | none => { part := 64, label := 0, up := r.up }

/-- Requests enter the queue, and the instance serves some of it in its order; the queue level is an eighth part of its size (R453). -/
def RegSt.observe (x : RegSt) (arrived : List QueuedReq) (q : QueueObs) : RegSt :=
  let x := ({ x with queue := x.queue ++ arrived.map QueuedReq.entry } : RegSt).serve q.served
  { x with queueLevel := min 7 (8 * x.queue.length / q.size) }

/-- A source holds requests of a label for an instance, as far as the state shows it: it is held or paced by it, or it is a cluster with a
request that has not been sent. -/
def State.holds (s : State) (r : Regulator) (e : SentSt) : Bool :=
  decide (e.rate < 16) || s.writes.any (fun w => !w.sent && decide (w.k.cl.val = e.src) && decide (w.part = e.part)
    && (s.writeCrossings w).any (fun c => decide (c.reg = r)))

/-- TENSION_STATE_UPDATE (R453, R455): requests arrive at the instance, in order, and it serves some of its queue; the label states and
the queue level go to the sources that hold requests for it, which act on them. -/
def execTensionStateUpdate (r : Regulator) (arrived : List QueuedReq) (q : QueueObs) (s : State) : Host.Outcome State Fault Refusal :=
  if s.regAsleep r then .next s
  else
    let x := (s.reg r).observe arrived q
    let x := { x with labels := x.labels.map (fun l : LabelSt => { l with state := l.stateAt x.scaleNum x.scaleDen l.served }) }
    .next (s.setReg r (x.resent (s.holds r))).sendAll

/-- REQUEST_AGE_PROMOTION (R455): a request in a place of the regulator's queue is served as level 8 from now on. -/
def execRequestAgePromotion (r : Regulator) (slot : Nat) (s : State) : Host.Outcome State Fault Refusal :=
  let x := s.reg r
  .next (s.setReg r { x with queue := x.queue.mapIdx (fun i q => if i = slot then { q with aged := true } else q) })

end Sys2Proof.Machine
end

