-- ==== Sys2Proof/Machine/VSlot.lean ====
section
/-! DEFINITION. The V slot (R61-R63, R75, R115-R125): each command issues its bundle with its own opcode in the slot. -/

namespace Sys2Proof.Machine

/-- VADD (R115): issue the bundle with opcode 0x01 in its V slot. -/
def execVadd (k : CoreId) (b : Bundle) (s : State) : Host.Outcome State Fault Refusal :=
  .next (s.issue k { b with v := { b.v with op := 0x01 } })

/-- VSUB (R115): issue the bundle with opcode 0x02 in its V slot. -/
def execVsub (k : CoreId) (b : Bundle) (s : State) : Host.Outcome State Fault Refusal :=
  .next (s.issue k { b with v := { b.v with op := 0x02 } })

/-- VMUL (R115): issue the bundle with opcode 0x03 in its V slot. -/
def execVmul (k : CoreId) (b : Bundle) (s : State) : Host.Outcome State Fault Refusal :=
  .next (s.issue k { b with v := { b.v with op := 0x03 } })

/-- VFMA (R115): issue the bundle with opcode 0x04 in its V slot. -/
def execVfma (k : CoreId) (b : Bundle) (s : State) : Host.Outcome State Fault Refusal :=
  .next (s.issue k { b with v := { b.v with op := 0x04 } })

/-- VMAX (R116): issue the bundle with opcode 0x05 in its V slot. -/
def execVmax (k : CoreId) (b : Bundle) (s : State) : Host.Outcome State Fault Refusal :=
  .next (s.issue k { b with v := { b.v with op := 0x05 } })

/-- VMIN (R116): issue the bundle with opcode 0x06 in its V slot. -/
def execVmin (k : CoreId) (b : Bundle) (s : State) : Host.Outcome State Fault Refusal :=
  .next (s.issue k { b with v := { b.v with op := 0x06 } })

/-- VABS (R116): issue the bundle with opcode 0x07 in its V slot. -/
def execVabs (k : CoreId) (b : Bundle) (s : State) : Host.Outcome State Fault Refusal :=
  .next (s.issue k { b with v := { b.v with op := 0x07 } })

/-- VNEG (R116): issue the bundle with opcode 0x08 in its V slot. -/
def execVneg (k : CoreId) (b : Bundle) (s : State) : Host.Outcome State Fault Refusal :=
  .next (s.issue k { b with v := { b.v with op := 0x08 } })

/-- VCMP (R116): issue the bundle with opcode 0x09 in its V slot. -/
def execVcmp (k : CoreId) (b : Bundle) (s : State) : Host.Outcome State Fault Refusal :=
  .next (s.issue k { b with v := { b.v with op := 0x09 } })

/-- VSEL (R61): issue the bundle with opcode 0x0a in its V slot. -/
def execVsel (k : CoreId) (b : Bundle) (s : State) : Host.Outcome State Fault Refusal :=
  .next (s.issue k { b with v := { b.v with op := 0x0a } })

/-- VLOGIC (R61): issue the bundle with opcode 0x0b in its V slot. -/
def execVlogic (k : CoreId) (b : Bundle) (s : State) : Host.Outcome State Fault Refusal :=
  .next (s.issue k { b with v := { b.v with op := 0x0b } })

/-- VIADD (R61): issue the bundle with opcode 0x0c in its V slot. -/
def execViadd (k : CoreId) (b : Bundle) (s : State) : Host.Outcome State Fault Refusal :=
  .next (s.issue k { b with v := { b.v with op := 0x0c } })

/-- VISHIFT (R61): issue the bundle with opcode 0x0d in its V slot. -/
def execVishift (k : CoreId) (b : Bundle) (s : State) : Host.Outcome State Fault Refusal :=
  .next (s.issue k { b with v := { b.v with op := 0x0d } })

/-- VCVT (R118): issue the bundle with opcode 0x10 in its V slot. -/
def execVcvt (k : CoreId) (b : Bundle) (s : State) : Host.Outcome State Fault Refusal :=
  .next (s.issue k { b with v := { b.v with op := 0x10 } })

/-- VEXP2 (R63): issue the bundle with opcode 0x14 in its V slot. -/
def execVexp2 (k : CoreId) (b : Bundle) (s : State) : Host.Outcome State Fault Refusal :=
  .next (s.issue k { b with v := { b.v with op := 0x14 } })

/-- VLOG2 (R63): issue the bundle with opcode 0x15 in its V slot. -/
def execVlog2 (k : CoreId) (b : Bundle) (s : State) : Host.Outcome State Fault Refusal :=
  .next (s.issue k { b with v := { b.v with op := 0x15 } })

/-- VRCP (R63): issue the bundle with opcode 0x16 in its V slot. -/
def execVrcp (k : CoreId) (b : Bundle) (s : State) : Host.Outcome State Fault Refusal :=
  .next (s.issue k { b with v := { b.v with op := 0x16 } })

/-- VRSQ (R63): issue the bundle with opcode 0x17 in its V slot. -/
def execVrsq (k : CoreId) (b : Bundle) (s : State) : Host.Outcome State Fault Refusal :=
  .next (s.issue k { b with v := { b.v with op := 0x17 } })

/-- VTANH (R63): issue the bundle with opcode 0x18 in its V slot. -/
def execVtanh (k : CoreId) (b : Bundle) (s : State) : Host.Outcome State Fault Refusal :=
  .next (s.issue k { b with v := { b.v with op := 0x18 } })

/-- VERF (R63): issue the bundle with opcode 0x19 in its V slot. -/
def execVerf (k : CoreId) (b : Bundle) (s : State) : Host.Outcome State Fault Refusal :=
  .next (s.issue k { b with v := { b.v with op := 0x19 } })

/-- VSCAN (R61): issue the bundle with opcode 0x1c in its V slot. -/
def execVscan (k : CoreId) (b : Bundle) (s : State) : Host.Outcome State Fault Refusal :=
  .next (s.issue k { b with v := { b.v with op := 0x1c } })

/-- VRED (R61): issue the bundle with opcode 0x1d in its V slot. -/
def execVred (k : CoreId) (b : Bundle) (s : State) : Host.Outcome State Fault Refusal :=
  .next (s.issue k { b with v := { b.v with op := 0x1d } })

/-- VBCAST (R61): issue the bundle with opcode 0x1e in its V slot. -/
def execVbcast (k : CoreId) (b : Bundle) (s : State) : Host.Outcome State Fault Refusal :=
  .next (s.issue k { b with v := { b.v with op := 0x1e } })

/-- VEXTR (R61): issue the bundle with opcode 0x1f in its V slot. -/
def execVextr (k : CoreId) (b : Bundle) (s : State) : Host.Outcome State Fault Refusal :=
  .next (s.issue k { b with v := { b.v with op := 0x1f } })

/-- VLD (R61): issue the bundle with opcode 0x20 in its V slot. -/
def execVld (k : CoreId) (b : Bundle) (s : State) : Host.Outcome State Fault Refusal :=
  .next (s.issue k { b with v := { b.v with op := 0x20 } })

/-- VST (R123): issue the bundle with opcode 0x21 in its V slot. -/
def execVst (k : CoreId) (b : Bundle) (s : State) : Host.Outcome State Fault Refusal :=
  .next (s.issue k { b with v := { b.v with op := 0x21 } })

/-- VPERM (R61): issue the bundle with opcode 0x22 in its V slot. -/
def execVperm (k : CoreId) (b : Bundle) (s : State) : Host.Outcome State Fault Refusal :=
  .next (s.issue k { b with v := { b.v with op := 0x22 } })

/-- VMOVA (R61): issue the bundle with opcode 0x24 in its V slot. -/
def execVmova (k : CoreId) (b : Bundle) (s : State) : Host.Outcome State Fault Refusal :=
  .next (s.issue k { b with v := { b.v with op := 0x24 } })

/-- VMOVTA (R61): issue the bundle with opcode 0x25 in its V slot. -/
def execVmovta (k : CoreId) (b : Bundle) (s : State) : Host.Outcome State Fault Refusal :=
  .next (s.issue k { b with v := { b.v with op := 0x25 } })

/-- VRAND (R75): issue the bundle with opcode 0x26 in its V slot. -/
def execVrand (k : CoreId) (b : Bundle) (s : State) : Host.Outcome State Fault Refusal :=
  .next (s.issue k { b with v := { b.v with op := 0x26 } })

end Sys2Proof.Machine
end

