-- ==== Sys2Proof/Machine/XSlot.lean ====
section
/-! DEFINITION. The X slot (R69-R74, R152-R164, R567): each command issues its bundle with its own opcode in the slot. -/

namespace Sys2Proof.Machine

/-- DMA (R70): issue the bundle with opcode 0x01 in its X slot. -/
def execDma (k : CoreId) (b : Bundle) (s : State) : Host.Outcome State Fault Refusal :=
  .next (s.issue k { b with x := { b.x with op := 0x01 } })

/-- DMA_IX (R73): issue the bundle with opcode 0x02 in its X slot. -/
def execDmaIx (k : CoreId) (b : Bundle) (s : State) : Host.Outcome State Fault Refusal :=
  .next (s.issue k { b with x := { b.x with op := 0x02 } })

/-- WAIT_DMA (R54): issue the bundle with opcode 0x08 in its X slot. -/
def execWaitDma (k : CoreId) (b : Bundle) (s : State) : Host.Outcome State Fault Refusal :=
  .next (s.issue k { b with x := { b.x with op := 0x08 } })

/-- CNT_SET (R163): issue the bundle with opcode 0x09 in its X slot. -/
def execCntSet (k : CoreId) (b : Bundle) (s : State) : Host.Outcome State Fault Refusal :=
  .next (s.issue k { b with x := { b.x with op := 0x09 } })

/-- CNT_READ (R158): issue the bundle with opcode 0x0a in its X slot. -/
def execCntRead (k : CoreId) (b : Bundle) (s : State) : Host.Outcome State Fault Refusal :=
  .next (s.issue k { b with x := { b.x with op := 0x0a } })

/-- WAIT_CNT (R161): issue the bundle with opcode 0x0b in its X slot. -/
def execWaitCnt (k : CoreId) (b : Bundle) (s : State) : Host.Outcome State Fault Refusal :=
  .next (s.issue k { b with x := { b.x with op := 0x0b } })

/-- MSG (R567): issue the bundle with opcode 0x0c in its X slot. -/
def execMsg (k : CoreId) (b : Bundle) (s : State) : Host.Outcome State Fault Refusal :=
  .next (s.issue k { b with x := { b.x with op := 0x0c } })

/-- FENCE_ACQ (R154): issue the bundle with opcode 0x10 in its X slot. -/
def execFenceAcq (k : CoreId) (b : Bundle) (s : State) : Host.Outcome State Fault Refusal :=
  .next (s.issue k { b with x := { b.x with op := 0x10 } })

/-- FENCE_REL (R152): issue the bundle with opcode 0x11 in its X slot. -/
def execFenceRel (k : CoreId) (b : Bundle) (s : State) : Host.Outcome State Fault Refusal :=
  .next (s.issue k { b with x := { b.x with op := 0x11 } })

/-- FENCE_GLOBAL (R156): issue the bundle with opcode 0x12 in its X slot. -/
def execFenceGlobal (k : CoreId) (b : Bundle) (s : State) : Host.Outcome State Fault Refusal :=
  .next (s.issue k { b with x := { b.x with op := 0x12 } })

end Sys2Proof.Machine
end

