-- ==== Sys2Proof/Machine/Dispatch.lean ====
section
/-! DEFINITION. One arm per command of the table, each a direct call of its meaning. -/

namespace Sys2Proof.Machine

def exec (i : Instr) (s : State) : Host.Outcome State Fault Refusal :=
  match i with
  -- S slot (R57, R58)
  | .add k b => Sys2Proof.Machine.execAdd k b s
  | .addi k b => Sys2Proof.Machine.execAddi k b s
  | .sub k b => Sys2Proof.Machine.execSub k b s
  | .andOp k b => Sys2Proof.Machine.execAndOp k b s
  | .orOp k b => Sys2Proof.Machine.execOrOp k b s
  | .xorOp k b => Sys2Proof.Machine.execXorOp k b s
  | .lis k b => Sys2Proof.Machine.execLis k b s
  | .shl k b => Sys2Proof.Machine.execShl k b s
  | .shr k b => Sys2Proof.Machine.execShr k b s
  | .sra k b => Sys2Proof.Machine.execSra k b s
  | .shli k b => Sys2Proof.Machine.execShli k b s
  | .shri k b => Sys2Proof.Machine.execShri k b s
  | .srai k b => Sys2Proof.Machine.execSrai k b s
  | .mul k b => Sys2Proof.Machine.execMul k b s
  | .mulh k b => Sys2Proof.Machine.execMulh k b s
  | .div k b => Sys2Proof.Machine.execDiv k b s
  | .divu k b => Sys2Proof.Machine.execDivu k b s
  | .rem k b => Sys2Proof.Machine.execRem k b s
  | .remu k b => Sys2Proof.Machine.execRemu k b s
  | .minOp k b => Sys2Proof.Machine.execMinOp k b s
  | .maxOp k b => Sys2Proof.Machine.execMaxOp k b s
  | .minu k b => Sys2Proof.Machine.execMinu k b s
  | .maxu k b => Sys2Proof.Machine.execMaxu k b s
  | .cmp k c b => Sys2Proof.Machine.execCmp k c b s
  | .li k b => Sys2Proof.Machine.execLi k b s
  | .movs k b => Sys2Proof.Machine.execMovs k b s
  | .wrs k b => Sys2Proof.Machine.execWrs k b s
  | .pmov k b => Sys2Proof.Machine.execPmov k b s
  | .setp k b => Sys2Proof.Machine.execSetp k b s
  -- B slot (R59, R60)
  | .br k b => Sys2Proof.Machine.execBr k b s
  | .brz k b => Sys2Proof.Machine.execBrz k b s
  | .brnz k b => Sys2Proof.Machine.execBrnz k b s
  | .call k b => Sys2Proof.Machine.execCall k b s
  | .jr k b => Sys2Proof.Machine.execJr k b s
  | .ld k mw b => Sys2Proof.Machine.execLd k mw b s
  | .ldSigned k sw b => Sys2Proof.Machine.execLdSigned k sw b s
  | .st k mw b => Sys2Proof.Machine.execSt k mw b s
  | .ldV k b => Sys2Proof.Machine.execLdV k b s
  | .halt k b => Sys2Proof.Machine.execHalt k b s
  -- V slot (R61, R63, R75, R115-R125)
  | .vadd k b => Sys2Proof.Machine.execVadd k b s
  | .vsub k b => Sys2Proof.Machine.execVsub k b s
  | .vmul k b => Sys2Proof.Machine.execVmul k b s
  | .vfma k b => Sys2Proof.Machine.execVfma k b s
  | .vmax k b => Sys2Proof.Machine.execVmax k b s
  | .vmin k b => Sys2Proof.Machine.execVmin k b s
  | .vabs k b => Sys2Proof.Machine.execVabs k b s
  | .vneg k b => Sys2Proof.Machine.execVneg k b s
  | .vcmp k b => Sys2Proof.Machine.execVcmp k b s
  | .vsel k b => Sys2Proof.Machine.execVsel k b s
  | .vlogic k b => Sys2Proof.Machine.execVlogic k b s
  | .viadd k b => Sys2Proof.Machine.execViadd k b s
  | .vishift k b => Sys2Proof.Machine.execVishift k b s
  | .vcvt k b => Sys2Proof.Machine.execVcvt k b s
  | .vexp2 k b => Sys2Proof.Machine.execVexp2 k b s
  | .vlog2 k b => Sys2Proof.Machine.execVlog2 k b s
  | .vrcp k b => Sys2Proof.Machine.execVrcp k b s
  | .vrsq k b => Sys2Proof.Machine.execVrsq k b s
  | .vtanh k b => Sys2Proof.Machine.execVtanh k b s
  | .verf k b => Sys2Proof.Machine.execVerf k b s
  | .vscan k b => Sys2Proof.Machine.execVscan k b s
  | .vred k b => Sys2Proof.Machine.execVred k b s
  | .vbcast k b => Sys2Proof.Machine.execVbcast k b s
  | .vextr k b => Sys2Proof.Machine.execVextr k b s
  | .vld k b => Sys2Proof.Machine.execVld k b s
  | .vst k b => Sys2Proof.Machine.execVst k b s
  | .vperm k b => Sys2Proof.Machine.execVperm k b s
  | .vmova k b => Sys2Proof.Machine.execVmova k b s
  | .vmovta k b => Sys2Proof.Machine.execVmovta k b s
  | .vrand k b => Sys2Proof.Machine.execVrand k b s
  -- M slot and the matrix unit (R65-R68)
  | .mma k b => Sys2Proof.Machine.execMma k b s
  | .mmaPendingStart k => Sys2Proof.Machine.execMmaPendingStart k s
  | .mmaResult k => Sys2Proof.Machine.execMmaResult k s
  -- X slot (R69-R74, R152-R164, R567)
  | .dma k b => Sys2Proof.Machine.execDma k b s
  | .dmaIx k b => Sys2Proof.Machine.execDmaIx k b s
  | .waitDma k b => Sys2Proof.Machine.execWaitDma k b s
  | .cntSet k b => Sys2Proof.Machine.execCntSet k b s
  | .cntRead k b => Sys2Proof.Machine.execCntRead k b s
  | .waitCnt k b => Sys2Proof.Machine.execWaitCnt k b s
  | .msg k b => Sys2Proof.Machine.execMsg k b s
  | .fenceAcq k b => Sys2Proof.Machine.execFenceAcq k b s
  | .fenceRel k b => Sys2Proof.Machine.execFenceRel k b s
  | .fenceGlobal k b => Sys2Proof.Machine.execFenceGlobal k b s
  -- core and fabric events
  | .interlockRelease k => Sys2Proof.Machine.execInterlockRelease k s
  | .outsideReadArrives k o => Sys2Proof.Machine.execOutsideReadArrives k o s
  | .resultVisible k => Sys2Proof.Machine.execResultVisible k s
  | .storeLands k => Sys2Proof.Machine.execStoreLands k s
  | .coreStop k => Sys2Proof.Machine.execCoreStop k s
  | .dmaEntryStart k dq => Sys2Proof.Machine.execDmaEntryStart k dq s
  | .dmaTransactionComplete k dq tx o => Sys2Proof.Machine.execDmaTransactionComplete k dq tx o s
  | .remoteWriteLands id => Sys2Proof.Machine.execRemoteWriteLands id s
  | .writePerformed id => Sys2Proof.Machine.execWritePerformed id s
  | .countedArrival n => Sys2Proof.Machine.execCountedArrival n s
  | .fenceHeldWritesRelease k => Sys2Proof.Machine.execFenceHeldWritesRelease k s
  | .freezeComplete k => Sys2Proof.Machine.execFreezeComplete k s
  -- HBM channels and unravel (R169-R199)
  | .channelRead ch loc e => Sys2Proof.Machine.execChannelRead ch loc e s
  | .channelWrite ch loc data poison => Sys2Proof.Machine.execChannelWrite ch loc data poison s
  | .refresh ch bank => Sys2Proof.Machine.execRefresh ch bank s
  | .rfm ch bank => Sys2Proof.Machine.execRfm ch bank s
  | .frameDecode k dq frame e => Sys2Proof.Machine.execFrameDecode k dq frame e s
  | .tableRecordFetch ch p pla => Sys2Proof.Machine.execTableRecordFetch ch p pla s
  | .dataParityError ch lane => Sys2Proof.Machine.execDataParityError ch lane s
  | .laneFault ch => Sys2Proof.Machine.execLaneFault ch s
  | .trackerEntryFreed d stop => Sys2Proof.Machine.execTrackerEntryFreed d stop s
  -- the token loop (R200-R227)
  | .generateStepStart p c => Sys2Proof.Machine.execGenerateStepStart p c s
  | .stepProgramHalted p c => Sys2Proof.Machine.execStepProgramHalted p c s
  | .ringTailReread p c => Sys2Proof.Machine.execRingTailReread p c s
  | .keepAliveReread p c => Sys2Proof.Machine.execKeepAliveReread p c s
  -- composition (R228-R267)
  | .vdDefine ch pkt => Sys2Proof.Machine.execVdDefine ch pkt s
  | .vdCastOn ch pkt => Sys2Proof.Machine.execVdCastOn ch pkt s
  | .vdBindOff ch pkt => Sys2Proof.Machine.execVdBindOff ch pkt s
  | .vdCommit ch pkt => Sys2Proof.Machine.execVdCommit ch pkt s
  | .vdCommitDiscard ch pkt => Sys2Proof.Machine.execVdCommitDiscard ch pkt s
  | .vdQuery ch pkt => Sys2Proof.Machine.execVdQuery ch pkt s
  | .vdDissolve ch pkt => Sys2Proof.Machine.execVdDissolve ch pkt s
  | .wholeDeviceTake ch pkt => Sys2Proof.Machine.execWholeDeviceTake ch pkt s
  | .wholeDeviceRelease ch pkt => Sys2Proof.Machine.execWholeDeviceRelease ch pkt s
  | .commitPublish p => Sys2Proof.Machine.execCommitPublish p s
  | .graceWindowClose p => Sys2Proof.Machine.execGraceWindowClose p s
  | .revisionExpiredNotice p => Sys2Proof.Machine.execRevisionExpiredNotice p s
  | .targetRequest id => Sys2Proof.Machine.execTargetRequest id s
  | .movedReissue id => Sys2Proof.Machine.execMovedReissue id s
  -- the KV service (R268-R275)
  | .kvAlloc ch pkt => Sys2Proof.Machine.execKvAlloc ch pkt s
  | .kvFree ch pkt => Sys2Proof.Machine.execKvFree ch pkt s
  | .kvGrant ch pkt => Sys2Proof.Machine.execKvGrant ch pkt s
  | .kvQuery ch pkt => Sys2Proof.Machine.execKvQuery ch pkt s
  | .kvPut q => Sys2Proof.Machine.execKvPut q s
  | .kvGet q => Sys2Proof.Machine.execKvGet q s
  | .kvPutComplete q => Sys2Proof.Machine.execKvPutComplete q s
  | .kvGetComplete q => Sys2Proof.Machine.execKvGetComplete q s
  | .kvServiceFailure => Sys2Proof.Machine.execKvServiceFailure s
  | .kvServiceResetDone => Sys2Proof.Machine.execKvServiceResetDone s
  -- partitions, protection set-up, strip engine (R277-R299)
  | .partCreate ch pkt => Sys2Proof.Machine.execPartCreate ch pkt s
  | .partEnable ch pkt => Sys2Proof.Machine.execPartEnable ch pkt s
  | .partEnableUpdate ch pkt => Sys2Proof.Machine.execPartEnableUpdate ch pkt s
  | .partDisable ch pkt => Sys2Proof.Machine.execPartDisable ch pkt s
  | .partDestroy ch pkt => Sys2Proof.Machine.execPartDestroy ch pkt s
  | .partReset ch pkt => Sys2Proof.Machine.execPartReset ch pkt s
  | .partQuery ch pkt => Sys2Proof.Machine.execPartQuery ch pkt s
  | .partFreeze ch pkt => Sys2Proof.Machine.execPartFreeze ch pkt s
  | .partThaw ch pkt => Sys2Proof.Machine.execPartThaw ch pkt s
  | .partSave ch pkt => Sys2Proof.Machine.execPartSave ch pkt s
  | .partSaveSizeOnly ch pkt => Sys2Proof.Machine.execPartSaveSizeOnly ch pkt s
  | .partRestorePrepare ch pkt => Sys2Proof.Machine.execPartRestorePrepare ch pkt s
  | .partRestoreLoad ch pkt => Sys2Proof.Machine.execPartRestoreLoad ch pkt s
  | .teardownComplete p => Sys2Proof.Machine.execTeardownComplete p s
  | .prsLock v => Sys2Proof.Machine.execPrsLock v s
  | .stripComplete u => Sys2Proof.Machine.execStripComplete u s
  | .stripFailed u => Sys2Proof.Machine.execStripFailed u s
  | .mgtRequest t a => Sys2Proof.Machine.execMgtRequest t a s
  | .jtagAccess t => Sys2Proof.Machine.execJtagAccess t s
  | .copy q => Sys2Proof.Machine.execCopy q s
  | .copySeal q => Sys2Proof.Machine.execCopySeal q s
  | .copyUnseal q => Sys2Proof.Machine.execCopyUnseal q s
  | .copyComplete q => Sys2Proof.Machine.execCopyComplete q s
  -- host ports and translation (R307-R342)
  | .hdmWithdrawComplete ch => Sys2Proof.Machine.execHdmWithdrawComplete ch s
  | .linkTraining m ok => Sys2Proof.Machine.execLinkTraining m ok s
  | .d2dReplayTimeout lm => Sys2Proof.Machine.execD2dReplayTimeout lm s
  | .hostReplayTimeout port u => Sys2Proof.Machine.execHostReplayTimeout port u s
  | .ideIntegrityFailure port => Sys2Proof.Machine.execIdeIntegrityFailure port s
  | .hostPortRetrained port modules => Sys2Proof.Machine.execHostPortRetrained port modules s
  | .cxlMemRead port addr => Sys2Proof.Machine.execCxlMemRead port addr s
  | .cxlMemWrite port addr data poison => Sys2Proof.Machine.execCxlMemWrite port addr data poison s
  | .bisnpResponse ch line dirty => Sys2Proof.Machine.execBisnpResponse ch line dirty s
  | .bisnpTimeout ch line => Sys2Proof.Machine.execBisnpTimeout ch line s
  | .hostSnoop port line => Sys2Proof.Machine.execHostSnoop port line s
  | .walkComplete a => Sys2Proof.Machine.execWalkComplete a s
  | .walkerFreed pool w => Sys2Proof.Machine.execWalkerFreed pool w s
  | .faultBatchTimeout p c => Sys2Proof.Machine.execFaultBatchTimeout p c s
  | .dblFaultRetry port p v => Sys2Proof.Machine.execDblFaultRetry port p v s
  | .dblFaultFail port p v => Sys2Proof.Machine.execDblFaultFail port p v s
  | .invalTranslation q => Sys2Proof.Machine.execInvalTranslation q s
  | .invalTranslationComplete q => Sys2Proof.Machine.execInvalTranslationComplete q s
  | .dblRing port p page v => Sys2Proof.Machine.execDblRing port p page v s
  | .dblAbort port p c v => Sys2Proof.Machine.execDblAbort port p c v s
  | .admPeqEnable port v => Sys2Proof.Machine.execAdmPeqEnable port v s
  | .admPeqDisable port v => Sys2Proof.Machine.execAdmPeqDisable port v s
  | .admPeqConsumer port v => Sys2Proof.Machine.execAdmPeqConsumer port v s
  | .pf0Flr port => Sys2Proof.Machine.execPf0Flr port s
  | .vfFlr port p => Sys2Proof.Machine.execVfFlr port p s
  | .registerWrite r off data => Sys2Proof.Machine.execRegisterWrite r off data s
  -- admin queries and power (R32, R369-R372, R538-R545)
  | .identify ch pkt => Sys2Proof.Machine.execIdentify ch pkt s
  | .inventory ch pkt => Sys2Proof.Machine.execInventory ch pkt s
  | .status ch pkt => Sys2Proof.Machine.execStatus ch pkt s
  | .sensorsRead ch pkt => Sys2Proof.Machine.execSensorsRead ch pkt s
  | .logRead ch pkt => Sys2Proof.Machine.execLogRead ch pkt s
  | .powerCapSet ch pkt => Sys2Proof.Machine.execPowerCapSet ch pkt s
  | .powerCapGet ch pkt => Sys2Proof.Machine.execPowerCapGet ch pkt s
  | .energyRead ch pkt => Sys2Proof.Machine.execEnergyRead ch pkt s
  -- tension commands (R447-R451)
  | .tensionSetAllowances ch pkt => Sys2Proof.Machine.execTensionSetAllowances ch pkt s
  | .tensionSetLabels ch pkt => Sys2Proof.Machine.execTensionSetLabels ch pkt s
  | .tensionQuery ch pkt => Sys2Proof.Machine.execTensionQuery ch pkt s
  -- attestation, sessions, firmware (R495-R520)
  | .attestReportGenerate ch pkt => Sys2Proof.Machine.execAttestReportGenerate ch pkt s
  | .attestReportRead ch pkt => Sys2Proof.Machine.execAttestReportRead ch pkt s
  | .sessionOpen ch pkt => Sys2Proof.Machine.execSessionOpen ch pkt s
  | .sessionClose ch pkt => Sys2Proof.Machine.execSessionClose ch pkt s
  | .fwStageBegin ch pkt ok => Sys2Proof.Machine.execFwStageBegin ch pkt ok s
  | .fwStageWrite ch pkt ok => Sys2Proof.Machine.execFwStageWrite ch pkt ok s
  | .fwStageEnd ch pkt => Sys2Proof.Machine.execFwStageEnd ch pkt s
  | .fwStageAbort ch pkt => Sys2Proof.Machine.execFwStageAbort ch pkt s
  | .fwStageSessionTimeout => Sys2Proof.Machine.execFwStageSessionTimeout s
  | .activateMgt ch pkt => Sys2Proof.Machine.execActivateMgt ch pkt s
  | .activateDie ch pkt => Sys2Proof.Machine.execActivateDie ch pkt s
  | .commitSvn ch pkt => Sys2Proof.Machine.execCommitSvn ch pkt s
  | .handoverTimeout => Sys2Proof.Machine.execHandoverTimeout s
  | .fwQuery ch pkt => Sys2Proof.Machine.execFwQuery ch pkt s
  -- recovery commands (R485-R493)
  | .domainRecoverQuery ch pkt => Sys2Proof.Machine.execDomainRecoverQuery ch pkt s
  | .domainRecoverL1 ch pkt => Sys2Proof.Machine.execDomainRecoverL1 ch pkt s
  | .domainRecoverL2 ch pkt => Sys2Proof.Machine.execDomainRecoverL2 ch pkt s
  | .domainRecoverL3 ch pkt => Sys2Proof.Machine.execDomainRecoverL3 ch pkt s
  | .dumpCollect ch pkt => Sys2Proof.Machine.execDumpCollect ch pkt s
  | .dumpRead ch pkt => Sys2Proof.Machine.execDumpRead ch pkt s
  | .retireUnit ch pkt => Sys2Proof.Machine.execRetireUnit ch pkt s
  -- MCTP and I3C (R364, R365, R563)
  | .setEndpointId eid => Sys2Proof.Machine.execSetEndpointId eid s
  | .getEndpointId => Sys2Proof.Machine.execGetEndpointId s
  | .getMctpVersionSupport msgType => Sys2Proof.Machine.execGetMctpVersionSupport msgType s
  | .getMessageTypeSupport => Sys2Proof.Machine.execGetMessageTypeSupport s
  | .getVendorDefinedMessageSupport selector => Sys2Proof.Machine.execGetVendorDefinedMessageSupport selector s
  | .entdaa addr => Sys2Proof.Machine.execEntdaa addr s
  -- work packets and objects (R376-R415)
  | .launch q => Sys2Proof.Machine.execLaunch q s
  | .launchComplete q => Sys2Proof.Machine.execLaunchComplete q s
  | .generate q => Sys2Proof.Machine.execGenerate q s
  | .fill q => Sys2Proof.Machine.execFill q s
  | .signal q => Sys2Proof.Machine.execSignal q s
  | .wait q => Sys2Proof.Machine.execWait q s
  | .waitSatisfied q => Sys2Proof.Machine.execWaitSatisfied q s
  | .barrier q => Sys2Proof.Machine.execBarrier q s
  | .barrierComplete q => Sys2Proof.Machine.execBarrierComplete q s
  | .refAdd q => Sys2Proof.Machine.execRefAdd q s
  | .refDrop q => Sys2Proof.Machine.execRefDrop q s
  | .nop q => Sys2Proof.Machine.execNop q s
  | .dirSet p => Sys2Proof.Machine.execDirSet p s
  | .ctxCreate p => Sys2Proof.Machine.execCtxCreate p s
  | .ctxDestroy p => Sys2Proof.Machine.execCtxDestroy p s
  | .contextTeardownStep p c => Sys2Proof.Machine.execContextTeardownStep p c s
  | .queueSet p => Sys2Proof.Machine.execQueueSet p s
  | .queueCtlResume p => Sys2Proof.Machine.execQueueCtlResume p s
  | .queueCtlFlush p => Sys2Proof.Machine.execQueueCtlFlush p s
  | .queueCtlFlushResume p => Sys2Proof.Machine.execQueueCtlFlushResume p s
  | .queueCtlDisable p => Sys2Proof.Machine.execQueueCtlDisable p s
  | .evqSet p => Sys2Proof.Machine.execEvqSet p s
  | .evqSetDisable p => Sys2Proof.Machine.execEvqSetDisable p s
  | .fenceCreate p => Sys2Proof.Machine.execFenceCreate p s
  | .fenceDestroy p => Sys2Proof.Machine.execFenceDestroy p s
  | .memobjCreate p => Sys2Proof.Machine.execMemobjCreate p s
  | .memobjFree p => Sys2Proof.Machine.execMemobjFree p s
  | .memobjZeroingComplete p idx => Sys2Proof.Machine.execMemobjZeroingComplete p idx s
  | .evqClaim port p fast q => Sys2Proof.Machine.execEvqClaim port p fast q s
  | .evqComplete port p fast q v => Sys2Proof.Machine.execEvqComplete port p fast q v s
  -- scheduling (R417-R434)
  | .contextResident p c => Sys2Proof.Machine.execContextResident p c s
  | .sliceEnd p c => Sys2Proof.Machine.execSliceEnd p c s
  | .contextSwitch p c => Sys2Proof.Machine.execContextSwitch p c s
  | .switchRestore p c => Sys2Proof.Machine.execSwitchRestore p c s
  | .fabricCompletion d entry tag part gen => Sys2Proof.Machine.execFabricCompletion d entry tag part gen s
  -- tension regulators (R452-R459)
  | .tensionWindowEnd r obs => Sys2Proof.Machine.execTensionWindowEnd r obs s
  | .tensionStateUpdate r arrived q => Sys2Proof.Machine.execTensionStateUpdate r arrived q s
  | .requestAgePromotion r slot => Sys2Proof.Machine.execRequestAgePromotion r slot s
  -- faults and recovery (R463-R484)
  | .clusterControlError cl => Sys2Proof.Machine.execClusterControlError cl s
  | .dieControlError d => Sys2Proof.Machine.execDieControlError d s
  | .hubControlError => Sys2Proof.Machine.execHubControlError s
  | .tapeOffDrainEnd d => Sys2Proof.Machine.execTapeOffDrainEnd d s
  | .dumpAccessTimeout d unit => Sys2Proof.Machine.execDumpAccessTimeout d unit s
  | .dumpComplete d => Sys2Proof.Machine.execDumpComplete d s
  | .domainResetComplete d ok => Sys2Proof.Machine.execDomainResetComplete d ok s
  | .domainRestored d => Sys2Proof.Machine.execDomainRestored d s
  | .fabricTransactionTimeout t => Sys2Proof.Machine.execFabricTransactionTimeout t s
  | .progressSample d => Sys2Proof.Machine.execProgressSample d s
  | .watchdogExpired p c => Sys2Proof.Machine.execWatchdogExpired p c s
  | .coreHung cl => Sys2Proof.Machine.execCoreHung cl s
  | .sequencerWatchMiss d => Sys2Proof.Machine.execSequencerWatchMiss d s
  | .mgtWatchdogService => Sys2Proof.Machine.execMgtWatchdogService s
  | .mgtWatchdogWarning => Sys2Proof.Machine.execMgtWatchdogWarning s
  | .mgtWatchdogExpiry => Sys2Proof.Machine.execMgtWatchdogExpiry s
  | .startFailure => Sys2Proof.Machine.execStartFailure s
  -- management interrupts, sensors, log, fuses (R496-R501)
  | .mgtIrqSourceRaise src => Sys2Proof.Machine.execMgtIrqSourceRaise src s
  | .mgtIrqClaim core fast => Sys2Proof.Machine.execMgtIrqClaim core fast s
  | .mgtIrqComplete core fast v => Sys2Proof.Machine.execMgtIrqComplete core fast v s
  | .sensorRound readings => Sys2Proof.Machine.execSensorRound readings s
  | .thermalStepDown => Sys2Proof.Machine.execThermalStepDown s
  | .thermalStepBack => Sys2Proof.Machine.execThermalStepBack s
  | .logSecondEnd => Sys2Proof.Machine.execLogSecondEnd s
  | .logFlashCopy => Sys2Proof.Machine.execLogFlashCopy s
  | .fuseOperationDone ok => Sys2Proof.Machine.execFuseOperationDone ok s
  -- power and clocks (R522-R545)
  | .powerLoopStep estimate => Sys2Proof.Machine.execPowerLoopStep estimate s
  | .railSample rails => Sys2Proof.Machine.execRailSample rails s
  | .vtrimUpdate wanted => Sys2Proof.Machine.execVtrimUpdate wanted s
  | .railSettled d => Sys2Proof.Machine.execRailSettled d s
  | .pllLossOfLock => Sys2Proof.Machine.execPllLossOfLock s
  | .refclkStable b => Sys2Proof.Machine.execRefclkStable b s
  | .linkPllLossOfLock mods => Sys2Proof.Machine.execLinkPllLossOfLock mods s
  | .thermtrip => Sys2Proof.Machine.execThermtrip s
  -- package and start-up (R547-R564)
  | .vin36Rise b => Sys2Proof.Machine.execVin36Rise b s
  | .vin36Undervoltage => Sys2Proof.Machine.execVin36Undervoltage s
  | .vin36Overvoltage => Sys2Proof.Machine.execVin36Overvoltage s
  | .railOutOfRegulation => Sys2Proof.Machine.execRailOutOfRegulation s
  | .rstNAssert => Sys2Proof.Machine.execRstNAssert s
  | .rstNRelease b => Sys2Proof.Machine.execRstNRelease b s
  | .vin36OvervoltageRestart b => Sys2Proof.Machine.execVin36OvervoltageRestart b s
  | .managementError => Sys2Proof.Machine.execManagementError s
  | .bcRequestMessage packets => Sys2Proof.Machine.execBcRequestMessage packets s

end Sys2Proof.Machine
end

