-- ==== Sys2Proof/Machine/Tick.lean ====
section
/-! DEFINITION. One tick of the die reference count (R522-R526, R542), which is what a step does when no command waits: clusters
whose CLK_CORE falls in it run a cycle, and their cores issue from instruction memory (log entry 1). -/

namespace Sys2Proof.Machine

/-- A core's turn in a cluster cycle: a held bundle is offered again; otherwise the bundle at the PC issues, but not in a gap
cycle (R54, R542). -/
def State.coreTurn (s : State) (k : CoreId) : State :=
  let cl := s.cl k.cl
  let c := cl.co k.core
  match cl.ctx with
  | none => s
  | some h =>
    if !c.ready || s.clTaped k.cl || decide (cl.cycle < c.nextFree) || decide (cl.issueCycle cl.cycle ≠ cl.cycle) then s
    else
      match c.held with
      | some b => s.offer k h b
      | none => s.offer k h (bundleOf (tabGet 0 c.imem c.pc))

/-- A core that has no bundle to issue meets the fault that is left for its boundary (R66, R74). -/
def State.lateFault (s : State) (k : CoreId) : State :=
  let c := s.core k
  match c.run with
  | .halting | .stopped => s.boundary k
  | _ => if c.fzDone then s.boundary k else s

/-- One CLK_CORE cycle of cluster `ci`: results land, then its cores issue. -/
def State.clusterCycle (s : State) (ci : Nat) : State :=
  let s := (s.updCl ci (fun c => c.tick ci)).caughtUp ci
  ((s.cl ci).cores.map (fun e => e.1)).foldl (fun s i =>
    match coreIdOf ci i with | some k => (s.lateFault k).coreTurn k | none => s) s

/-- The context's time is measured (R431): a LAUNCH, GENERATE, KV_PUT or KV_GET of it is in progress, and it is not blocked, frozen or
waiting to be resident. -/
def State.measures (s : State) (p c : Nat) : Bool :=
  let x := s.ctx p c
  let program := x.packets.any (fun r => r.typ == 1 || r.typ == 2)
  x.packets.any (fun r => hasNat [1, 2, 0x0B, 0x0C] r.typ) && !s.ctxBlocked p c && !x.frozen && (x.resident || !program)

/-- One tick more of MEASURED time. -/
def CtxSt.measured (x : CtxSt) : CtxSt := { x with stats := { x.stats with slow := { x.stats.slow with measured := x.stats.slow.measured + 1 } } }

/-- MEASURED time of a partition's contexts (R431), in ticks. -/
def State.measure (s : State) (p : Nat) : State :=
  if (s.part p).pstate = .enabled then
    ((s.part p).ctxs.filter (fun e => s.measures p e.1)).foldl (fun s e => s.updCtx p e.1 CtxSt.measured) s
  else s

/-- Host lines are held for a merge for at most 1 us (R325). -/
def PortSt.releaseLines (h : PortSt) (now : Nat) : PortSt := { h with heldLines := h.heldLines.filter (fun e => decide (now ≤ e.2 + 1700)) }

/-- Freezes that are complete post their batches (R339), and records that wait for a queue are written (R341, R407). -/
def State.faultsSettle (s : State) (p : Nat) : State :=
  (((s.part p).ctxs.map (fun e => e.1)).foldl (fun s c => s.frozenPost p c) s).evqPushAll p

/-- What the hub does whenever it can: it posts the uncorrectable reads of its own agents (R173), lets go what waits at a stop (R179, R454),
posts the faults of freezes that are complete, keeps the directory's copies of its state (R380, R397), completes a PART_FREEZE whose
contexts have frozen (R437), starts a reset that waited (R435, R473), and answers packets of no row that waited (R359). -/
def State.upkeep (s : State) : State :=
  let s := s.postReports.sendAll
  let s := (s.parts.map (fun e => e.1)).foldl (fun s p =>
    if (s.part p).present then ((s.faultsSettle p).keepAll p).freezeSettle p else s) s
  let s := s.ports.foldl (fun s e => e.2.flrs.foldl (fun s p => s.flrStart e.1 p) s) s
  let s := ((s.parts.filter (fun e => e.2.lostReset)).map (fun e => e.1)).foldl State.resetLost s
  (natRange 0 5).foldl (fun s ch => if s.admWaiting ch then s.admRunRowless ch else s) s

/-- One tick of a cluster's reference count: a CLK_CORE cycle where an edge falls in it. -/
def State.clusterTick (s : State) (ci : Nat) : State :=
  if coreEdge (s.cl ci).op (s.cl ci).ref then s.clusterCycle ci else s.updCl ci (fun c => { c with ref := c.ref + 1 })

/-- A word of a partition's FIFOs of packets, events and fences may fail its parity at any time: which do is a free value (R396, log entry
73). -/
def State.parityDraw (s : State) (p : Nat) : State :=
  match s.fresh with
  | (f, s) => s.updPart p (fun x => { x with badPacket := x.badPacket || f.testBit 0, badEvent := x.badEvent || f.testBit 1,
                                             badFence := x.badFence || f.testBit 2 })

/-- One tick of the reference count, of the package and of every cluster. -/
def State.tickUp (s : State) : State :=
  let s := { s with ticks := s.ticks + 1, ports := s.ports.map (fun (e : Nat × PortSt) => (e.1, e.2.releaseLines s.ticks)) }
  let s := ((s.parts.filter (fun e => e.2.present)).map (fun e => e.1)).foldl State.parityDraw s
  let s := (s.parts.map (fun e => e.1)).foldl State.measure s
  ((s.clusters.map (fun e => e.1)).foldl State.clusterTick s).upkeep

/-- A tick: no clock of the part runs while it is off, tripped or in reset (R537, R554, R556). -/
def State.tick (s : State) : State := s.whileUp State.tickUp

end Sys2Proof.Machine
end

