-- ==== Sys2Proof/Machine/Views.lean ====
section
/-! DEFINITION. Reads of registers (R8, R10): the admin area and the port registers of PF0 (R313, R315, R319, R345, R346), the pages and
banks of a VF (R312, R314, R316, R409), the protection set-up (R285) and the management cores' interrupt registers (R497). A read has no
effect but that of the claim registers, which are commands of their own, so these are functions of the state. -/

namespace Sys2Proof.Machine

/-- BUSY of ADM_STATUS (R346), whose READY is MEM_ACTIVE of R315. -/
def State.admReady (s : State) : Bool := decide (s.phase = .ready)

/-- ADM_STATUS (R346). -/
def State.admStatus (s : State) (ch : Nat) : Nat :=
  let a := s.admch ch
  a.accepted * 2 ^ 32 + a.lastRing * 2 ^ 24 + a.replyStatus * 2 ^ 16 + bnat s.admReady * 16 + bnat a.deviceBusy * 8 + bnat a.running * 4
    + bnat (a.running || a.deviceBusy || !s.admReady) * 2 + bnat a.replyValid

/-- ADM_COUNTS (R346). -/
def State.admCounts (s : State) (ch : Nat) : Nat := (s.admch ch).droppedBusy * 2 ^ 32 + (s.admch ch).droppedForm

/-- ADM_PORT_STATUS (R315). -/
def State.portStatus (s : State) (port : Nat) : Nat := bnat s.admReady * 4 + (s.port port).modules

/-- An 8-byte register of PF0 above the buffers (R315, R319, R345); write-only and reserved ones read zero. -/
def State.pf0Reg (s : State) (port off : Nat) : Nat :=
  let h := s.port port
  if off = 0x2008 then s.admStatus port
  else if off = 0x2010 then s.admCounts port
  else if off = 0x4000 then s.portStatus port
  else if off = 0x4008 then h.stray
  else if off = 0x4040 then h.peqRing
  else if off = 0x4048 then bnat h.peqEnable * 2 ^ 31 + h.peqLog2
  else if off = 0x4050 then h.peqProducer
  else if off = 0x4058 then h.peqConsumer
  else if off = 0x4060 then h.peqLost
  else 0

/-- A read of `n` bytes of BAR0 of PF0: the buffers take accesses of any size and alignment, the registers aligned 8-byte ones (R345). -/
def State.pf0Read (s : State) (port off n : Nat) : List Byte :=
  if !s.sites.testBit port then zeros n
  else if off < 0x1000 then memRead (s.admch port).cmd off n
  else if off < 0x2000 then padTo n ((s.admch port).reply.drop (off - 0x1000))
  else if 0x3000 ≤ off ∧ off < 0x3020 then s.msi.read port 0 2 (off - 0x3000) n
  else if n = 8 ∧ off = 0x3800 then leBytes 8 (s.msi.pba port 0 0)
  else if n = 8 ∧ off % 8 = 0 then leBytes 8 (s.pf0Reg port off)
  else zeros n

/-- DBL_STATUS (R316). -/
def State.dblStatus (s : State) (p c : Nat) : Nat :=
  let x := s.ctx p c
  x.reason * 2 ^ 48 + bnat (x.state == 2) * 4 + bnat x.faultWait * 2 + bnat (x.state != 0)

/-- A register of a context's doorbell page or of the partition page (R316). -/
def State.dblReg (s : State) (p : Nat) (page : Option (Fin 256)) (off : Nat) : Nat :=
  match page with
  | some c => if off = 0x10 then s.dblStatus p c else 0
  | none =>
    if off = 0x18 then (s.part p).faultIgnored * 2 ^ 32 + (s.part p).dropped
    else if off = 0x20 then (s.part p).hdmRefused
    else 0

/-- EVQ_PENDING of a class (R409): queues that hold unclaimed records. -/
def State.evqPending (s : State) (p : Nat) (fast : Bool) : Nat :=
  (natRange 0 64).foldl (fun a q =>
    let e := (s.part p).evq q
    if e.enabled ∧ e.fast = fast ∧ !e.unclaimed.isEmpty then a + 2 ^ q else a) 0

/-- MGT_IRQ_PENDING of a class (R497). -/
def State.irqPending (s : State) (fast : Bool) : Nat :=
  (natRange 0 64).foldl (fun a x =>
    if (hasNat s.irq.pending x || s.irq.claimed.any (fun y => decide (y.1 = x))) && ((tabGet 0 s.irq.cfg x).testBit 4 == fast)
    then a + 2 ^ x else a) 0

/-- A read of `n` bytes of a register space (R8): a VF that its port does not serve reads all ones (R312); a write-only or reserved register
reads zero (R10), and so does an access that is not one aligned register. -/
def State.spaceRead (s : State) (r : RegSpace) (off n : Nat) : List Byte :=
  let one (v : Nat) : List Byte := if n = 8 ∧ off % 8 = 0 then leBytes 8 v else zeros n
  let vf (port p : Nat) (v : Nat) : List Byte := if s.vfServes port p then one v else List.replicate n 0xFF#8
  match r with
  | .pf0 port => s.pf0Read port off n
  | .sriov port => padTo n ((s.sriovBytes port).drop off)
  | .vfBar0 port p => if s.vfServes port p then zeros n else List.replicate n 0xFF#8
  | .doorbellPage port p c => vf port p (s.dblReg p (some c) off)
  | .partitionPage port p => vf port p (s.dblReg p none off)
  | .claimBank port p fast => vf port p (if off = 0x400 then s.evqPending p fast else 0)
  | .vfMsix port p =>
    if !s.vfServes port p then List.replicate n 0xFF#8
    else if off < 0x800 then s.msi.read port (p.val + 1) 128 off n
    else if off = 0x1000 then one (s.msi.pba port (p.val + 1) 0)
    else if off = 0x1008 then one (s.msi.pba port (p.val + 1) 1)
    else zeros n
  | .hdmBase port => one ((s.port port).hdmBase.getD 0)
  | .protection => padTo n (s.prs.regs.drop off)
  | .management =>
    one (if off < 0x200 then tabGet 0 s.irq.cfg (off / 8)
         else if off = 0x210 then s.irqPending false else if off = 0x310 then s.irqPending true else 0)

/-- A register read (R8, R314): a VF's BAR0 is read in its pages and banks, and reads zero between them. -/
def State.regRead (s : State) (r : RegSpace) (off n : Nat) : List Byte :=
  match regPlace r off with
  | some x => s.spaceRead x.1 x.2 n
  | none => s.spaceRead r off n

end Sys2Proof.Machine
end

