-- ==== Sys2Proof/Safety.lean ====
section
/-! DEFINITION. The form in which every memory of the device is kept, and the states in which no core has faulted. -/

namespace Sys2Proof.Machine

/-- Every memory of a cluster is in canonical form: cluster memory and the scratchpads of its cores. -/
def ClusterSt.memOk (c : ClusterSt) : Bool := Mem.wf c.cmem && c.cores.all (fun e => Mem.wf e.2.scratch)

/-- Every memory of a partition's saved contexts is in canonical form (R423). -/
def PartSt.memOk (x : PartSt) : Bool := x.ctxs.all (fun e => e.2.savedCls.all ClusterSt.memOk)

/-- Every memory of the package is in canonical form: clusters, HBM channels, host memory, the command buffers, the SRAM of management, and
what is kept of saved contexts. -/
def State.memOk (s : State) : Bool :=
  s.clusters.all (fun e => e.2.memOk) && s.channels.all (fun e => Mem.wf e.2.mem) && s.ports.all (fun e => Mem.wf e.2.mem)
    && s.adm.all (fun e => Mem.wf e.2.cmd) && Mem.wf s.mgtSram && s.parts.all (fun e => e.2.memOk)

/-- The cores of a cluster without a fault pending at a boundary or a stopped program: each one idle, running or halted. -/
def ClusterSt.faultFree (c : ClusterSt) : Bool :=
  c.cores.all (fun e => (match e.2.run with | .faulted _ => false | _ => true) && e.2.pendFault.isNone)

/-- No core of the package is at a fault: what a safe run keeps. -/
def State.safe (s : State) : Bool := s.clusters.all (fun e => e.2.faultFree)

end Sys2Proof.Machine
end

