-- ==== Sys2Proof/WellFormed.lean ====
section
/-! DEFINITION. Well-formed commands: what a command carries has the form the manual gives it. A core's operation carries a bundle of
the defined format whose slot holds the operation (R42, R50); an admin command carries a packet of its opcode, as long as its header
says (R354, R357); data have their access's length (R6, R170, R320, R530). `exec` answers for every command, well-formed or not. -/

namespace Sys2Proof

open Sys2Proof.Machine (fieldAt)

/-- What the checks look at: the core and bundle, the slot's opcode and the row's; an admin packet, the row's opcode and, where an opcode has
several rows, the parameter byte, mask and value that name this one; or a condition on the operands. -/
inductive Shape where
  | bundle (k : CoreId) (b : Bundle) (has op : Nat)
  | admin (pkt : List Byte) (op : Nat) (sub : Option (Nat × Nat × Nat))
  | plain (ok : Bool)
  deriving DecidableEq, Repr

/-- Opcode of a compare (R57). -/
def cmpOf : CmpOp → Nat
  | .eq => 0x20 | .ne => 0x21 | .lt => 0x22 | .ltu => 0x23 | .ge => 0x24 | .geu => 0x25

/-- Opcode of LD by width (R59). -/
def ldOf : MemWidth → Nat
  | .b => 0x08 | .h => 0x09 | .w => 0x0A | .d => 0x0B

/-- Opcode of a sign-extending load by width (R59). -/
def ldSignedOf : SignedWidth → Nat
  | .b => 0x0C | .h => 0x0D | .w => 0x0E

/-- Opcode of ST by width (R59). -/
def stOf : MemWidth → Nat
  | .b => 0x10 | .h => 0x11 | .w => 0x12 | .d => 0x13

/-- A register write is of 1, 2, 4 or 8 bytes (R8). -/
def hasWidth (n : Nat) : Bool := n == 1 || n == 2 || n == 4 || n == 8

/-- The shape of a command. -/
def Instr.shape : Instr → Shape
  | .add k b => .bundle k b b.s.op.toNat 0x01
  | .addi k b => .bundle k b b.s.op.toNat 0x02
  | .sub k b => .bundle k b b.s.op.toNat 0x03
  | .andOp k b => .bundle k b b.s.op.toNat 0x04
  | .orOp k b => .bundle k b b.s.op.toNat 0x05
  | .xorOp k b => .bundle k b b.s.op.toNat 0x06
  | .lis k b => .bundle k b b.s.op.toNat 0x07
  | .shl k b => .bundle k b b.s.op.toNat 0x08
  | .shr k b => .bundle k b b.s.op.toNat 0x09
  | .sra k b => .bundle k b b.s.op.toNat 0x0a
  | .shli k b => .bundle k b b.s.op.toNat 0x0b
  | .shri k b => .bundle k b b.s.op.toNat 0x0c
  | .srai k b => .bundle k b b.s.op.toNat 0x0d
  | .mul k b => .bundle k b b.s.op.toNat 0x10
  | .mulh k b => .bundle k b b.s.op.toNat 0x11
  | .div k b => .bundle k b b.s.op.toNat 0x12
  | .divu k b => .bundle k b b.s.op.toNat 0x13
  | .rem k b => .bundle k b b.s.op.toNat 0x14
  | .remu k b => .bundle k b b.s.op.toNat 0x15
  | .minOp k b => .bundle k b b.s.op.toNat 0x18
  | .maxOp k b => .bundle k b b.s.op.toNat 0x19
  | .minu k b => .bundle k b b.s.op.toNat 0x1a
  | .maxu k b => .bundle k b b.s.op.toNat 0x1b
  | .cmp k c b => .bundle k b b.s.op.toNat (cmpOf c)
  | .li k b => .bundle k b b.s.op.toNat 0x28
  | .movs k b => .bundle k b b.s.op.toNat 0x30
  | .wrs k b => .bundle k b b.s.op.toNat 0x31
  | .pmov k b => .bundle k b b.s.op.toNat 0x32
  | .setp k b => .bundle k b b.s.op.toNat 0x33
  | .br k b => .bundle k b b.b.op.toNat 0x01
  | .brz k b => .bundle k b b.b.op.toNat 0x02
  | .brnz k b => .bundle k b b.b.op.toNat 0x03
  | .call k b => .bundle k b b.b.op.toNat 0x05
  | .jr k b => .bundle k b b.b.op.toNat 0x06
  | .ld k mw b => .bundle k b b.b.op.toNat (ldOf mw)
  | .ldSigned k sw b => .bundle k b b.b.op.toNat (ldSignedOf sw)
  | .st k mw b => .bundle k b b.b.op.toNat (stOf mw)
  | .ldV k b => .bundle k b b.b.op.toNat 0x14
  | .halt k b => .bundle k b b.b.op.toNat 0x18
  | .vadd k b => .bundle k b b.v.op.toNat 0x01
  | .vsub k b => .bundle k b b.v.op.toNat 0x02
  | .vmul k b => .bundle k b b.v.op.toNat 0x03
  | .vfma k b => .bundle k b b.v.op.toNat 0x04
  | .vmax k b => .bundle k b b.v.op.toNat 0x05
  | .vmin k b => .bundle k b b.v.op.toNat 0x06
  | .vabs k b => .bundle k b b.v.op.toNat 0x07
  | .vneg k b => .bundle k b b.v.op.toNat 0x08
  | .vcmp k b => .bundle k b b.v.op.toNat 0x09
  | .vsel k b => .bundle k b b.v.op.toNat 0x0a
  | .vlogic k b => .bundle k b b.v.op.toNat 0x0b
  | .viadd k b => .bundle k b b.v.op.toNat 0x0c
  | .vishift k b => .bundle k b b.v.op.toNat 0x0d
  | .vcvt k b => .bundle k b b.v.op.toNat 0x10
  | .vexp2 k b => .bundle k b b.v.op.toNat 0x14
  | .vlog2 k b => .bundle k b b.v.op.toNat 0x15
  | .vrcp k b => .bundle k b b.v.op.toNat 0x16
  | .vrsq k b => .bundle k b b.v.op.toNat 0x17
  | .vtanh k b => .bundle k b b.v.op.toNat 0x18
  | .verf k b => .bundle k b b.v.op.toNat 0x19
  | .vscan k b => .bundle k b b.v.op.toNat 0x1c
  | .vred k b => .bundle k b b.v.op.toNat 0x1d
  | .vbcast k b => .bundle k b b.v.op.toNat 0x1e
  | .vextr k b => .bundle k b b.v.op.toNat 0x1f
  | .vld k b => .bundle k b b.v.op.toNat 0x20
  | .vst k b => .bundle k b b.v.op.toNat 0x21
  | .vperm k b => .bundle k b b.v.op.toNat 0x22
  | .vmova k b => .bundle k b b.v.op.toNat 0x24
  | .vmovta k b => .bundle k b b.v.op.toNat 0x25
  | .vrand k b => .bundle k b b.v.op.toNat 0x26
  | .mma k b => .bundle k b b.m.op.toNat 0x01
  | .mmaPendingStart _ => .plain true
  | .mmaResult _ => .plain true
  | .dma k b => .bundle k b b.x.op.toNat 0x01
  | .dmaIx k b => .bundle k b b.x.op.toNat 0x02
  | .waitDma k b => .bundle k b b.x.op.toNat 0x08
  | .cntSet k b => .bundle k b b.x.op.toNat 0x09
  | .cntRead k b => .bundle k b b.x.op.toNat 0x0a
  | .waitCnt k b => .bundle k b b.x.op.toNat 0x0b
  | .msg k b => .bundle k b b.x.op.toNat 0x0c
  | .fenceAcq k b => .bundle k b b.x.op.toNat 0x10
  | .fenceRel k b => .bundle k b b.x.op.toNat 0x11
  | .fenceGlobal k b => .bundle k b b.x.op.toNat 0x12
  | .interlockRelease _ => .plain true
  | .outsideReadArrives _ _ => .plain true
  | .resultVisible _ => .plain true
  | .storeLands _ => .plain true
  | .coreStop _ => .plain true
  | .dmaEntryStart _ _ => .plain true
  | .dmaTransactionComplete _ _ _ _ => .plain true
  | .remoteWriteLands _ => .plain true
  | .writePerformed _ => .plain true
  | .countedArrival _ => .plain true
  | .fenceHeldWritesRelease _ => .plain true
  | .freezeComplete _ => .plain true
  | .channelRead _ loc _ => .plain (decide (loc < 11718750))
  | .channelWrite _ loc data _ => .plain (decide (loc < 11718750) && data.length == 256)
  | .refresh _ _ => .plain true
  | .rfm _ _ => .plain true
  | .frameDecode _ _ frame _ => .plain (decide (frame < 2 ^ 26))
  | .tableRecordFetch _ _ _ => .plain true
  | .dataParityError _ _ => .plain true
  | .laneFault _ => .plain true
  | .trackerEntryFreed _ _ => .plain true
  | .generateStepStart _ _ => .plain true
  | .stepProgramHalted _ _ => .plain true
  | .ringTailReread _ _ => .plain true
  | .keepAliveReread _ _ => .plain true
  | .vdDefine _ pkt => .admin pkt 0x0201 none
  | .vdCastOn _ pkt => .admin pkt 0x0202 none
  | .vdBindOff _ pkt => .admin pkt 0x0203 none
  | .vdCommit _ pkt => .admin pkt 0x0204 (some (4, 1, 0))
  | .vdCommitDiscard _ pkt => .admin pkt 0x0204 (some (4, 1, 1))
  | .vdQuery _ pkt => .admin pkt 0x0205 none
  | .vdDissolve _ pkt => .admin pkt 0x0206 none
  | .wholeDeviceTake _ pkt => .admin pkt 0x0207 none
  | .wholeDeviceRelease _ pkt => .admin pkt 0x0208 none
  | .commitPublish _ => .plain true
  | .graceWindowClose _ => .plain true
  | .revisionExpiredNotice _ => .plain true
  | .targetRequest _ => .plain true
  | .movedReissue _ => .plain true
  | .kvAlloc _ pkt => .admin pkt 0x0601 none
  | .kvFree _ pkt => .admin pkt 0x0602 none
  | .kvGrant _ pkt => .admin pkt 0x0603 none
  | .kvQuery _ pkt => .admin pkt 0x0604 none
  | .kvPut _ => .plain true
  | .kvGet _ => .plain true
  | .kvPutComplete _ => .plain true
  | .kvGetComplete _ => .plain true
  | .kvServiceFailure => .plain true
  | .kvServiceResetDone => .plain true
  | .partCreate _ pkt => .admin pkt 0x0101 none
  | .partEnable _ pkt => .admin pkt 0x0102 (some (0, 1, 0))
  | .partEnableUpdate _ pkt => .admin pkt 0x0102 (some (0, 1, 1))
  | .partDisable _ pkt => .admin pkt 0x0103 none
  | .partDestroy _ pkt => .admin pkt 0x0104 none
  | .partReset _ pkt => .admin pkt 0x010A none
  | .partQuery _ pkt => .admin pkt 0x0109 none
  | .partFreeze _ pkt => .admin pkt 0x0105 none
  | .partThaw _ pkt => .admin pkt 0x0106 none
  | .partSave _ pkt => .admin pkt 0x0107 (some (0, 1, 0))
  | .partSaveSizeOnly _ pkt => .admin pkt 0x0107 (some (0, 1, 1))
  | .partRestorePrepare _ pkt => .admin pkt 0x0108 (some (0, 255, 1))
  | .partRestoreLoad _ pkt => .admin pkt 0x0108 (some (0, 255, 2))
  | .teardownComplete _ => .plain true
  | .prsLock _ => .plain true
  | .stripComplete _ => .plain true
  | .stripFailed _ => .plain true
  | .mgtRequest t _ => .plain (match t with | .hostMemory _ a => decide (a < 2 ^ 52) | _ => true)
  | .jtagAccess _ => .plain true
  | .copy _ => .plain true
  | .copySeal _ => .plain true
  | .copyUnseal _ => .plain true
  | .copyComplete _ => .plain true
  | .hdmWithdrawComplete _ => .plain true
  | .linkTraining _ _ => .plain true
  | .d2dReplayTimeout _ => .plain true
  | .hostReplayTimeout _ _ => .plain true
  | .ideIntegrityFailure _ => .plain true
  | .hostPortRetrained _ _ => .plain true
  | .cxlMemRead _ addr => .plain (decide (addr < 2 ^ 52) && addr % 64 == 0)
  | .cxlMemWrite _ addr data _ => .plain (decide (addr < 2 ^ 52) && addr % 64 == 0 && data.length == 64)
  | .bisnpResponse _ _ dirty => .plain (match dirty with | some d => d.length == 64 | none => true)
  | .bisnpTimeout _ _ => .plain true
  | .hostSnoop _ _ => .plain true
  | .walkComplete _ => .plain true
  | .walkerFreed _ _ => .plain true
  | .faultBatchTimeout _ _ => .plain true
  | .dblFaultRetry _ _ _ => .plain true
  | .dblFaultFail _ _ _ => .plain true
  | .invalTranslation _ => .plain true
  | .invalTranslationComplete _ => .plain true
  | .dblRing _ _ _ _ => .plain true
  | .dblAbort _ _ _ _ => .plain true
  | .admPeqEnable _ _ => .plain true
  | .admPeqDisable _ _ => .plain true
  | .admPeqConsumer _ _ => .plain true
  | .pf0Flr _ => .plain true
  | .vfFlr _ _ => .plain true
  | .registerWrite _ off data => .plain (hasWidth data.length && off % data.length == 0)
  | .identify _ pkt => .admin pkt 0x0001 none
  | .inventory _ pkt => .admin pkt 0x0002 none
  | .status _ pkt => .admin pkt 0x0003 none
  | .sensorsRead _ pkt => .admin pkt 0x0004 none
  | .logRead _ pkt => .admin pkt 0x0005 none
  | .powerCapSet _ pkt => .admin pkt 0x0006 none
  | .powerCapGet _ pkt => .admin pkt 0x0007 none
  | .energyRead _ pkt => .admin pkt 0x0008 none
  | .tensionSetAllowances _ pkt => .admin pkt 0x0301 (some (0, 255, 1))
  | .tensionSetLabels _ pkt => .admin pkt 0x0301 (some (0, 255, 2))
  | .tensionQuery _ pkt => .admin pkt 0x0302 none
  | .attestReportGenerate _ pkt => .admin pkt 0x0701 (some (0, 255, 1))
  | .attestReportRead _ pkt => .admin pkt 0x0701 (some (0, 255, 2))
  | .sessionOpen _ pkt => .admin pkt 0x0702 none
  | .sessionClose _ pkt => .admin pkt 0x0703 none
  | .fwStageBegin _ pkt _ => .admin pkt 0x0704 (some (0, 255, 1))
  | .fwStageWrite _ pkt _ => .admin pkt 0x0704 (some (0, 255, 2))
  | .fwStageEnd _ pkt => .admin pkt 0x0704 (some (0, 255, 3))
  | .fwStageAbort _ pkt => .admin pkt 0x0704 (some (0, 255, 4))
  | .fwStageSessionTimeout => .plain true
  | .activateMgt _ pkt => .admin pkt 0x0705 (some (0, 255, 1))
  | .activateDie _ pkt => .admin pkt 0x0705 (some (0, 255, 2))
  | .commitSvn _ pkt => .admin pkt 0x0705 (some (0, 255, 3))
  | .handoverTimeout => .plain true
  | .fwQuery _ pkt => .admin pkt 0x0706 none
  | .domainRecoverQuery _ pkt => .admin pkt 0x0801 (some (0, 255, 0))
  | .domainRecoverL1 _ pkt => .admin pkt 0x0801 (some (0, 255, 1))
  | .domainRecoverL2 _ pkt => .admin pkt 0x0801 (some (0, 255, 2))
  | .domainRecoverL3 _ pkt => .admin pkt 0x0801 (some (0, 255, 3))
  | .dumpCollect _ pkt => .admin pkt 0x0802 none
  | .dumpRead _ pkt => .admin pkt 0x0803 none
  | .retireUnit _ pkt => .admin pkt 0x0804 none
  | .setEndpointId _ => .plain true
  | .getEndpointId => .plain true
  | .getMctpVersionSupport _ => .plain true
  | .getMessageTypeSupport => .plain true
  | .getVendorDefinedMessageSupport _ => .plain true
  | .entdaa _ => .plain true
  | .launch _ => .plain true
  | .launchComplete _ => .plain true
  | .generate _ => .plain true
  | .fill _ => .plain true
  | .signal _ => .plain true
  | .wait _ => .plain true
  | .waitSatisfied _ => .plain true
  | .barrier _ => .plain true
  | .barrierComplete _ => .plain true
  | .refAdd _ => .plain true
  | .refDrop _ => .plain true
  | .nop _ => .plain true
  | .dirSet _ => .plain true
  | .ctxCreate _ => .plain true
  | .ctxDestroy _ => .plain true
  | .contextTeardownStep _ _ => .plain true
  | .queueSet _ => .plain true
  | .queueCtlResume _ => .plain true
  | .queueCtlFlush _ => .plain true
  | .queueCtlFlushResume _ => .plain true
  | .queueCtlDisable _ => .plain true
  | .evqSet _ => .plain true
  | .evqSetDisable _ => .plain true
  | .fenceCreate _ => .plain true
  | .fenceDestroy _ => .plain true
  | .memobjCreate _ => .plain true
  | .memobjFree _ => .plain true
  | .memobjZeroingComplete _ _ => .plain true
  | .evqClaim _ _ _ _ => .plain true
  | .evqComplete _ _ _ _ _ => .plain true
  | .contextResident _ _ => .plain true
  | .sliceEnd _ _ => .plain true
  | .contextSwitch _ _ => .plain true
  | .switchRestore _ _ => .plain true
  | .fabricCompletion _ _ _ _ _ => .plain true
  | .tensionWindowEnd _ _ => .plain true
  | .tensionStateUpdate _ _ _ => .plain true
  | .requestAgePromotion _ _ => .plain true
  | .clusterControlError _ => .plain true
  | .dieControlError _ => .plain true
  | .hubControlError => .plain true
  | .tapeOffDrainEnd _ => .plain true
  | .dumpAccessTimeout _ _ => .plain true
  | .dumpComplete _ => .plain true
  | .domainResetComplete _ _ => .plain true
  | .domainRestored _ => .plain true
  | .fabricTransactionTimeout _ => .plain true
  | .progressSample _ => .plain true
  | .watchdogExpired _ _ => .plain true
  | .coreHung _ => .plain true
  | .sequencerWatchMiss _ => .plain true
  | .mgtWatchdogService => .plain true
  | .mgtWatchdogWarning => .plain true
  | .mgtWatchdogExpiry => .plain true
  | .startFailure => .plain true
  | .mgtIrqSourceRaise _ => .plain true
  | .mgtIrqClaim _ _ => .plain true
  | .mgtIrqComplete _ _ _ => .plain true
  | .sensorRound readings => .plain (readings.all (fun r => decide (r.1 < 1076)))
  | .thermalStepDown => .plain true
  | .thermalStepBack => .plain true
  | .logSecondEnd => .plain true
  | .logFlashCopy => .plain true
  | .fuseOperationDone _ => .plain true
  | .powerLoopStep _ => .plain true
  | .railSample rails => .plain (rails.length == 12)
  | .vtrimUpdate wanted => .plain (wanted.length == 4)
  | .railSettled _ => .plain true
  | .pllLossOfLock => .plain true
  | .refclkStable _ => .plain true
  | .linkPllLossOfLock _ => .plain true
  | .thermtrip => .plain true
  | .vin36Rise _ => .plain true
  | .vin36Undervoltage => .plain true
  | .vin36Overvoltage => .plain true
  | .railOutOfRegulation => .plain true
  | .rstNAssert => .plain true
  | .rstNRelease _ => .plain true
  | .vin36OvervoltageRestart _ => .plain true
  | .managementError => .plain true
  | .bcRequestMessage _ => .plain true

/-- The checks on a shape. -/
def Shape.ok : Shape → Bool
  | .bundle _ b has op => b.format == 1 && b.rsv == 0 && has == op
  | .admin pkt op sub =>
    decide (32 ≤ pkt.length) && decide (pkt.length ≤ 4096) && pkt.length == 32 + fieldAt pkt 4 4 && fieldAt pkt 0 2 == op
      && (match sub with | some (off, mask, v) => fieldAt pkt (32 + off) 1 &&& mask == v | none => true)
  | .plain ok => ok

/-- A command is well-formed. -/
def Instr.wf (i : Instr) : Bool := i.shape.ok

end Sys2Proof
end

