-- ==== Sys2Proof/Certificates/Slice0/Obligations.lean ====
section
/-! DEFINITION. The statements about this model, each a `def Obligations.<Name> : Prop`, with the predicates they share. -/

namespace Sys2Proof.Claim

open Sys2Proof.Machine

-- cores

/-- What a bundle's slots see when core `k` issues in the cycle its cluster has reached. -/
def seen (s : State) (k : CoreId) (h : HostCtx) : IssueCtx := s.issueCtx k h (s.cl k.cl).cycle

/-- Core `k` can issue in the cycle its cluster has reached, which is no gap cycle (R56): the cluster hosts a context and is not taped off;
the core runs, is not frozen, waits for no outside read, holds no bundle, has issued in no later cycle, is left no fault of an MMA, and has
neither a read's data nor a freeze's results still to take. -/
structure CanIssue (s : State) (k : CoreId) (h : HostCtx) : Prop where
  hosts : (s.cl k.cl).ctx = some h
  served : s.clTaped k.cl = false
  running : (s.core k).run = .running
  thawed : (s.core k).frozen = false
  noWait : (s.core k).wait = []
  noHold : (s.core k).held = none
  free : (s.core k).nextFree ≤ (s.cl k.cl).cycle
  noGap : (s.cl k.cl).cycle % 16 ≥ (s.cl k.cl).gap
  noData : (s.core k).arrived = []
  noParked : (s.core k).resuming = false
  noFault : (s.core k).pendFault = none

/-- Core `k` issues the bundle: nothing holds it (R54) and no check of R565 fails. -/
structure Issues (s : State) (k : CoreId) (h : HostCtx) (b : Bundle) : Prop where
  can : CanIssue s k h
  notHeld : holdOf (s.cl k.cl) (s.core k) b = .no
  legal : bundleFault (seen s k h) b = none

/-- The core has a result in flight that becomes visible `lat` cycles after the present one; it counts to the core's present fence epoch
(R152). -/
def InFlight (s t : State) (k : CoreId) (lat : Nat) (w : LandKind) : Prop :=
  ({ due := (s.cl k.cl).cycle + lat, what := w, epoch := (s.core k).epoch } : Landing) ∈ (t.core k).landing

/-- One S-slot operation with a scalar result: its command, opcode, latency, and result from ra, rb and the slot (R57). -/
structure SRow where
  cmd : CoreId → Bundle → Instr
  op : BitVec 8
  lat : Nat
  val : Word → Word → SSlot → Word

/-- The scalar operations of R57. -/
def sRows : List SRow :=
  [ ⟨.add, 0x01, 1, fun a b _ => a + b⟩,
    ⟨.addi, 0x02, 1, fun a _ t => a + t.imm.signExtend 64⟩,
    ⟨.sub, 0x03, 1, fun a b _ => a - b⟩,
    ⟨.andOp, 0x04, 1, fun a b _ => a &&& b⟩,
    ⟨.orOp, 0x05, 1, fun a b _ => a ||| b⟩,
    ⟨.xorOp, 0x06, 1, fun a b _ => a ^^^ b⟩,
    ⟨.lis, 0x07, 1, fun a _ t => (a <<< 21) ||| t.imm.setWidth 64⟩,
    ⟨.shl, 0x08, 1, fun a b _ => a <<< (b.toNat % 64)⟩,
    ⟨.shr, 0x09, 1, fun a b _ => a >>> (b.toNat % 64)⟩,
    ⟨.sra, 0x0A, 1, fun a b _ => a.sshiftRight (b.toNat % 64)⟩,
    ⟨.shli, 0x0B, 1, fun a _ t => a <<< t.imm.toNat⟩,
    ⟨.shri, 0x0C, 1, fun a _ t => a >>> t.imm.toNat⟩,
    ⟨.srai, 0x0D, 1, fun a _ t => a.sshiftRight t.imm.toNat⟩,
    ⟨.mul, 0x10, 3, fun a b _ => a * b⟩,
    ⟨.mulh, 0x11, 3, fun a b _ => BitVec.ofInt 64 (a.toInt * b.toInt / 2 ^ 64)⟩,
    ⟨.div, 0x12, 20, fun a b _ => if b = 0 then BitVec.allOnes 64 else a.sdiv b⟩,
    ⟨.divu, 0x13, 20, fun a b _ => if b = 0 then BitVec.allOnes 64 else a.udiv b⟩,
    ⟨.rem, 0x14, 20, fun a b _ => if b = 0 then a else a.srem b⟩,
    ⟨.remu, 0x15, 20, fun a b _ => if b = 0 then a else a.umod b⟩,
    ⟨.minOp, 0x18, 1, fun a b _ => if a.slt b then a else b⟩,
    ⟨.maxOp, 0x19, 1, fun a b _ => if a.slt b then b else a⟩,
    ⟨.minu, 0x1A, 1, fun a b _ => if a.ult b then a else b⟩,
    ⟨.maxu, 0x1B, 1, fun a b _ => if a.ult b then b else a⟩,
    ⟨.li, 0x28, 1, fun _ _ t => t.imm.signExtend 64⟩ ]

/-- One V-slot operation that computes each lane for itself: its command, opcode, latency and lane function (R61). -/
structure VRow where
  cmd : CoreId → Bundle → Instr
  op : BitVec 8
  lat : Nat
  lane : VSlot → CoreSt → Nat → Nat

/-- Lane `i` of the V slot's operands va, vb, vc. -/
def laneA (t : VSlot) (c : CoreSt) (i : Nat) : Nat := vlane (c.vreg t.va.toNat) i
def laneB (t : VSlot) (c : CoreSt) (i : Nat) : Nat := vlane (c.vreg t.vb.toNat) i
def laneC (t : VSlot) (c : CoreSt) (i : Nat) : Nat := vlane (c.vreg t.vc.toNat) i

/-- The lane-wise operations of R61. The functions of R63 are free values within their bounds (log entry 4). -/
def vRows : List VRow :=
  [ ⟨.vadd, 0x01, 4, fun t c i => fp32Add (rndOf t.rnd 0) (laneA t c i) (laneB t c i)⟩,
    ⟨.vsub, 0x02, 4, fun t c i => fp32Sub (rndOf t.rnd 0) (laneA t c i) (laneB t c i)⟩,
    ⟨.vmul, 0x03, 4, fun t c i => fp32Mul (rndOf t.rnd 0) (laneA t c i) (laneB t c i)⟩,
    ⟨.vfma, 0x04, 4, fun t c i => fp32Fma (rndOf t.rnd 0) (laneA t c i) (laneB t c i) (laneC t c i)⟩,
    ⟨.vmax, 0x05, 2, fun t c i => fp32Max (laneA t c i) (laneB t c i)⟩,
    ⟨.vmin, 0x06, 2, fun t c i => fp32Min (laneA t c i) (laneB t c i)⟩,
    ⟨.vabs, 0x07, 2, fun t c i => laneA t c i % 2 ^ 31⟩,
    ⟨.vneg, 0x08, 2, fun t c i => (laneA t c i % 2 ^ 32) ^^^ 2 ^ 31⟩,
    ⟨.vsel, 0x0A, 2, fun t c i => if (c.preg (t.vc.toNat % 8)).getLsbD i then laneA t c i else laneB t c i⟩,
    ⟨.viadd, 0x0C, 2, fun t c i => (laneA t c i + laneB t c i) % 2 ^ 32⟩,
    ⟨.vishift, 0x0D, 2, fun t c i => shiftLane t.imm.toNat (laneA t c i)⟩,
    ⟨.vexp2, 0x14, 12, fun t c i => specialFn 0x14 (laneA t c i)⟩,
    ⟨.vlog2, 0x15, 12, fun t c i => specialFn 0x15 (laneA t c i)⟩,
    ⟨.vrcp, 0x16, 12, fun t c i => specialFn 0x16 (laneA t c i)⟩,
    ⟨.vrsq, 0x17, 12, fun t c i => specialFn 0x17 (laneA t c i)⟩,
    ⟨.vtanh, 0x18, 12, fun t c i => specialFn 0x18 (laneA t c i)⟩,
    ⟨.verf, 0x19, 12, fun t c i => specialFn 0x19 (laneA t c i)⟩,
    ⟨.vbcast, 0x1E, 2, fun t c _ => (c.sreg t.sreg.toNat).toNat % 2 ^ 32⟩,
    ⟨.vperm, 0x22, 4, fun t c i => vlane (c.vreg t.va.toNat) (laneB t c i % 64)⟩ ]

/-- One V-slot operation on whole vectors: its command, opcode, latency and result, which may draw random words (R61, R75). -/
structure VWide where
  cmd : CoreId → Bundle → Instr
  op : BitVec 8
  lat : Nat
  val : VSlot → CoreSt → List Nat → VWord

/-- The operations of R61 that are not lane-wise; `ws` are the 64 random words of an operation that draws. -/
def vWide : List VWide :=
  [ ⟨.vlogic, 0x0B, 1, fun t c _ => match t.imm.toNat % 4 with
      | 0 => c.vreg t.va.toNat &&& c.vreg t.vb.toNat
      | 1 => c.vreg t.va.toNat ||| c.vreg t.vb.toNat
      | 2 => c.vreg t.va.toNat ^^^ c.vreg t.vb.toNat
      | _ => ~~~ c.vreg t.va.toNat⟩,
    ⟨.vcvt, 0x10, 3, fun t c ws => convert t (c.vreg t.va.toNat) ws⟩,
    ⟨.vscan, 0x1C, 16, fun t c _ => ofLanes (if t.imm.toNat.testBit 0
      then scanLinear (rndOf t.rnd 0) (laneC t c 63) ((vlanes (c.vreg t.va.toNat)).zip (vlanes (c.vreg t.vb.toNat)))
      else scanFrom0 (rndOf t.rnd 0) (vlanes (c.vreg t.va.toNat)))⟩,
    ⟨.vred, 0x1D, 10, fun t c _ => ofLanes (reduceLanes (rndOf t.rnd 0) (t.imm.toNat % 4) (vlanes (c.vreg t.va.toNat))
      :: List.replicate 63 0)⟩,
    ⟨.vmova, 0x24, 8, fun t c _ => c.accRow (t.imm.toNat / 64 % 8) (t.imm.toNat % 64)⟩,
    ⟨.vrand, 0x26, 24, fun _ _ ws => ofLanes ws⟩ ]

/-- The random words of the V slot's stream at its draw counter, for an operation that draws (R75). -/
def drawn (s : State) (k : CoreId) (h : HostCtx) (t : VSlot) : List Nat :=
  match vStream t with
  | some i => vrandLanes h.seed (tabGet 0#64 (s.core k).draws i).toNat i k.core h.vc
  | none => []

/-- A load of the B slot: command, opcode, bytes, sign extension, volatile (R60, R151). -/
structure LoadRow where
  cmd : CoreId → Bundle → Instr
  op : BitVec 8
  bytes : Nat
  sgn : Bool
  volatile : Bool

/-- LD, the sign-extending loads and LD.V. -/
def loadRows : List LoadRow :=
  [ ⟨fun k b => .ld k .b b, 0x08, 1, false, false⟩, ⟨fun k b => .ld k .h b, 0x09, 2, false, false⟩,
    ⟨fun k b => .ld k .w b, 0x0A, 4, false, false⟩, ⟨fun k b => .ld k .d b, 0x0B, 8, false, false⟩,
    ⟨fun k b => .ldSigned k .b b, 0x0C, 1, true, false⟩, ⟨fun k b => .ldSigned k .h b, 0x0D, 2, true, false⟩,
    ⟨fun k b => .ldSigned k .w b, 0x0E, 4, true, false⟩, ⟨.ldV, 0x14, 8, false, true⟩ ]

/-- ST by width: command, opcode, bytes. -/
def storeRows : List ((CoreId → Bundle → Instr) × BitVec 8 × Nat) :=
  [ (fun k b => .st k .b b, 0x10, 1), (fun k b => .st k .h b, 0x11, 2), (fun k b => .st k .w b, 0x12, 4), (fun k b => .st k .d b, 0x13, 8) ]

/-- No regulated instance has told a source to hold or pace a label's requests (R454). -/
def Unheld (s : State) (src : Source) (p label : Nat) : Prop := ∀ c e, s.heard src p label c = some e → 16 ≤ e.rate

/-- What the read of a channel's row leaves: its ECC outcome `k` (0 sound, 1 corrected, 2 uncorrectable) marked, counted and reported (R173). -/
def rowRead (s : State) (ch off k : Nat) : State := ((s.eccMark (.chan ch off) k).eccRead (.chan ch off) 256).postReports

/-- The effective address of a load or store: ra plus the signed immediate (R44). -/
def bAddress (s : State) (k : CoreId) (t : BSlot) : Nat := ((s.core k).sreg t.ra.toNat + t.imm.signExtend 64).toNat

/-- The effective address of VLD and VST (R61). -/
def vAddress (s : State) (k : CoreId) (t : VSlot) : Nat := ((s.core k).sreg t.sreg.toNat + t.imm.signExtend 64).toNat

/-- Where the access lies, as the core's context resolves it. -/
def resolves (s : State) (k : CoreId) (h : HostCtx) (addr n : Nat) : Option Target :=
  (addrOf addr).bind (fun a => s.target k h a n)

/-- The branch and PC state after a bundle that takes no branch. -/
def fallsThrough (c d : CoreSt) : Prop :=
  (c.brRemain = 1 → d.pc = c.brTarget ∧ d.brRemain = 0) ∧
  (c.brRemain ≠ 1 → d.pc = (c.pc + 1) % 2048 ∧ d.brRemain = c.brRemain - 1)

/-- The branch and PC state after a bundle whose branch is taken to `target`: two delay bundles issue first (R59). -/
def branches (c d : CoreSt) (target : Nat) : Prop := d.pc = (c.pc + 1) % 2048 ∧ d.brRemain = 2 ∧ d.brTarget = target

end Sys2Proof.Claim

open Sys2Proof Sys2Proof.Machine Sys2Proof.Claim

/-- Every bundle is read back from its bits, and every 256-bit word from its bundle (R42-R47): no bit of the encoding is dropped. -/
def Obligations.BundleEncoding : Prop :=
  (∀ b : Bundle, bundleOf (bundleBits b) = b) ∧ (∀ w : BitVec 256, bundleBits (bundleOf w) = w)

/-- A waiting command is the one that runs: with `c` at the front of the queue a step is `c` on the state with the queue's rest. -/
def Obligations.StepRunsFrontCommand : Prop :=
  ∀ (c : Instr) (rest : List Instr) (s : State), s.pending = c :: rest → step s = exec c { s with pending := rest }

/-- R57: each scalar operation puts its result in flight to rd, visible after its latency, when its condition holds. DIV and REM round toward
zero: R57 names no rounding, and log entry 62 marks the model's. -/
def Obligations.ScalarResults : Prop :=
  ∀ r ∈ sRows, ∀ (s : State) (k : CoreId) (h : HostCtx) (b : Bundle), b.s.op = r.op → Issues s k h b →
    predOn (s.core k) b.s.pred b.s.pneg = true →
    ∃ t, exec (r.cmd k b) s = .next t ∧
      InFlight s t k r.lat (.scalar b.s.rd.toNat (r.val ((s.core k).sreg b.s.ra.toNat) ((s.core k).sreg b.s.rb.toNat) b.s))

/-- R57, R58: CMP sets or clears every bit of a predicate register, PMOV and SETP copy whole predicate registers, MOVS reads a special
register, WRS writes a draw counter. DIECYCLE is the count of 1.7 GHz reference cycles that the core's cluster has reached (log entry 1). -/
def Obligations.PredicateAndSpecialResults : Prop :=
  ∀ (s : State) (k : CoreId) (h : HostCtx) (b : Bundle), Issues s k h b → predOn (s.core k) b.s.pred b.s.pneg = true →
    let a := (s.core k).sreg b.s.ra.toNat
    let c := (s.core k).sreg b.s.rb.toNat
    let holds (o : CmpOp) : Bool := match o with
      | .eq => decide (a = c) | .ne => decide (a ≠ c) | .lt => a.slt c | .ltu => a.ult c | .ge => !a.slt c | .geu => !a.ult c
    (∀ o, b.s.op.toNat = cmpOf o → ∃ t, exec (.cmp k o b) s = .next t ∧
      InFlight s t k 1 (.pred (b.s.rd.toNat % 8) (if holds o then BitVec.allOnes 64 else 0) (BitVec.allOnes 64))) ∧
    (b.s.op = 0x33 → ∃ t, exec (.setp k b) s = .next t ∧ InFlight s t k 1 (.pred (b.s.rd.toNat % 8) a (BitVec.allOnes 64))) ∧
    (b.s.op = 0x32 → ∃ t, exec (.pmov k b) s = .next t ∧ InFlight s t k 1 (.scalar b.s.rd.toNat ((s.core k).preg (b.s.ra.toNat % 8)))) ∧
    (b.s.op = 0x31 → ∃ t, exec (.wrs k b) s = .next t ∧ InFlight s t k 1 (.draw (b.s.imm.toNat - 8) a)) ∧
    (b.s.op = 0x30 → ∃ t v, exec (.movs k b) s = .next t ∧ InFlight s t k 1 (.scalar b.s.rd.toNat v) ∧
      (b.s.imm = 0 → v = BitVec.ofNat 64 h.vc) ∧ (b.s.imm = 1 → v = BitVec.ofNat 64 k.core) ∧ (b.s.imm = 2 → v = BitVec.ofNat 64 h.n) ∧
      (b.s.imm = 3 → v = BitVec.ofNat 64 h.ctx) ∧ (b.s.imm = 4 → v = BitVec.ofNat 64 (s.clusterCycles k.cl)) ∧
      (b.s.imm = 5 → v = BitVec.ofNat 64 (s.core k).issued) ∧
      (∀ i : Nat, i < 4 → b.s.imm.toNat = 8 + i → v = tabGet 0 (s.core k).draws i))

/-- R59: a branch that is taken acts after its two delay bundles; one that is not leaves the PC to go on; CALL also links to the bundle
after its delay bundles. Targets, and the PC after 2,047, are taken modulo 2,048: R59 does not say so (DESIGN CHOICE, log entry 63). -/
def Obligations.BranchesTakeEffect : Prop :=
  ∀ (s : State) (k : CoreId) (h : HostCtx) (b : Bundle), Issues s k h b → predOn (s.core k) b.b.pred b.b.pneg = true →
    let c := s.core k
    let a := c.sreg b.b.ra.toNat
    let rel := (((c.pc : Int) + b.b.imm.toInt) % 2048).toNat
    (b.b.op = 0x01 → ∃ t, exec (.br k b) s = .next t ∧ branches c (t.core k) rel) ∧
    (b.b.op = 0x02 → ∃ t, exec (.brz k b) s = .next t ∧
      (a = 0 → branches c (t.core k) rel) ∧ (a ≠ 0 → fallsThrough c (t.core k))) ∧
    (b.b.op = 0x03 → ∃ t, exec (.brnz k b) s = .next t ∧
      (a ≠ 0 → branches c (t.core k) rel) ∧ (a = 0 → fallsThrough c (t.core k))) ∧
    (b.b.op = 0x05 → ∃ t, exec (.call k b) s = .next t ∧ branches c (t.core k) rel ∧
      InFlight s t k 1 (.scalar 31 (BitVec.ofNat 64 (c.pc + 3)))) ∧
    (b.b.op = 0x06 → ∃ t, exec (.jr k b) s = .next t ∧ branches c (t.core k) (a.toNat % 2048)) ∧
    (b.b.op = 0x18 → ∃ t, exec (.halt k b) s = .next t ∧ (t.core k).run = .halting ∧ fallsThrough c (t.core k))

/-- R53, R55, R60, R61, R129, R148: a load inside the cluster puts the bytes of the issue cycle in flight, zero-extended or sign-extended,
after 4 cycles from the own scratchpad and 10 from elsewhere in the cluster; any other load leaves the cluster and holds the core. A store
inside the cluster puts the low bytes of rd in flight to its row; any other leaves the cluster as a write that is not yet performed. -/
def Obligations.LoadsAndStores : Prop :=
  (∀ r ∈ loadRows, ∀ (s : State) (k : CoreId) (h : HostCtx) (b : Bundle), b.b.op = r.op → Issues s k h b →
    predOn (s.core k) b.b.pred b.b.pneg = true →
    ∃ t, exec (r.cmd k b) s = .next t ∧
      match resolves s k h (bAddress s k b.b) r.bytes with
      | some (.inside core off) =>
        let bs := (s.cl k.cl).localRead core off r.bytes
        InFlight s t k (if core = some k.core.val then 4 else 10) (.scalar b.b.rd.toNat
          (if r.sgn then BitVec.ofInt 64 (sext (8 * r.bytes) (leNat bs)) else BitVec.ofNat 64 (leNat bs)))
      | some _ => ∃ w ∈ (t.core k).wait, w.addr = bAddress s k b.b ∧ w.len = r.bytes ∧ w.volatile = r.volatile ∧
          w.dest = .scalar b.b.rd.toNat r.bytes r.sgn ∧ w.pc = (s.core k).pc
      | none => False) ∧
  (∀ r ∈ storeRows, ∀ (s : State) (k : CoreId) (h : HostCtx) (b : Bundle), b.b.op = r.2.1 → Issues s k h b →
    predOn (s.core k) b.b.pred b.b.pneg = true →
    ∃ t, exec (r.1 k b) s = .next t ∧
      let data := leBytes r.2.2 ((s.core k).sreg b.b.rd.toNat).toNat
      match resolves s k h (bAddress s k b.b) r.2.2 with
      | some (.inside core off) => InFlight s t k (if core = some k.core.val then 4 else 10) (.store core off data [])
      | some _ => ∃ w ∈ t.writes, w.k = k ∧ w.addr = bAddress s k b.b ∧ w.data = data ∧ w.msg = false
      | none => False)

/-- R61, R75, R115, R116, R118: each lane-wise operation puts its 64 lane results in flight to vd under the lanes its condition selects
(R49); each whole-vector operation does so with its result, and one that draws advances its stream by 16. Lane 0 of VSCAN (`scanFrom0`) is read
from R61 by inference (DEDUCED, log entry 64); the functions of R63, VEXP2 of zero among them, are free within their bounds (log entry 4). -/
def Obligations.VectorResults : Prop :=
  (∀ r ∈ vRows, ∀ (s : State) (k : CoreId) (h : HostCtx) (b : Bundle), b.v.op = r.op → Issues s k h b →
    ∃ t, exec (r.cmd k b) s = .next t ∧
      InFlight s t k r.lat (.vector b.v.vd.toNat (predLanes (s.core k) b.v.pred b.v.pneg)
        (ofLanes ((natRange 0 64).map (r.lane b.v (s.core k)))))) ∧
  (∀ r ∈ vWide, ∀ (s : State) (k : CoreId) (h : HostCtx) (b : Bundle), b.v.op = r.op → Issues s k h b →
    ∃ t, exec (r.cmd k b) s = .next t ∧
      InFlight s t k r.lat (.vector b.v.vd.toNat (predLanes (s.core k) b.v.pred b.v.pneg) (r.val b.v (s.core k) (drawn s k h b.v))) ∧
      (∀ i, vStream b.v = some i → tabGet 0 (t.core k).draws i = tabGet 0 (s.core k).draws i + 16))

/-- R61, R116, R123: VCMP sets predicate lanes, VEXTR reads a lane, VMOVTA writes an accumulator row, VLD widens 64 elements, VST sends
the first row of its narrowed elements with their mask. -/
def Obligations.VectorMoves : Prop :=
  ∀ (s : State) (k : CoreId) (h : HostCtx) (b : Bundle), Issues s k h b →
    let c := s.core k
    let lanes := predLanes c b.v.pred b.v.pneg
    (b.v.op = 0x09 → ∃ t m, exec (.vcmp k b) s = .next t ∧ InFlight s t k 2 (.pred (b.v.vd.toNat % 8) m lanes) ∧
      ∀ i, i < 64 → m.getLsbD i = fp32Cmp (b.v.imm.toNat % 4) (laneA b.v c i) (laneB b.v c i)) ∧
    (b.v.op = 0x1F → predOn c b.v.pred b.v.pneg = true → ∃ t, exec (.vextr k b) s = .next t ∧
      InFlight s t k 2 (.scalar b.v.sreg.toNat (BitVec.ofNat 64 (laneA b.v c (b.v.imm.toNat % 64))))) ∧
    (b.v.op = 0x25 → ∃ t, exec (.vmovta k b) s = .next t ∧
      InFlight s t k 8 (.accRow (b.v.imm.toNat / 64 % 8) (b.v.imm.toNat % 64) lanes (c.vreg b.v.va.toNat))) ∧
    (∀ fmt, elemFmtOf b.v.fmt.toNat = some fmt →
      (b.v.op = 0x20 → ∃ t, exec (.vld k b) s = .next t ∧
        match resolves s k h (vAddress s k b.v) (8 * elemWidth fmt) with
        | some (.inside core off) =>
          let bits := leNat ((s.cl k.cl).localRead core off (8 * elemWidth fmt))
          InFlight s t k (if core = some k.core.val then 6 else 12) (.vector b.v.vd.toNat lanes
            (ofLanes ((natRange 0 64).map (fun i => widenElem fmt (packedElem bits (elemWidth fmt) i)))))
        | some _ => ∃ w ∈ (t.core k).wait, w.addr = vAddress s k b.v ∧ w.len = 8 * elemWidth fmt ∧ w.dest = .vector b.v.vd.toNat fmt lanes
        | none => False) ∧
      (b.v.op = 0x21 → lanes ≠ 0 → ∃ t, exec (.vst k b) s = .next t ∧
        match resolves s k h (vAddress s k b.v) (8 * elemWidth fmt) with
        | some (.inside core off) =>
            let row := min (8 * elemWidth fmt) (256 - off % 256)
            let x := storeBytes fmt b.v.rnd (c.vreg b.v.va.toNat) (drawn s k h b.v) lanes
            InFlight s t k (if core = some k.core.val then 6 else 12) (.store core off (x.1.take row) (x.2.take row))
        | some _ =>
            let row := min (8 * elemWidth fmt) (256 - vAddress s k b.v % 256)
            let x := storeBytes fmt b.v.rnd (c.vreg b.v.va.toNat) (drawn s k h b.v) lanes
            ∃ w ∈ t.writes, w.k = k ∧ w.addr = vAddress s k b.v ∧ w.data = x.1.take row ∧ w.mask = x.2.take row ∧ w.msg = false
        | none => False))

/-- R48, R76: what a bundle that issues leaves: other clusters; memory, counters and hosted context of its cluster; every register, the
scratchpad and the instruction memory of its core; all of the other cores but what their outstanding reads may fill; every earlier write
but whether it is sent, and under which revision; and everything else outside the clusters but what the regulators tell of a chance to issue
(R454). -/
def Obligations.IssueFrame : Prop :=
  ∀ (s : State) (k : CoreId) (h : HostCtx) (b : Bundle) (i : Instr) (o : Nat), Issues s k h b → i.shape = .bundle k b o o →
    ∃ t, exec i s = .next t ∧
      { t with clusters := s.clusters, writes := s.writes, nextWrite := s.nextWrite, regulators := s.regulators } = s ∧
      (∀ j, j ≠ k.cl.val → t.cl j = s.cl j) ∧
      { t.cl k.cl with cores := (s.cl k.cl).cores, cache := (s.cl k.cl).cache, readNow := (s.cl k.cl).readNow,
                       fencesNow := (s.cl k.cl).fencesNow } = s.cl k.cl ∧
      (∀ j, j ≠ k.core.val → { (t.cl k.cl).co j with wait := ((s.cl k.cl).co j).wait } = (s.cl k.cl).co j) ∧
      (t.core k).sregs = (s.core k).sregs ∧ (t.core k).vregs = (s.core k).vregs ∧ (t.core k).pregs = (s.core k).pregs ∧
      (t.core k).accs = (s.core k).accs ∧ (t.core k).scratch = (s.core k).scratch ∧ (t.core k).poison = (s.core k).poison ∧
      (t.core k).imem = (s.core k).imem ∧ (t.core k).frozen = (s.core k).frozen ∧ (t.core k).parked = (s.core k).parked ∧
      (t.core k).issued = (s.core k).issued + 1 ∧ (s.core k).landing <+: (t.core k).landing ∧
      (∀ w ∈ s.writes, ∃ g v, { w with sent := g, rev := v } ∈ t.writes)

/-- R76, R565: a bundle that a check of R565 refuses has no effect in any slot; its core takes the fault at the bundle's
PC instead. -/
def Obligations.FaultingBundleHasNoEffect : Prop :=
  ∀ (s : State) (k : CoreId) (h : HostCtx) (b : Bundle) (i : Instr) (o code : Nat), CanIssue s k h →
    holdOf (s.cl k.cl) (s.core k) b = .no → bundleFault (seen s k h) b = some code → i.shape = .bundle k b o o →
    exec i s = .next (s.coreFault k code (s.core k).pc)

-- the matrix unit, the X slot, events of cores and of the fabric

/-- R65, R66, R67: an MMA starts at once in an idle matrix unit, its operands as they stand in the issue cycle, and becomes pending behind an
executing one; in the cycle in which the executing MMA ends, the pending one starts; the accumulator tile of an MMA becomes visible in its due
cycle, word by word. -/
def Obligations.MatrixUnitRuns : Prop :=
  (∀ (s : State) (k : CoreId) (h : HostCtx) (b : Bundle), Issues s k h b → b.m.op = 1 →
    let c := s.core k
    let a := (c.sreg b.m.sa.toNat).toNat
    let d := (c.sreg b.m.sb.toNat).toNat
    ∃ t m, exec (.mma k b) s = .next t ∧ mMode b.m = some m ∧
      (c.mexec = none → ∃ r, (t.core k).mexec = some r ∧ r.mode = m ∧ r.acc = b.m.acc.toNat ∧ r.aOff = a ∧ r.bOff = d ∧
        r.start = (s.cl k.cl).cycle ∧ r.pc = c.pc ∧
        ((s.cl k.cl).landedNow = [] → (∀ e ∈ (s.cl k.cl).cores, e.2.parked = []) → r.opA = leNat (memRead c.scratch a m.aBytes) ∧ r.opB = leNat (memRead c.scratch d m.bBytes))) ∧
      (∀ x, c.mexec = some x → (t.core k).mexec = some x ∧ ∃ r, (t.core k).mpend = some r ∧ r.mode = m ∧ r.acc = b.m.acc.toNat ∧
        r.aOff = a ∧ r.bOff = d ∧ r.pc = c.pc)) ∧
  (∀ (s : State) (k : CoreId) (m q : MmaRun), (s.core k).mexec = some m → (s.core k).mpend = some q →
    (s.cl k.cl).cycle + 1 = m.start + 256 →
    ∃ t r, exec (.mmaPendingStart k) s = .next t ∧ (t.cl k.cl).cycle = m.start + 256 ∧ (t.core k).mexec = some r ∧
      (t.core k).mpend = none ∧ r.start = m.start + 256 ∧ r.mode = q.mode ∧ r.acc = q.acc) ∧
  (∀ (s : State) (k : CoreId) (tile n : Nat) (ws : List Nat), ws.length = 4096 →
    (s.core k).landing = [{ due := (s.cl k.cl).cycle + 1, what := .accTile tile ws, epoch := n }] →
    ∃ t, exec (.mmaResult k) s = .next t ∧ (t.cl k.cl).cycle = (s.cl k.cl).cycle + 1 ∧
      (∀ w, w < 4096 → (t.core k).acc tile w = ws.getD w 0) ∧ (t.core k).sregs = (s.core k).sregs ∧
      (t.core k).vregs = (s.core k).vregs ∧ (t.core k).pregs = (s.core k).pregs)

/-- R54, R70-R74, R152-R163, R567: what each X-slot operation does when it issues: a DMA of at least one byte joins its queue, CNT.SET and
CNT.READ put a counter value in flight, MSG sends eight bytes and its count; FENCE.ACQ and FENCE.GLOBAL leave no cached line of their range,
FENCE.REL and FENCE.GLOBAL hold back later writes, FENCE.GLOBAL later reads too. -/
def Obligations.FabricOperations : Prop :=
  ∀ (s : State) (k : CoreId) (h : HostCtx) (b : Bundle), Issues s k h b → predOn (s.core k) b.x.pred b.x.pneg = true →
    let c := s.core k
    let sa := (c.sreg b.x.sa.toNat).toNat
    let sb := (c.sreg b.x.sb.toNat).toNat
    let sl := (c.sreg b.x.sl.toNat).toNat
    let queue (x : CoreSt) : List DmaEntry := x.dma b.x.dq.toNat
    (b.x.op = 0x01 → ∃ t, exec (.dma k b) s = .next t ∧ (sl = 0 → (t.core k).dmaq = c.dmaq) ∧
      (sl ≠ 0 → ∃ e, queue (t.core k) = queue c ++ [e] ∧ e.ix = false ∧ e.src = sa ∧ e.dst = sb ∧ e.len = sl ∧
        e.flags = b.x.flags.toNat ∧ e.cnt = b.x.cnt.toNat ∧ e.started = false ∧ e.pc = c.pc)) ∧
    (b.x.op = 0x02 → ∃ t e, exec (.dmaIx k b) s = .next t ∧ queue (t.core k) = queue c ++ [e] ∧ e.ix = true ∧ tileOff sa = some e.src ∧
      e.flags = b.x.flags.toNat ∧ e.cnt = b.x.cnt.toNat ∧ e.started = false ∧ e.pc = c.pc) ∧
    (b.x.op = 0x08 → ∃ t, exec (.waitDma k b) s = .next t ∧ (t.core k).issued = c.issued + 1 ∧
      ∀ q, q < 16 → b.x.imm.getLsbD q = true → (s.core k).dma q = []) ∧
    (b.x.op = 0x09 → ∃ t, exec (.cntSet k b) s = .next t ∧ InFlight s t k 2 (.counter b.x.cnt.toNat sl)) ∧
    (b.x.op = 0x0A → ∃ t, exec (.cntRead k b) s = .next t ∧
      InFlight s t k 2 (.scalar b.x.sb.toNat (BitVec.ofNat 64 (tabGet 0 (s.cl k.cl).cnt b.x.cnt.toNat)))) ∧
    (b.x.op = 0x0B → ∃ t, exec (.waitCnt k b) s = .next t ∧ (t.core k).issued = c.issued + 1 ∧
      sl % 2 ^ 48 ≤ cntCount (tabGet 0 (s.cl k.cl).cnt b.x.cnt.toNat)) ∧
    (b.x.op = 0x0C → ∃ t w, exec (.msg k b) s = .next t ∧ w ∈ t.writes ∧ w.k = k ∧ w.msg = true ∧ w.addr = sb ∧ w.data = leBytes 8 sa ∧
      w.cnt = b.x.cnt.toNat) ∧
    (b.x.op = 0x10 → ∃ t, exec (.fenceAcq k b) s = .next t ∧ (t.core k).epoch = c.epoch ∧
      ∀ l ∈ (t.cl k.cl).cache, l ∈ dropLines (t.cl k.cl).cache sa sl) ∧
    (b.x.op = 0x11 → ∃ t, exec (.fenceRel k b) s = .next t ∧ (t.core k).epoch = c.epoch + 1) ∧
    (b.x.op = 0x12 → ∃ t, exec (.fenceGlobal k b) s = .next t ∧ (t.core k).epoch = c.epoch + 1 ∧ (t.core k).globalEpoch = c.epoch + 1 ∧
      ∀ l ∈ (t.cl k.cl).cache, l ∈ dropLines (t.cl k.cl).cache sa sl)

/-- R39, R49, R51, R53, R54, R129, R161: a bundle that its wait holds is kept and nothing else of its core changes; INTERLOCK_RELEASE issues
it once its wait is met. What is in flight for the next cycle is visible in it: a register or counter under its lanes, with s0 and p0
unchanged; a store at its row. Stated for a cluster in which no other core has anything in flight. -/
def Obligations.HeldBundlesAndResults : Prop :=
  (∀ (s : State) (k : CoreId) (h : HostCtx) (b : Bundle) (i : Instr) (o : Nat), CanIssue s k h → i.shape = .bundle k b o o →
    holdOf (s.cl k.cl) (s.core k) b = .held → ∃ t, exec i s = .next t ∧
      t.core k = { s.core k with held := some b, nextFree := (s.cl k.cl).cycle }) ∧
  (∀ (s : State) (k : CoreId) (h : HostCtx) (b : Bundle),
    (s.core k).held = some b → CanIssue (s.updCore k (fun c => { c with held := none })) k h →
    holdOf (s.cl k.cl) (s.core k) b = .no →
    bundleFault (seen (s.updCore k (fun c => { c with held := none })) k h) b = none →
    ∃ t, exec (.interlockRelease k) s = .next t ∧ (t.core k).held = none ∧ (t.core k).issued = (s.core k).issued + 1) ∧
  (∀ (s : State) (k : CoreId) (w : LandKind) (n : Nat), (s.core k).landing = [{ due := (s.cl k.cl).cycle + 1, what := w, epoch := n }] →
    (∀ e ∈ (s.cl k.cl).cores, e.1 ≠ k.core.val → e.2.landing = []) →
    (isResult w = true → ∃ t, exec (.resultVisible k) s = .next t ∧ (t.cl k.cl).cycle = (s.cl k.cl).cycle + 1 ∧
      (∀ r v, w = .scalar r v → (t.core k).sreg r = if r = 0 then 0 else v) ∧
      (∀ r v m, w = .pred r v m → (t.core k).preg r = if r = 0 then BitVec.allOnes 64 else ((s.core k).preg r &&& ~~~ m) ||| (v &&& m)) ∧
      (∀ r m v, w = .vector r m v → (t.core k).vreg r = laneMerge ((s.core k).vreg r) v m) ∧
      (∀ tile row m v l, w = .accRow tile row m v → row < 64 → l < 64 → (t.core k).acc tile (row * 64 + l) =
        if m.getLsbD l then vlane v l else (s.core k).acc tile (row * 64 + l)) ∧
      (∀ i v, w = .draw i v → tabGet 0 (t.core k).draws i = v) ∧
      (∀ n v, w = .counter n v → tabGet 0 (t.cl k.cl).cnt n = v % 2 ^ 48)) ∧
    (∀ dst off data, w = .store dst off data [] → ∃ t, exec (.storeLands k) s = .next t ∧
      (t.cl k.cl).cycle = (s.cl k.cl).cycle + 1 ∧
      (dst = none → (t.cl k.cl).cmem = memWrite (s.cl k.cl).cmem off data) ∧
      (∀ c, dst = some c → ((t.cl k.cl).co c).scratch = memWrite ((s.cl k.cl).co c).scratch off data)))

/-- R55, R59, R71, R74, R78, R79: an outside read that was sent brings its bytes and frees the core, and the next bundle sees them; a halted
core whose DMA queues are empty stops; a DMA entry that passes its checks starts; a core with its outside reads answered freezes, and what it
has in flight is kept with the cycles that remain. -/
def Obligations.CoreEventsTakeEffect : Prop :=
  ∀ (s : State) (k : CoreId) (h : HostCtx), (s.cl k.cl).ctx = some h → s.clTaped k.cl = false →
    (∀ r rest u bs, (s.core k).wait = r :: rest → r.sent = true → r.faulted = false →
      s.vaWaits h.part h.ctx k.cl r.addr r.len false = false →
      readRows k h r.rev r.volatile (!r.noFill) (s.writeRanges k s.nextWrite) 3 0 r.addr r.len s = (u, .data bs false) →
      ∃ t, exec (.outsideReadArrives k .data) s = .next t ∧ (t.core k).wait = (u.postReports.core k).wait.drop 1 ∧
        (∀ x n sgn, r.dest = .scalar x n sgn → x ≠ 0 → (t.core k).takeArrived.sreg x = loadScalar bs sgn) ∧
        (∀ x fmt m, r.dest = .vector x fmt m →
          (t.core k).takeArrived.vreg x = laneMerge ((u.postReports.core k).takeArrived.vreg x) (loadVector bs fmt) m)) ∧
    (∀ (b : Bundle) (i : Instr) (o : Nat), Issues (s.updCore k CoreSt.takeArrived) k h b → i.shape = .bundle k b o o →
      exec i s = exec i (s.updCore k CoreSt.takeArrived)) ∧
    ((s.core k).run = .halting → (s.core k).pendFault = none → (∀ q ∈ (s.core k).dmaq, q.2 = []) →
      ∃ t, exec (.coreStop k) s = .next t ∧ t.core k = { s.core k with run := .stopped }) ∧
    (∀ (q : Fin 16) i e n, nextStart ((s.core k).dma q) = some (i, e) → (s.core k).frozen = false → e.epoch ≤ (s.core k).released →
      startCheck s k h e = .ok n → ∃ t, exec (.dmaEntryStart k q) s = .next t ∧
        (t.core k).dma q = ((s.core k).dma q).modify i (fun e =>
          { e with started := true, total := n, rev := (s.part h.part).revision })) ∧
    ((s.core k).frozen = true → (s.core k).fzDone = false → (s.core k).run = .running → (∀ r ∈ (s.core k).wait, r.faulted = true) →
      (s.core k).pendFault = none → (s.core k).resuming = false → (s.core k).nextFree ≤ (s.cl k.cl).cycle →
      (s.cl k.cl).cycle % 16 ≥ (s.cl k.cl).gap → (s.part h.part).batches = [] →
      ∃ t, exec (.freezeComplete k) s = .next t ∧ (t.core k).fzDone = true ∧
        (t.core k).parked = ((s.core k).landing.filter (fun e => !isCounter e.what)).map
          (fun e => { e with due := e.due - (s.cl k.cl).cycle }))

/-- R70, R71: a transaction of a DMA entry that is not indexed reads its 256 bytes, or what is left of the transfer, from the source and
writes them at the same offset of the destination; unless it is the entry's last it is noted, and under C its bytes are counted. Stated for
one that meets nothing it must wait for, and no fault; `g` is what its chance to issue leaves (R454), and the revision under which it enters the
mesh is the model's free choice between the entry's and the present one (log entry 14). -/
def Obligations.DmaTransactionMovesBytes : Prop :=
  ∀ (s g u v : State) (k : CoreId) (h : HostCtx) (q : Fin 16) (e : DmaEntry) (rest : List DmaEntry) (tx : Nat) (bs : List Byte),
    let src := e.src + 256 * tx
    let dst := e.dst + 256 * tx
    let n := min 256 (e.len - 256 * tx)
    let busy := e.busyRanges (g.core k) tx
    let rev := (g.txRev h e).1
    (s.cl k.cl).ctx = some h → s.clTaped k.cl = false → (s.core k).fzDone = false → (s.core k).dma q = e :: rest →
    e.started = true → e.ix = false → e.isW = false → e.done = [] → e.faulted = [] → tx < e.total → 2 ≤ e.total → 256 * tx < e.len →
    s.vaWaits h.part h.ctx k.cl src n false = false → s.vaWaits h.part h.ctx k.cl dst n true = false → s.txRoom k e tx = true →
    s.txGate k h e tx src dst = (g, true) → (g.txRev h e).2.dmaRead k h rev src n e.isV busy 0 = (u, .data bs false) →
    dmaWrite k h rev false busy (bs.length / 256 + 2) dst bs u = (v, .ok []) →
    exec (.dmaTransactionComplete k q tx .data) s =
      .next ((if e.isC && decide (0 < bs.length) then v.addCount (v.countCluster k h rev dst) e.cnt bs.length else v).updCore k
        (fun c => c.updEntry q 0 (fun e => { e with done := addOnce e.done tx, rev := (v.part h.part).revision }))).postReports

/-- R131, R148, R152, R159, R255, R256: a write that its target serves, or has served, lands there and is gone, an MSG counting one packet; a
target that has moved answers MOVED, which is counted and reissued under the current revision; a count reaches its counter, which stops at
its top; what a fence held goes once the writes before it are performed. -/
def Obligations.WritesReachTheirTargets : Prop :=
  (∀ (s : State) (id : Nat) (w : FabWrite) (vc off cl x : Nat) (core : Option Nat), s.findWrite id = some w →
    addrOf w.addr = some (.wa vc core off) → s.writeReady w = true → w.moved = false →
    (w.served = true ∧ w.place = (cl, x) ∨ w.served = false ∧ s.writeAnswer w = .serve cl x) →
    (s.cl cl).landedNow = [] → (s.cl cl).readNow = false → w.mask = [] → Mem.wf (s.cl cl).cmem = true →
    (∀ j, Mem.wf ((s.cl cl).co j).scratch = true) →
    ∃ t, exec (.remoteWriteLands id) s = .next t ∧ (t.cl cl).localRead core off w.data.length = w.data ∧ t.findWrite id = none ∧
      t.counts = s.counts ++ (if w.msg then [{ cl := cl, cnt := w.cnt, amount := 1 }] else [])) ∧
  (∀ (s : State) (id : Nat) (w : FabWrite) (pla ch off : Nat), s.findWrite id = some w →
    addrOf w.addr = some (.pla pla) → s.writeReady w = true → w.moved = false →
    (w.served = true ∧ w.place = (ch, off) ∨ w.served = false ∧ s.writeAnswer w = .serve ch off) →
    (s.chan ch).heldLines off w.data.length = [] → w.mask = [] → Mem.wf (s.chan ch).mem = true →
    ∃ t, exec (.writePerformed id) s = .next t ∧ memRead (t.chan ch).mem off w.data.length = w.data ∧ t.findWrite id = none) ∧
  (∀ (s : State) (id : Nat) (w : FabWrite), s.findWrite id = some w → s.writeReady w = true → w.moved = false → w.served = false →
    (∀ a x, s.writeAnswer w = .serve a x → ∃ t, exec (.targetRequest id) s = .next t ∧
      t.findWrite id = some { w with served := true, place := (a, x) }) ∧
    (s.writeAnswer w = .moved → ∃ t, exec (.targetRequest id) s = .next t ∧ t.findWrite id = some { w with moved := true } ∧
      (t.part w.part).movedLast = satInc32 (s.part w.part).movedLast)) ∧
  (∀ (s : State) (id : Nat) (w : FabWrite), s.findWrite id = some w → w.moved = true →
    ∃ t, exec (.movedReissue id) s = .next t ∧ t.findWrite id = some { w with moved := false, rev := (s.part w.part).revision }) ∧
  (∀ (s : State) (n : Nat) (m : CountMsg), s.counts[n]? = some m →
    ∃ t, exec (.countedArrival n) s = .next t ∧ t.counts = s.counts.eraseIdx n ∧
      cntCount (tabGet 0 (t.cl m.cl).cnt m.cnt) = min (cntCount (tabGet 0 (s.cl m.cl).cnt m.cnt) + m.amount) (2 ^ 48 - 1) ∧
      cntErr (tabGet 0 (t.cl m.cl).cnt m.cnt) = cntErr (tabGet 0 (s.cl m.cl).cnt m.cnt)) ∧
  (∀ (s : State) (k : CoreId), (s.core k).released < (s.core k).epoch → s.epochBusy k (s.core k).released = false →
    ∃ t, exec (.fenceHeldWritesRelease k) s = .next t ∧
      { t.core k with wait := (s.core k).wait } = { s.core k with released := (s.core k).released + 1 } ∧
      ∀ w, s.writes = [w] → w.k = k → w.sent = false → w.epoch = (s.core k).released + 1 → s.trackRoom k.cl 1 = true →
        Unheld s (clSource k.cl) w.part (s.ctx w.part w.ctx).label →
        t.writes = [{ w with sent := true, rev := (s.part w.part).revision }])

namespace Sys2Proof.Claim

open Sys2Proof.Machine

-- admin channels

/-- A command packet finds its channel ready: the channel exists and is idle, the packet passes the common checks (R357) in the state of
its partition (R284), and no command ahead of it in the hub's order makes it wait (R362). -/
structure Admitted (s : State) (ch : Fin 5) (pkt : List Byte) : Prop where
  present : s.chanExists ch = true
  ready : s.phase = .ready
  idle : (s.admch ch).running = false
  notBusy : (s.admch ch).deviceBusy = false
  whole : packetWhole ch (chanPacket ch pkt) = true
  framed : frameCheck (chanPacket ch pkt) = none
  first : (s.admAccept ch (chanPacket ch pkt)).mustWait ch = false
  allowed : s.permCode ch (chanPacket ch pkt) = none
  inState : s.partStateCode (chanPacket ch pkt) = none

/-- The channel's command, accepted in `s`, has its reply in `t` (R351, R355, R365): the reply's bytes, REPLY_VALID, RUNNING clear, its
place in the hub's order given up, and the message of the BC channel, with its in-band interrupt, or the interrupt a host port asked for. -/
def Replied (s t : State) (ch : Fin 5) (p : List Byte) (status code : Nat) (res : List Byte) : Prop :=
  let bytes := replyBytes (pktOp p) status code (((s.admch ch).accepted + 1) % 65536) (fieldAt p 8 4) res
  (t.admch ch).reply = bytes ∧ (t.admch ch).replyStatus = status ∧ (t.admch ch).replyValid = true ∧ (t.admch ch).running = false ∧
  (ch : Nat) ∉ t.hubOrder ∧ (ch.val = 4 → ({ dst := s.bc.asked.1, tag := s.bc.asked.2, bytes := s.bcHead ++ bytes } : BcMsg) ∈ t.bc.out ∧ t.bc.ibi = true) ∧
  (ch.val ≠ 4 → (fieldAt p 3 1).testBit 0 = true → ({ port := ch, fn := 0, vector := 0 } : Msix) ∈ t.msix)

/-- DONE with results. -/
def Done (s t : State) (ch : Fin 5) (p res : List Byte) : Prop := Replied s t ch p 0 0 res

/-- A command row of an admin channel: the command, its opcode, and the sub-operation byte or flag bit that is its own, if any. -/
structure AdmRow where
  cmd : Fin 5 → List Byte → Instr
  op : Nat
  own : List Byte → Bool := fun _ => true

/-- Every row that a command packet of an admin channel spells (R368). -/
def admRows : List AdmRow :=
  [ ⟨.vdDefine, 0x0201, fun _ => true⟩, ⟨.vdCastOn, 0x0202, fun _ => true⟩, ⟨.vdBindOff, 0x0203, fun _ => true⟩,
    ⟨.vdCommit, 0x0204, fun p => !(par p 4 1).testBit 0⟩, ⟨.vdCommitDiscard, 0x0204, fun p => (par p 4 1).testBit 0⟩,
    ⟨.vdQuery, 0x0205, fun _ => true⟩, ⟨.vdDissolve, 0x0206, fun _ => true⟩, ⟨.wholeDeviceTake, 0x0207, fun _ => true⟩,
    ⟨.wholeDeviceRelease, 0x0208, fun _ => true⟩, ⟨.kvAlloc, 0x0601, fun _ => true⟩, ⟨.kvFree, 0x0602, fun _ => true⟩,
    ⟨.kvGrant, 0x0603, fun _ => true⟩, ⟨.kvQuery, 0x0604, fun _ => true⟩, ⟨.partCreate, 0x0101, fun _ => true⟩,
    ⟨.partEnable, 0x0102, fun p => !(par p 0 1).testBit 0⟩, ⟨.partEnableUpdate, 0x0102, fun p => (par p 0 1).testBit 0⟩,
    ⟨.partDisable, 0x0103, fun _ => true⟩, ⟨.partDestroy, 0x0104, fun _ => true⟩, ⟨.partFreeze, 0x0105, fun _ => true⟩,
    ⟨.partThaw, 0x0106, fun _ => true⟩, ⟨.partQuery, 0x0109, fun _ => true⟩, ⟨.partReset, 0x010A, fun _ => true⟩,
    ⟨.identify, 0x0001, fun _ => true⟩, ⟨.inventory, 0x0002, fun _ => true⟩, ⟨.status, 0x0003, fun _ => true⟩,
    ⟨.sensorsRead, 0x0004, fun _ => true⟩, ⟨.logRead, 0x0005, fun _ => true⟩ ]

-- packets

/-- Changing one place of memory leaves every other byte as it was. -/
def memSame (a b : Mem) (lo n : Nat) : Prop := ∀ x, x < lo ∨ lo + n ≤ x → memGet b x = memGet a x

end Sys2Proof.Claim

/-- R173, R174, R177, R199, R322: a read of a channel location returns its 256 bytes and its poison, counts a corrected error, counts and posts
an uncorrectable one; a write within a location changes those bytes and no others; a line the host may hold is back-invalidated first, and the
write waits for it; a channel that serves nothing answers both with its code, and no data. What ECC said of a location stays with it until it is
written whole (log entry 69). -/
def Obligations.ChannelAccesses : Prop :=
  (∀ (s : State) (ch : Fin 320) (loc : Nat) (e : EccOutcome), s.chanAnswers ch loc = true → s.chanRefuses ch = none →
    tabGet 0 (s.chan ch).ecc loc ≤ 2 →
    let c := s.chan ch
    let k := max e.ecc (tabGet 0 c.ecc loc)
    ∃ u : State, exec (.channelRead ch loc e) s = .next u.postReports ∧ (u.chan ch).readData = memRead c.mem (256 * loc) 256 ∧
      (u.chan ch).readPoison = (hasNat c.poison loc || decide (k = 2)) ∧ (u.chan ch).readCode = 0 ∧ tabGet 0 (u.chan ch).ecc loc = k ∧
      (u.chan ch).mem = c.mem ∧ (u.chan ch).corrected = (if k = 1 then satInc32 c.corrected else c.corrected) ∧
      (u.chan ch).uncorrectable = (if k = 2 then satInc32 c.uncorrectable else c.uncorrectable) ∧
      (u.chan ch).reports = (if k = 2 then c.reports ++ [256 * loc] else c.reports) ∧
      { u with channels := s.channels } = s ∧ (∀ j, j ≠ ch.val → u.chan j = s.chan j) ∧
      ((∀ x ∈ s.channels, x.2.reports = []) → u.postReports =
        if k = 2 then (u.updChan ch (fun c => { c with reports := [] })).postUncorrectable ch (256 * loc) else u)) ∧
  (∀ (s : State) (ch : Fin 320) (loc code : Nat) (data : List Byte) (poison : Bool) (e : EccOutcome), s.chanAnswers ch loc = true →
    s.chanRefuses ch = some code → data ≠ [] →
    exec (.channelRead ch loc e) s = .next (s.updChan ch (fun c => { c with readData := [], readPoison := false, readCode := code })) ∧
    exec (.channelWrite ch loc data poison) s =
      .next (s.updChan ch (fun c => { c with readData := [], readPoison := false, readCode := code }))) ∧
  (∀ (s : State) (ch : Fin 320) (loc : Nat) (data : List Byte) (poison : Bool), s.chanAnswers ch loc = true → s.chanRefuses ch = none →
    data ≠ [] → data.length ≤ 256 →
    ((s.chan ch).heldLines (256 * loc) data.length = [] → Mem.wf (s.chan ch).mem = true →
      ∃ t, exec (.channelWrite ch loc data poison) s = .next t ∧ memRead (t.chan ch).mem (256 * loc) data.length = data ∧
        memSame (s.chan ch).mem (t.chan ch).mem (256 * loc) data.length ∧ Mem.wf (t.chan ch).mem = true ∧
        { t with channels := s.channels } = s ∧ (∀ j, j ≠ ch.val → t.chan j = s.chan j) ∧
        (poison = true → hasNat (t.chan ch).poison loc = true) ∧
        (poison = false → data.length = 256 → hasNat (t.chan ch).poison loc = false)) ∧
    ((s.chan ch).heldLines (256 * loc) data.length ≠ [] → ∃ t, exec (.channelWrite ch loc data poison) s = .next t ∧
      (t.chan ch).mem = (s.chan ch).mem ∧ (t.chan ch).writeWait = (s.chan ch).writeWait ++ [(256 * loc, data, poison)] ∧
      ∀ l ∈ (s.chan ch).heldLines (256 * loc) data.length, l ∈ (t.chan ch).bisnp))

/-- R169, R171, R178, R179, R192, R198, R199: refresh and RFM change no data; a table record is kept by the channel's unit that fetched it, of at
most 16, but for one that is poisoned or whose read is uncorrectable (the model's free choice, log entry 69), waits where no tracker entry is
free, and is read out of the host's caches first; the 65th parity error of a lane within a second is a lane fault, which begins the retirement
of a FREE channel; a freed tracker entry goes to a transaction that waits at its stop, and that tension does not hold. -/
def Obligations.ChannelEvents : Prop :=
  (∀ (s : State) (ch : Fin 320) (bank : Nat), s.hubRuns = true →
    (∃ t, exec (.refresh ch bank) s = .next t ∧ { t.chan ch with refreshes := 0 } = { s.chan ch with refreshes := 0 } ∧
      (t.chan ch).refreshes = (s.chan ch).refreshes + 1 ∧ { t with channels := s.channels } = s) ∧
    (∃ t, exec (.rfm ch bank) s = .next t ∧ { t.chan ch with rfms := 0 } = { s.chan ch with rfms := 0 } ∧
      (t.chan ch).rfms = (s.chan ch).rfms + 1 ∧ { t with channels := s.channels } = s)) ∧
  (∀ (s : State) (ch : Fin 320) (p : Fin 64) (pla : Nat), s.poolRoom (chDie ch) = false → exec (.tableRecordFetch ch p pla) s = .next s) ∧
  (∀ (s : State) (ch : Fin 320) (p : Fin 64) (pla c off : Nat), s.poolRoom (chDie ch) = true →
    s.plaAnswer p (s.part p).revision (256 * pla) = .serve c off →
    ((s.chan c).dirtyLines off 256 ≠ [] → ∃ t, exec (.tableRecordFetch ch p pla) s = .next t ∧ (t.chan c).mem = (s.chan c).mem ∧
      ∀ l ∈ (s.chan c).dirtyLines off 256, l ∈ (t.chan c).bisnpData) ∧
    ((s.chan c).dirtyLines off 256 = [] → ∃ t, exec (.tableRecordFetch ch p pla) s = .next t ∧
      let u := rowRead s.fresh.2 c off (eccOf s.fresh.1).ecc
      let bad := anyPoison (u.chan c).poison off 256 || (u.chan c).uncorrectableAt off 256
      (bad = true → t = u) ∧
      (bad = false → (p.val, 256 * pla, memRead (u.chan c).mem off 256) ∈ (t.chan ch).records ∧ (t.chan ch).records.length ≤ 16 ∧
        (t.chan ch).mem = (u.chan ch).mem ∧ { t with channels := u.channels } = u))) ∧
  (∀ (s : State) (ch : Fin 320) (lane : Fin 64), s.hubRuns = true → (parityTimes (tabGet [] (s.chan ch).parity lane) s.ticks).length ≤ 64 →
    ∃ t, exec (.dataParityError ch lane) s = .next t ∧ { t with channels := s.channels } = s ∧
      tabGet [] (t.chan ch).parity lane = parityTimes (tabGet [] (s.chan ch).parity lane) s.ticks) ∧
  (∀ (s : State) (ch : Fin 320) (lane : Fin 64), s.hubRuns = true → (parityTimes (tabGet [] (s.chan ch).parity lane) s.ticks).length > 64 →
    (s.chEntry ch).state = .free → (s.chEntry ch).retireAs = 0 → ∃ t, exec (.dataParityError ch lane) s = .next t ∧
      (t.chEntry ch).retireAs = 2 ∧ (2, ch.val, 0xFF) ∈ t.recov.retiring) ∧
  (∀ (s : State) (ch : Fin 320), s.hubRuns = true → (s.chEntry ch).state = .free → (s.chEntry ch).retireAs = 0 →
    ∃ t, exec (.laneFault ch) s = .next t ∧ (t.chEntry ch).retireAs = 2 ∧ (2, ch.val, 0xFF) ∈ t.recov.retiring) ∧
  (∀ (s : State) (d : Fin 4) (c : Fin 48), ∃ t, exec (.trackerEntryFreed d (.cluster c)) s = .next t ∧
    { t with clusters := s.clusters, writes := s.writes, regulators := s.regulators } = s ∧
    (∀ w, s.writes = [w] → w.k.cl.val = 48 * d.val + c.val → w.sent = false → w.epoch ≤ (s.core w.k).released →
      s.trackRoom (48 * d + c) 1 = true → Unheld s (clSource (48 * d + c)) w.part (s.ctx w.part w.ctx).label →
      t.writes = [{ w with sent := true, rev := (s.part w.part).revision }]) ∧
    (s.trackRoom (48 * d + c) 1 = false → t.writes = s.writes))

/-- R182, R189, R191, R194: a skip frame completes and writes nothing; a raw or coded frame's symbols are written at the entry's destination
plus the frame's OUT offset; a check that fails after the header writes poison there, and posts its code; an invalid header, or an
uncorrectable frame, posts its code and abandons the entry. Stated for a frame that meets nothing it must wait for; `g` is what its chance to
issue leaves, `u` what its read does, and what it writes out is counted where it crosses an edge (R452). -/
def Obligations.FramesUnravel : Prop :=
  ∀ (s g : State) (k : CoreId) (h : HostCtx) (q : Fin 16) (frame : Nat) (e : DmaEntry) (rest : List DmaEntry) (ch off : Nat),
    let rev := (g.txRev h e).1
    let label := (s.ctx h.part h.ctx).label
    let pla := e.src % 2 ^ 44 + 256 * frame
    let read (x : Nat) : State := (rowRead (g.txRev h e).2 ch off x).served (clSource k.cl) h.part label [{ reg := stopReg ch }] 256
    let u := read 0
    let bs := memRead (u.chan ch).mem off 256
    let bad := anyPoison (u.chan ch).poison off 256
    let busy := e.busyRanges (u.core k) frame
    let sent (n : Nat) : State := u.served (clSource k.cl) h.part label (u.edgeCrossings h.part h.vd (chDie ch) (clDie k.cl)) n
    (s.cl k.cl).ctx = some h → s.clTaped k.cl = false → (s.core k).fzDone = false → (s.core k).dma q = e :: rest → e.started = true →
    e.ix = false → e.isW = true → frame < e.total → hasNat e.done frame = false → e.faulted = [] → s.txRoom k e frame = true →
    s.txGate k h e frame (e.src + 256 * frame) e.dst = (g, true) →
    g.plaAnswer h.part rev pla = .serve ch off → (g.chan ch).dirtyLines off 256 = [] →
    (((u.chan ch).uncorrectableAt off 256 = false →
      (frameParse bs = .ok .skip → exec (.frameDecode k q frame .clean) s =
        .next ((u.updCore k (fun c => c.updEntry q 0 (fun e => { e with done := addOnce e.done frame }))).txDone k h q 0 e.dst)) ∧
      (∀ out d v, frameParse bs = .ok (.raw out d) →
        (sent d.length).txDeliver k h rev q 0 frame e (e.dst + out) d bad busy = .ok v →
        exec (.frameDecode k q frame .clean) s = .next v) ∧
      (∀ w n out tbl r, frameParse bs = .ok (.coded w n out tbl) →
        (u.chan ch).records.find? (fun x => decide (x.1 = h.part) && decide (x.2.1 = tbl)) = some (h.part, tbl, r) →
        (∀ o v, frameDecode bs r w n = .ok o → (sent o.length).txDeliver k h rev q 0 frame e (e.dst + out) o bad busy = .ok v →
          exec (.frameDecode k q frame .clean) s = .next v) ∧
        (∀ f v, frameDecode bs r w n = .error f →
          (sent (n * w / 8)).txDeliver k h rev q 0 frame e (e.dst + out) (zeros (n * w / 8)) true busy = .ok v →
          exec (.frameDecode k q frame .clean) s = .next (v.postUnravel k h q (unravelCode f) pla ch))) ∧
      (∀ f, frameParse bs = .error f → exec (.frameDecode k q frame .clean) s =
        .next ((u.postUnravel k h q (unravelCode f) pla ch).dmaFault k q 0 (unravelCode f)))) ∧
    (tabGet 0 (g.chan ch).ecc (off / 256) ≤ 2 → off % 256 = 0 → exec (.frameDecode k q frame .uncorrectable) s =
      .next (((read 2).postUnravel k h q 0x8030 pla ch).dmaFault k q 0 0x8030)))


namespace Sys2Proof.Claim

open Sys2Proof.Machine

-- composition

/-- Refused with a code (R356): the reply carries it, and no partition, pool entry or KV slot has changed. -/
def Refused (s t : State) (ch : Fin 5) (p : List Byte) (code : Nat) : Prop :=
  Replied s t ch p (statusOf code) code [] ∧ t.parts = s.parts ∧ t.pool = s.pool ∧ t.kv = s.kv

/-- The command that a channel accepted earlier is answered DONE with results. -/
def AnsweredDone (s t : State) (ch : Nat) (res : List Byte) : Prop :=
  let a := s.admch ch
  (t.admch ch).reply = replyBytes (pktOp a.copy) 0 0 (a.accepted % 65536) (fieldAt a.copy 8 4) res ∧
  (t.admch ch).replyValid = true ∧ (t.admch ch).running = false

/-- An accepted edit (R238): the stage takes the pattern, STAGE_SEQ counts, and the live pattern stands. -/
def Edited (s t : State) (p : Nat) (pat : Pattern) (out : List (Nat × Nat)) (release : Bool) : Prop :=
  t.parts = (s.acceptEdit p pat out release).parts ∧ (t.part p).stage = some pat ∧
  (t.part p).stageSeq = ((s.part p).stageSeq + 1) % 2 ^ 32 ∧ (t.part p).pat = (s.part p).pat ∧
  (t.part p).revision = (s.part p).revision ∧ ∀ j, j ≠ p → t.part j = s.part j

/-- The accepted command waits for its reply. -/
def Waits (t : State) (ch : Fin 5) (p : List Byte) : Prop :=
  (t.admch ch).running = true ∧ (t.admch ch).started = true ∧ (t.admch ch).copy = p ∧ (t.admch ch).replyValid = false

end Sys2Proof.Claim

/-- R238, R239, R241, R242: VD_DEFINE, VD_DISSOLVE and VD_BIND_OFF edit the stage and nothing else; while a commit runs they are refused with
STAGE_LOCKED, and a node, an item or an edit that is not allowed with its code. A new VD takes the lowest free node number (DESIGN CHOICE, log
entry 20). -/
def Obligations.StageEdits : Prop :=
  ∀ (s : State) (ch : Fin 5) (pkt : List Byte), Admitted s ch pkt →
    let p := chanPacket ch pkt
    let n := pktTarget p
    let pat := (s.part n).staged
    (pktOp p = 0x0201 ∨ pktOp p = 0x0203 ∨ pktOp p = 0x0206 → (s.part n).commit.isSome = true →
      ∀ f, f = (if pktOp p = 0x0201 then Instr.vdDefine else if pktOp p = 0x0203 then Instr.vdBindOff else Instr.vdDissolve) →
      ∃ t, exec (f ch pkt) s = .next t ∧ Refused s t ch p 0x020F) ∧
    (pktOp p = 0x0201 → (s.part n).commit = none → par p 2 1 ≤ 3 → parZero p 3 5 = true →
      ((par p 0 2 = 0 ∨ pat.isVd (par p 0 2) = true) → pat.nodes < 4096 → ∃ t, exec (.vdDefine ch pkt) s = .next t ∧
        Done s t ch p (leBytes 2 pat.freshNode) ∧ Edited s t n { pat with vds := pat.vds ++
          [{ node := pat.freshNode, parent := par p 0 2, route03 := (par p 2 1).testBit 0, route12 := (par p 2 1).testBit 1 }] } [] false) ∧
      (par p 0 2 ≠ 0 → pat.isVd (par p 0 2) = false → ∃ t, exec (.vdDefine ch pkt) s = .next t ∧ Refused s t ch p 0x0201) ∧
      ((par p 0 2 = 0 ∨ pat.isVd (par p 0 2) = true) → 4096 ≤ pat.nodes →
        ∃ t, exec (.vdDefine ch pkt) s = .next t ∧ Refused s t ch p 0x0204)) ∧
    (pktOp p = 0x0206 → (s.part n).commit = none → par p 2 1 ≤ 1 → parZero p 3 5 = true →
      (pat.isVd (par p 0 2) = true → ∃ t, exec (.vdDissolve ch pkt) s = .next t ∧ Done s t ch p [] ∧
        Edited s t n (pat.dissolve (par p 0 2)).1 (pat.dissolve (par p 0 2)).2 (par p 2 1 == 1)) ∧
      (pat.isVd (par p 0 2) = false → ∃ t, exec (.vdDissolve ch pkt) s = .next t ∧ Refused s t ch p 0x0201)) ∧
    (pktOp p = 0x0203 → (s.part n).commit = none →
      (parseItems p false = none → ∃ t, exec (.vdBindOff ch pkt) s = .next t ∧ Refused s t ch p 0x020D) ∧
      (∀ items, parseItems p false = some items → vdNamed pat (par p 0 2) items = false →
        ∃ t, exec (.vdBindOff ch pkt) s = .next t ∧ Refused s t ch p 0x0201) ∧
      (∀ items c, parseItems p false = some items → vdNamed pat (par p 0 2) items = true →
        applyItems (fun q i => q.bindOffItem (par p 0 2) i) items (pat, []) = .error c →
        ∃ t, exec (.vdBindOff ch pkt) s = .next t ∧ Refused s t ch p c) ∧
      (∀ items q out, parseItems p false = some items → vdNamed pat (par p 0 2) items = true →
        applyItems (fun q i => q.bindOffItem (par p 0 2) i) items (pat, []) = .ok (q, out) → q.nodes ≤ 4096 →
        ∃ t, exec (.vdBindOff ch pkt) s = .next t ∧ Done s t ch p [] ∧ Edited s t n q out (par p 4 1 == 1)))

/-- R229, R230, R240, R243: a VD_CAST_ON whose checks pass edits the stage and sends each FREE entry it names through STRIPPING to
BOUND; it replies when none strips; one that a check refuses changes nothing. VD_QUERY returns its header and the nodes asked for; the view of
the stage takes ENABLE from the live pattern (DEDUCED, log entry 21) and its node numbers are those of log entry 20. -/
def Obligations.CastOnBindsEntries : Prop :=
  ∀ (s : State) (ch : Fin 5) (pkt : List Byte), Admitted s ch pkt →
    let p := chanPacket ch pkt
    let n := pktTarget p
    (pktOp p = 0x0202 →
      ((s.part n).commit.isSome = true → ∃ t, exec (.vdCastOn ch pkt) s = .next t ∧ Refused s t ch p 0x020F) ∧
      ((s.part n).commit = none →
        (∀ c, s.castCheck n p = .error c → ∃ t, exec (.vdCastOn ch pkt) s = .next t ∧ Refused s t ch p c) ∧
        (∀ q out, s.castCheck n p = .ok (q, out, []) →
          (∀ items, parseItems p true = some items → ∀ e ∈ items.flatMap SkeinItem.names, (s.entry e.1 e.2).state ≠ .stripping) →
          ∃ t, exec (.vdCastOn ch pkt) s = .next t ∧ Done s t ch p [] ∧ t.pool = s.pool ∧
            Edited s t n q out (par p 4 1 == 1)) ∧
        (∀ q out fresh, s.castCheck n p = .ok (q, out, fresh) → fresh ≠ [] →
          ∃ t, exec (.vdCastOn ch pkt) s = .next t ∧ Waits t ch p ∧ Edited s t n q out (par p 4 1 == 1) ∧
            (∀ e ∈ fresh, (t.entry e.1 e.2).state = .stripping ∧ (t.entry e.1 e.2).owner = n ∧ (t.entry e.1 e.2).toBound = true)))) ∧
    (pktOp p = 0x0205 → par p 4 1 ≤ 1 → parZero p 5 3 = true → 1 ≤ par p 2 2 → par p 2 2 ≤ 127 → par p 0 2 + par p 2 2 ≤ 4096 →
      let x := s.part n
      let live := par p 4 1 == 0
      ∃ t, exec (.vdQuery ch pkt) s = .next t ∧ t.parts = s.parts ∧
        Done s t ch p (leBytes 2 x.revision ++ zeros 2 ++ leBytes 4 x.stageSeq ++ leBytes 4 x.movedLast ++ leBytes 4 x.refusedLast
          ++ (natRange (par p 0 2) (par p 2 2)).flatMap (fun i =>
            (if live then x.pat else x.staged).nodeBytes i x.revision x.stageSeq x.pat.isVd x.vdBusy)))

/-- R251, R252, R253 steps 1 to 3: VD_COMMIT with a STAGE_SEQ that is not the root's is refused with STAGE_CHANGED; with no edit it
returns the current REVISION; a check that fails publishes nothing; a check that passes begins the commit and, unless the window of the
commit before is open, freezes the resident contexts whose VD changes. DISCARD drops the stage. -/
def Obligations.CommitBegins : Prop :=
  ∀ (s : State) (ch : Fin 5) (pkt : List Byte), Admitted s ch pkt →
    let p := chanPacket ch pkt
    let n := pktTarget p
    let x := s.part n
    pktOp p = 0x0204 → commitFieldsOk p = true →
    ((par p 4 1).testBit 0 = false →
      (par p 0 4 ≠ x.stageSeq → ∃ t, exec (.vdCommit ch pkt) s = .next t ∧ Refused s t ch p 0x0208) ∧
      (par p 0 4 = x.stageSeq → x.stage = none →
        ∃ t, exec (.vdCommit ch pkt) s = .next t ∧ Done s t ch p x.commitResult ∧ t.parts = s.parts) ∧
      (∀ pat c vds, par p 0 4 = x.stageSeq → x.stage = some pat → s.commitCheck n pat = some (c, vds) →
        ∃ t, exec (.vdCommit ch pkt) s = .next t ∧ Replied s t ch p (statusOf c) c [] ∧ (t.part n).commit = none ∧
          (t.part n).revision = x.revision ∧ (t.part n).pat = x.pat.setReason vds c ∧ (t.part n).stage = some (pat.setReason vds c)) ∧
      (∀ pat, par p 0 4 = x.stageSeq → x.stage = some pat → s.commitCheck n pat = none →
        ∃ t, exec (.vdCommit ch pkt) s = .next t ∧ Waits t ch p ∧ (t.part n).commit = some { ch := ch, frozen := x.prev.isNone } ∧
          (t.part n).pat = x.pat ∧ (t.part n).stage = some pat ∧ (t.part n).revision = x.revision ∧
          (x.prev = none → ∀ c ∈ x.moving pat, (t.ctx n c).frozen = true) ∧ (x.prev ≠ none → (t.part n).ctxs = x.ctxs))) ∧
    ((par p 4 1).testBit 0 = true →
      (par p 0 4 ≠ x.stageSeq → ∃ t, exec (.vdCommitDiscard ch pkt) s = .next t ∧ Refused s t ch p 0x0208) ∧
      (par p 0 4 = x.stageSeq → ∃ t, exec (.vdCommitDiscard ch pkt) s = .next t ∧ Done s t ch p (t.part n).commitResult ∧
        (t.part n).stage = none ∧ (t.part n).pat = x.pat ∧ (t.part n).revision = x.revision ∧ t.pool = s.pool ∧
        (x.stage ≠ none → (t.part n).stageSeq = (x.stageSeq + 1) % 2 ^ 32)))

/-- R253 steps 4 to 9, R254, R257, R258: COMMIT_PUBLISH makes the staged pattern the live one under the next REVISION, keeps the previous
one for the grace window, answers the command, and recasts each resident context whose VD changed; nothing is published while a freeze
is not complete or the previous window is open. At the close of the window the previous pattern is dropped, the entries that left it
enter the strip engine, and a commit that waited for it freezes its contexts; the notice of refusals follows if there were any. -/
def Obligations.CommitPublishes : Prop :=
  (∀ (s : State) (p : Fin 64) (c : CommitRun) (pat : Pattern), (s.part p).commit = some c → (s.part p).stage = some pat →
    c.checked = true → c.frozen = true → c.whole = [] → ((s.part p).moving pat).all (fun k => s.freezeDone p k) = true → pat ≠ (s.part p).pat →
    pktOp (s.admch c.ch).copy = 0x0204 → (s.part p).prev = none →
    ∃ u, exec (.commitPublish p) s = .next (((s.part p).moving pat).foldl (fun s k => s.recast p k) u) ∧
      (u.part p).pat = pat.setReason (pat.vds.map (fun v => v.node)) 0 ∧ (u.part p).prev = some (s.part p).pat ∧
      (u.part p).revision = ((s.part p).revision + 1) % 65536 ∧ (u.part p).stage = none ∧ (u.part p).commit = none ∧
      (u.part p).stageSeq = ((s.part p).stageSeq + 1) % 2 ^ 32 ∧ (u.part p).movedLast = 0 ∧
      (u.part p).leaving = (s.part p).leaving ++ (s.part p).stageRelease ∧ u.pool = s.pool ∧
      AnsweredDone s u c.ch (u.part p).commitResult) ∧
  (∀ (s : State) (p : Fin 64) (c : CommitRun) (pat : Pattern), (s.part p).commit = some c → (s.part p).stage = some pat →
    c.checked = true → (s.part p).prev ≠ none ∨ c.frozen = true ∧ ((s.part p).moving pat).all (fun k => s.freezeDone p k) = false →
    exec (.commitPublish p) s = .next s) ∧
  (∀ (s : State) (p : Fin 64), (s.part p).prev ≠ none →
    ∃ t, exec (.graceWindowClose p) s = .next t ∧ (t.part p).prev = none ∧ (t.part p).refusedLast = 0 ∧ (t.part p).leaving = [] ∧
      (t.part p).pat = (s.part p).pat ∧ (t.part p).revision = (s.part p).revision ∧
      (∀ e ∈ (s.part p).leaving, (s.entry e.1 e.2.1).state ≠ .disabled → (s.entry e.1 e.2.1).state ≠ .retired → 1 ≤ e.1 → e.1 ≤ 3 →
        (t.entry e.1 e.2.1).state = .stripping ∧ (t.entry e.1 e.2.1).owner = p.val) ∧
      (∀ c pat, (s.part p).commit = some c → (s.part p).stage = some pat → c.checked = true → c.frozen = false →
        ∀ k ∈ (s.part p).moving pat, (t.ctx p k).frozen = true)) ∧
  (∀ (s : State) (p : Fin 64) (at_ : Nat), (s.part p).windowClosedAt = some at_ →
    let u := s.updPart p (fun x => { x with windowClosedAt := none })
    ((s.part p).refusedLast = 0 → exec (.revisionExpiredNotice p) s = .next u) ∧
    ((s.part p).refusedLast ≠ 0 → exec (.revisionExpiredNotice p) s =
      .next (u.notice p 0 0x8201 0xFFFF (leBytes 4 (s.part p).refusedLast ++ leBytes 2 (s.part p).revision ++ zeros 8))))

/-- R265, R267: WHOLE_DEVICE_TAKE stages the pattern of R266, and every FREE entry in service strips on its way to BOUND; it is refused
where an entry is BOUND to another partition, the VD has a packet in progress, the stage holds edits, a cap does not allow it, or the link
modules left would not bear the guarantees admitted.
WHOLE_DEVICE_RELEASE stages the pattern without the entries that the take added, and they leave with RELEASE. -/
def Obligations.WholeDevice : Prop :=
  ∀ (s : State) (ch : Fin 5) (pkt : List Byte), Admitted s ch pkt →
    let p := chanPacket ch pkt
    let n := pktTarget p
    let x := s.part n
    s.wholeCheck n p = none →
    (pktOp p = 0x0207 →
      let cls := s.freeOf 1 192
      let chs := s.freeOf 2 320
      let lms := s.freeOf 3 24
      let es := cls.map (fun i => (1, i)) ++ chs.map (fun i => (2, i)) ++ lms.map (fun i => (3, i))
      let others := s.entriesWhere (fun e => decide (e.state = .bound) && decide (e.owner ≠ n))
      let fits := s.bindFits n 1 cls.length && s.bindFits n 2 chs.length && s.bindFits n 3 lms.length
      (others ≠ [] → ∃ t, exec (.wholeDeviceTake ch pkt) s = .next t ∧ Refused s t ch p 0x020C) ∧
      (others = [] → x.vdBusy (par p 0 2) = true → ∃ t, exec (.wholeDeviceTake ch pkt) s = .next t ∧ Refused s t ch p 0x020A) ∧
      (others = [] → x.vdBusy (par p 0 2) = false →
        (x.stage ≠ none → ∃ t, exec (.wholeDeviceTake ch pkt) s = .next t ∧ Refused s t ch p 0x020F) ∧
        (x.stage = none → fits = false → ∃ t, exec (.wholeDeviceTake ch pkt) s = .next t ∧ Refused s t ch p 0x0203) ∧
        (x.stage = none → fits = true → s.castShort n (lms.map (fun i => (3, i))) = true →
          ∃ t, exec (.wholeDeviceTake ch pkt) s = .next t ∧ Refused s t ch p 0x0206) ∧
        (∀ pat, x.stage = none → fits = true → s.castShort n (lms.map (fun i => (3, i))) = false → x.pat.takeAll (par p 0 2) cls chs lms = .ok pat →
          ∃ t, exec (.wholeDeviceTake ch pkt) s = .next t ∧ Waits t ch p ∧ (t.part n).stage = some pat ∧ (t.part n).pat = x.pat ∧
            (t.part n).commit = some { ch := ch, checked := false, take := true, whole := es } ∧
            (∀ e ∈ es, (t.entry e.1 e.2).state = .stripping ∧ (t.entry e.1 e.2).owner = n ∧ (t.entry e.1 e.2).toBound = true)))) ∧
    (pktOp p = 0x0208 →
      let es := x.takeSet.filter (fun e => let y := s.entry e.1 e.2; decide (y.owner = n) && decide (y.state = .bound))
      let pat := x.pat.releaseAll es
      (x.vdBusy (par p 0 2) = true → ∃ t, exec (.wholeDeviceRelease ch pkt) s = .next t ∧ Refused s t ch p 0x020A) ∧
      (x.vdBusy (par p 0 2) = false → x.stage = none → s.commitCheck n pat = none →
        ∃ t, exec (.wholeDeviceRelease ch pkt) s = .next t ∧ Waits t ch p ∧ (t.part n).stage = some pat ∧ (t.part n).takeSet = [] ∧
          (t.part n).commit = some { ch := ch, frozen := x.prev.isNone } ∧ (t.part n).pat = x.pat ∧
          (t.part n).stageRelease = (es.filter (fun e => !hasNat (pat.entries e.1) e.2)).map (fun e => (e.1, e.2, true))))

-- the token loop

/-- R204, R207, R209 steps 1 and 2, R210, R222: a step starts from the control word and the sequence table that the leader reads. With an
active slot, or one that step 1 has ended, the plan is formed; the plan stands in every cluster, and each core the image names runs from its
ENTRY_PC with STEP in s1 and the plan's address in s2. Without one, KEEP_ALIVE waits while END is clear, and otherwise the GENERATE
completes. -/
def Obligations.GenerateStepStarts : Prop :=
  (∀ (s s1 s2 : State) (p : Fin 64) (c : Fin 256) (g : GenSt) (queue : Nat) (r : PacketRun) (cb tb : List Byte),
    (s.ctx p c).genr = some g → (s.ctx p c).running = some (queue, r) → s.genReady p c = true → g.keepWait = false →
    (s.updCtx p c (fun x => { x with genrBefore := some g })).genRead p c (g.fld 0x58 8) 8 = (s1, some cb) →
    s1.genRead p c (g.fld 0x28 8) (64 * g.slots) = (s2, some tb) →
    let g1 : GenSt := { g with seqs := tableRows tb g.slots 64 }.admitRows ((leNat cb).testBit 1)
    (g1.seqs.any (fun e => seqActive e.2) = true ∨ g1.ended ≠ [] → exec (.generateStepStart p c) s = .next (s2.genPlan p c g1 r)) ∧
    (g1.seqs.any (fun e => seqActive e.2) = false →
      (g1.ended = [] → (g.fld 0xF 1).testBit 0 = true → (leNat cb).testBit 0 = false →
        exec (.generateStepStart p c) s =
          .next ((s2.updCtx p c (fun x => { x with genr := some { g1 with keepWait := true } })).updPacket p c queue
            (fun r => { r with waiting := true }))) ∧
      (g1.ended = [] → ((g.fld 0xF 1).testBit 0 = false ∨ (leNat cb).testBit 0 = true) → s2.runQuiet p c = true →
        exec (.generateStepStart p c) s = .next ((s2.endRun p c (fun _ => true)).packetDone p c queue)))) ∧
  (∀ (s : State) (p c : Nat) (g : GenSt) (r : PacketRun), g.fld 8 2 = 0 →
    let g1 := ((g.decodeRows s.fresh.1).draftRows)
    s.genPlan p c g r = s.fresh.2.genStart p c { g1 with lastChunk := none }.numberLogits r) ∧
  (∀ (s u : State) (p c : Nat) (g g2 : GenSt) (r : PacketRun) (i : Nat) (bs : List Byte),
    let g1 := ((g.decodeRows s.fresh.1).draftRows)
    g.fld 8 2 ≠ 0 → g1.plan.length < g1.budget → g1.chooseChunk (g1.slots + 1) = (g2, some i) →
    let e := tabGet [] g2.seqs i
    let n := min (min (g2.fld 8 2) (g1.budget - g1.plan.length)) (min (fieldAt e 0x18 4 - seqPos e) (seqLimit e - seqPos e))
    s.fresh.2.genReadOf p c g2 (fieldAt e 0x10 8 + 4 * seqPos e) (4 * n) = (u, some bs) →
    s.genPlan p c g r = u.genStart p c (g2.prefillRows i ((natRange 0 n).map (fun k => fieldAt bs (4 * k) 4))).numberLogits r) ∧
  (∀ (s : State) (p c : Nat) (g : GenSt) (r : PacketRun), (s.runClusters p c).Nodup →
    (r.entries.map (fun e => (e.1, e.2.1))).Nodup → (∀ i ∈ s.runClusters p c, Mem.wf (s.cl i).cmem = true) →
    let t := s.genStart p c g r
    let plan := g.fld 0x20 4
    (t.ctx p c).genr = some { g with inStep := true, drafts := [], keepWait := false } ∧
    (∀ i ∈ s.runClusters p c, memRead (t.cl i).cmem plan g.planBytes.length = g.planBytes ∧ (t.cl i).cnt = (s.cl i).cnt) ∧
    (∀ e ∈ r.entries, ∀ i, (s.runClusters p c)[e.1]? = some i →
      let k := (t.cl i).co e.2.1
      k.run = .running ∧ k.pc = e.2.2 ∧ tabGet 0#64 k.sregs 1 = BitVec.ofNat 64 g.step ∧
        tabGet 0#64 k.sregs 2 = BitVec.ofNat 64 (0x400000 + plan)) ∧
    (∀ i, i ∉ s.runClusters p c → t.cl i = s.cl i))

namespace Sys2Proof.Claim

open Sys2Proof.Machine

/-- `ys` are the `k` highest-ranked candidates of `xs`, in rank order (R213). -/
def RankedTop (k : Nat) (xs ys : List Cand) : Prop :=
  ys.length = min k xs.length ∧ (∀ y ∈ ys, y ∈ xs) ∧ ys.Pairwise (fun a b => ranksAbove a b = true) ∧
  ∀ x ∈ xs, x ∉ ys → ∀ y ∈ ys, ranksAbove y x = true

/-- R212, R213: the candidates of a logit row are the K highest of all V tokens, each with the logit that its shard holds. -/
def RowRanked (s : State) (cls : List Nat) (g : GenSt) (row k : Nat) : Prop :=
  1 ≤ g.fld 0x16 2 →
    RankedTop k ((natRange 0 (g.fld 0x10 4)).map (fun t =>
      (t, logitRead (fieldAt (memRead (s.cl (cls.getD (g.fld 0x14 2 + t / g.shardLen) 0)).cmem
        (g.fld 0x18 4 + row * g.fld 0x1C 4 + 4 * (t % g.shardLen)) 4) 0 4)))) (s.rowCands cls g row k)

/-- R214: rank 1 alone, or the shortest run of ranks whose weights sum to TOP_P of them all. -/
def RowKept (t1 l1 : Nat) (rest : List Cand) (temp topP topK : Nat) : Prop :=
  let d := rowDist ((t1, l1) :: rest) temp topP topK
  (fp32Abs temp = 0 ∨ topK = 1 → d = { first := t1, toks := [(t1, 0x3F800000)] }) ∧
  (fp32Abs temp ≠ 0 → topK ≠ 1 →
    let ws := (t1, 0x3F800000) :: rest.map (fun x =>
      (x.1, specialFn 0x14 (fp32Mul .nearestEven (fp32Div (fp32Sub .nearestEven x.2 l1) temp) 0x3FB8AA3B)))
    let cs := cumFrom 0 (ws.map (fun x => x.2))
    let lim := fp32Mul .nearestEven topP (cs.getLast?.getD 0)
    d.first = t1 ∧ (∀ j, j + 1 < ws.length → cs.getD (j + 1) 0 = fp32Add .nearestEven (cs.getD j 0) (ws.getD (j + 1) (0, 0)).2) ∧
    ∃ m, 1 ≤ m ∧ d.toks = ws.take m ∧ (∀ j, j + 1 < m → fp32Lt (cs.getD j 0) lim = true) ∧
      (m ≤ ws.length → fp32Lt (cs.getD (m - 1) 0) lim = false))

/-- R215, R219: a draw chooses the smallest rank whose cumulative sum is above r, or the last rank; rank 1 where every weight is 0. -/
def Draws (d : Dist) (u : Nat) : Prop :=
  (d.toks.all (fun x => fp32Abs x.2 == 0) = true → d.draw u = d.first) ∧
  (d.toks.all (fun x => fp32Abs x.2 == 0) = false →
    let r := fp32Mul .nearestEven (fp32Of .nearestEven (.fin false u (-32))) d.total
    (∀ j x, d.toks[j]? = some x → fp32Lt r (d.cums.getD j 0) = true → (∀ i, i < j → fp32Lt r (d.cums.getD i 0) = false) →
      d.draw u = x.1) ∧
    (∀ x, (∀ i, i < d.toks.length → fp32Lt r (d.cums.getD i 0) = false) → d.toks.getLast? = some x → d.draw u = x.1))

/-- R216, R219: the walk over a slot's draft rows. A row's children are tested in plan order; the accepted one's token is emitted and the
walk goes on from it, and without one a final token ends the walk. -/
def Walks (w : WalkCtx) : Prop :=
  (∀ pos d kids, w.greedy = true → testKids w pos d kids = (kids.find? (fun k => decide (k.2.token = d.first)), d)) ∧
  (∀ pos d, testKids w pos d [] = (none, d)) ∧
  (∀ pos d k rest, w.greedy = false →
    let q := draftQ k.2.q
    let u := (philox w.seed ((pos + 1) % 2 ^ 32) w.tag (0x20000000 + k.2.node * 256 + 1) 0).1
    (d.accepts k.2.token q u = true → testKids w pos d (k :: rest) = (some k, d)) ∧
    (d.accepts k.2.token q u = false → testKids w pos d (k :: rest) = testKids w pos (d.reject k.2.token q) rest)) ∧
  (∀ n x, let kids := w.plan.filter (fun r => decide (r.2.kind = 3) && decide (r.2.parent = x.1))
    (∀ k d, testKids w x.2.position (w.dist x.1) kids = (some k, d) →
      walkRows w (n + 1) x = ((k.2.token, true) :: (walkRows w n k).1, (walkRows w n k).2)) ∧
    (∀ d, testKids w x.2.position (w.dist x.1) kids = (none, d) →
      walkRows w (n + 1) x =
        ([(if w.greedy then d.first
           else d.draw (philox w.seed ((x.2.position + 1) % 2 ^ 32) w.tag (0x20000000 + x.2.node * 256 + 2) 0).1, false)], x.1)))

/-- A stop entry meets R220 and the last generated tokens (R221). -/
def SeqHit (entry stops : List Byte) (recent : List Nat) (i : Nat) : Prop :=
  let e := (stops.drop (48 * i)).take 48
  let n := fieldAt e 0 1
  (fieldAt entry 6 2).testBit i = true ∧ 1 ≤ n ∧ n ≤ 8 ∧ zeroAt e 1 15 = true ∧ n ≤ recent.length ∧
  (natRange 0 n).map (fun k => fieldAt e (16 + 4 * k) 4) = recent.drop (recent.length - n)

/-- R221: EOS, then the lowest stop sequence, then MAX_TOKENS. -/
def Stops (entry stops : List Byte) (tok generated : Nat) (recent : List Nat) : Prop :=
  let eos := fieldAt entry 0x0C 4
  let isEos := eos ≠ 0xFFFFFFFF ∧ tok = eos
  (isEos → stopOf entry stops tok generated recent = some 1) ∧
  (∀ i, ¬isEos → i < 16 → SeqHit entry stops recent i → (∀ j, j < i → ¬SeqHit entry stops recent j) →
    stopOf entry stops tok generated recent = some (2 + 16 * i)) ∧
  (¬isEos → (∀ j, j < 16 → ¬SeqHit entry stops recent j) →
    stopOf entry stops tok generated recent = if fieldAt entry 0x24 4 ≤ generated then some 3 else none)

/-- R221, R223: tokens are emitted in order; the one that meets a stop condition is the slot's last, and those after it are discarded. -/
def Emits (g : GenSt) (stops : List Byte) (i tok : Nat) (drafted : Bool) (rest : List (Nat × Bool)) : Prop :=
  let e := tabGet [] g.seqs i
  let gen := fieldAt e 0x20 4 + 1
  let recent := tabGet [] g.recent i ++ [tok]
  let e1 := patchAt e 0x1C (leBytes 4 (seqPos e + 1) ++ leBytes 4 gen)
  let flags := bnat (gen = 1) + 4 * bnat drafted
  (∀ st, stopOf e1 stops tok gen recent = some st →
    let t := g.emit stops i ((tok, drafted) :: rest)
    t.records = g.records ++ [outRecord tok (fieldAt e 8 4) (seqPos e) i (flags + 2) st] ∧
    t.seqs = tabSet g.seqs i (seqEnd e1 st 0) ∧ i ∈ t.ended ∧ t.plan = g.plan ∧ t.head = g.head) ∧
  (stopOf e1 stops tok gen recent = none →
    g.emit stops i ((tok, drafted) :: rest) =
      { g with seqs := tabSet g.seqs i e1, recent := tabSet g.recent i (recent.drop (recent.length - 7)),
               records := g.records ++ [outRecord tok (fieldAt e 8 4) (seqPos e) i flags 0] }.emit stops i rest)

end Sys2Proof.Claim

/-- R209 steps 4 to 7, R212 to R216, R219 to R225, R421: once every core of the step has halted, the leader samples. The candidates of a row
are the K highest of all its logits; its distribution, a draw, the walk over a slot's drafts, the stop conditions and the records are those
of their rules; a slot whose last prompt row this step was goes on as DECODE. Step 7 writes the records, the entries and the head, in that
order, before the token fence; without ring space it waits, and reads the tail again. -/
def Obligations.GenerateStepEnds : Prop :=
  (∀ (s : State) (p : Fin 64) (c : Fin 256) (g : GenSt) (queue : Nat) (r : PacketRun),
    (s.ctx p c).genr = some g → (s.ctx p c).running = some (queue, r) → g.inStep = true → g.ringWait = false →
    s.batchBlocks p c = false →
    (s.runHalted p c r = true → exec (.stepProgramHalted p c) s = .next (s.genSample p c g)) ∧
    (s.runHalted p c r = false → exec (.stepProgramHalted p c) s = .next s)) ∧
  (∀ s cls g row k, RowRanked s cls g row k) ∧
  (∀ t1 l1 rest temp topP topK, RowKept t1 l1 rest temp topP topK) ∧
  (∀ d u, Draws d u) ∧ (∀ w, Walks w) ∧
  (∀ entry stops tok generated recent, Stops entry stops tok generated recent) ∧
  (∀ g stops i tok drafted rest, Emits g stops i tok drafted rest) ∧
  (∀ (s : State) (cls : List Nat) (seed : Nat) (stops : List Byte) (g : GenSt) (x : Placed),
    let e := tabGet [] g.seqs x.2.slot
    let dist (i : Nat) : Dist :=
      let r := g.plan.getD i { token := 0, position := 0, slot := 0, kind := 0, parent := 0, logitRow := 0 }
      let e := tabGet [] g.seqs r.slot
      let k := min (fieldAt e 0x3C 2) (g.fld 0x10 4)
      rowDist (s.rowCands cls g r.logitRow k) (fieldAt e 0x34 4) (fieldAt e 0x38 4) k
    let r := walkRows { greedy := g.fld 0xE 1 == 0, seed := seed, tag := fieldAt e 8 4,
                        plan := (natRange 0 g.plan.length).zip g.plan, dist := dist } (g.plan.length + 1) x
    (x.2.kind ≠ 2 → (s.slotStep cls seed stops g x).1 = g.emit stops x.2.slot r.1) ∧
    (x.2.kind = 2 → (s.slotStep cls seed stops g x).1 =
      { g with seqs := tabSet g.seqs x.2.slot (patchAt (patchAt e 0 [2#8]) 0x1C (leBytes 4 (x.2.position + 1))) }.emit stops x.2.slot r.1)) ∧
  (∀ (s : State) (p c : Nat) (g : GenSt), g.fld 0x30 8 = 0 → g.draftMax = 0 →
    let cls := s.runClusters p c
    let u := s.countNans cls g
    ∃ g1 : GenSt, s.genSample p c g = (u.updCtx p c (fun x => { x with genr := some g1 })).genFinish p c ∧ g1.drafts = [] ∧
      { g1 with drafts := [] } = { (g.walkStarts.foldl (fun g row => (u.slotStep cls (s.ctx p c).seed (zeros 768) g row).1) g).chunkAdvance with
        drafts := [] }) ∧
  (∀ (s s1 : State) (p : Fin 64) (c : Fin 256) (g : GenSt) (tb : List Byte),
    (s.ctx p c).genr = some g → g.ringWait = true → (s.ctx p c).resident = true → s.batchBlocks p c = false →
    (s.ctx p c).frozen = false → s.genRead p c (g.fld 0x50 8) 8 = (s1, some tb) →
    let n := g.records.length
    (leNat tb + g.fld 0x40 4 < g.head + n → exec (.ringTailReread p c) s =
      .next ((s1.updGen p c (fun g => { g with ringWait := true })).updPacket p c g.queue (fun r => { r with waiting := true }))) ∧
    (g.head + n ≤ leNat tb + g.fld 0x40 4 →
      ∀ s2, genWrites p c
          (((natRange 0 n).zip g.records).map (fun x => (g.fld 0x38 8 + 16 * ((g.head + x.1) % g.fld 0x40 4), x.2))
            ++ (g.seqs.filter (fun e => seqActive e.2 || hasNat g.ended e.1)).flatMap (fun e => entryPieces (g.fld 0x28 8) e.1 e.2)
            ++ [(g.fld 0x48 8, leBytes 8 (g.head + n))]) s1 = (s2, true) →
      let ended (g : GenSt) : GenSt :=
        { g with head := g.head + n, records := [], ended := [], ringWait := false, inStep := false, step := g.step + bnat g.inStep,
                 plan := [], chunkSlot := 0xFFFF }
      ∃ u, (u.ctx p c).genr = (s2.ctx p c).genr.map ended ∧
        { u with parts := s2.parts } = s2 ∧
        exec (.ringTailReread p c) s = .next
          (if g.head / g.fld 0x44 4 < (g.head + n) / g.fld 0x44 4 ∨ g.ended ≠ [] then u.fenceSignal p (g.fld 0x60 4) (g.head + n) c
           else u))) ∧
  (∀ (s s1 s2 : State) (p : Fin 64) (c : Fin 256) (g : GenSt) (cb tb : List Byte),
    (s.ctx p c).genr = some g → g.keepWait = true → s.switchedOut p c = true →
    s.genRead p c (g.fld 0x58 8) 8 = (s1, some cb) → s1.genRead p c (g.fld 0x28 8) (64 * g.slots) = (s2, some tb) →
    ((leNat cb).testBit 0 = false → (tableRows tb g.slots 64).any (fun e => seqActive e.2) = false →
      exec (.keepAliveReread p c) s = .next s2) ∧
    (((leNat cb).testBit 0 = true ∨ (tableRows tb g.slots 64).any (fun e => seqActive e.2) = true) →
      ∃ t, exec (.keepAliveReread p c) s = .next t ∧ hasNat (t.part p).runnable c = true)) ∧
  (∀ (s : State) (p : Fin 64) (c : Fin 256) (g : GenSt), (s.ctx p c).genr = some g → g.keepWait = true → s.switchedOut p c = false →
    s.genReady p c = true → exec (.keepAliveReread p c) s = .next
      (((s.updGen p c (fun g => { g with keepWait := false })).updPacket p c g.queue (fun r => { r with waiting := false })).genStep p c))

namespace Sys2Proof.Claim

open Sys2Proof.Machine

/-- The state in which an accepted command of a channel runs: its copy is taken and it has started (R349, R359). -/
def accepted (s : State) (ch : Fin 5) (p : List Byte) : State :=
  (s.admAccept ch p).updAdm ch (fun a => { a with started := true })

-- work packets

/-- The queue of a packet row. -/
def queueOf (s : State) (r : QRef) : QueueSt := s.queue r.part r.ctx r.queue

/-- A work packet stands whole at the head of a queue whose context may start packets, it meets the checks of R388-R390, and no LAUNCH or
GENERATE of the context, in progress or earlier at the head of another queue, holds it back; `u` is the state once the ring has been read. -/
structure PacketReady (s u : State) (r : QRef) (b : List Byte) : Prop where
  starts : s.ctxStarts r.part r.ctx = true
  read : s.headOf r.part r.ctx (queueOf s r) = (u, .packet b false)
  passes : u.packetCheck r.part b false false = none
  turn : pkTyp b ≠ 1 ∧ pkTyp b ≠ 2 ∨ (u.ctx r.part r.ctx).occupied = false ∧ u.earlierRun r.part r.ctx r.queue = false

/-- The state of a queue whose packet has been taken: HEAD is past it, and no FIFO word of it is left to fail its parity. -/
def pastHead (u : State) (r : QRef) (b : List Byte) : State :=
  (u.updPart r.part (fun y => { y with badPacket := false })).updQueue r.part r.ctx r.queue (fun x => { x with head := (x.head + pkSlots b) % 2 ^ 32 })

/-- The packet that starts from slot `slot` (R391). -/
def startedPacket (u : State) (r : QRef) (slot : Nat) (b : List Byte) : PacketRun :=
  { typ := pkTyp b, slot := slot, bytes := b, doneFence := pkFence b, doneValue := fieldAt b 0x10 8, objRef := fieldAt b 0x0C 4,
    order := (u.part r.part).startOrder }

/-- The state in which the packet is in progress (R391, R412): HEAD is past it, and the device holds a reference on its OBJ_REF. -/
def inProgress (u : State) (r : QRef) (slot : Nat) (b : List Byte) : State :=
  let s := (pastHead u r b).updPart r.part (fun x => { x with startOrder := (u.part r.part).startOrder + 1 })
  (s.updQueue r.part r.ctx r.queue (fun x => { x with cur := some (startedPacket u r slot b) })).objRefAdd r.part (fieldAt b 0x0C 4)

/-- The packet is refused with a code (R392). -/
def packetRefused (u : State) (r : QRef) (slot : Nat) (b : List Byte) (code : Nat) : State :=
  (pastHead u r b).packetRefuse r.part r.ctx r.queue slot b code

-- partitions

/-- The commands of a partition's life. -/
def partCmd : Nat → Option (Fin 5 → List Byte → Instr)
  | 0x0103 => some .partDisable | 0x0104 => some .partDestroy | 0x0105 => some .partFreeze | 0x0106 => some .partThaw
  | 0x0109 => some .partQuery | 0x010A => some .partReset
  | _ => none

end Sys2Proof.Claim

/-- R268, R270, R271, R272, R274, R275: the KV commands. A slot is allocated with the blocks asked for on a channel that has room for
them, the device's choice; it is freed under the next generation, granted, revoked, passed on and queried; without a KV channel or while
the service resets every command is refused, and so is one whose handle names no live slot or whose partition is not the owner. The model's
choices (log entry 17): the lowest free slot and blocks are taken (DESIGN CHOICE), and the service's gate comes before the checks of a command's
parameters (DEDUCED). -/
def Obligations.KvCommands : Prop :=
  ∀ (s : State) (ch : Fin 5) (pkt : List Byte), Admitted s ch pkt →
    let p := chanPacket ch pkt
    let n := pktTarget p
    (∀ c, s.kvGate = some c → ∀ row, row = (if pktOp p = 0x0601 then Instr.kvAlloc else if pktOp p = 0x0602 then Instr.kvFree
        else if pktOp p = 0x0603 then Instr.kvGrant else Instr.kvQuery) → 0x0601 ≤ pktOp p → pktOp p ≤ 0x0604 →
      ∃ t, exec (row ch pkt) s = .next t ∧ Refused s t ch p c) ∧
    (pktOp p = 0x0601 → s.kvGate = none → parZero p 4 4 = true → 1 ≤ par p 0 4 → par p 0 4 ≤ 45776 →
      let fits := s.kvServing.filter (fun c => decide (par p 0 4 ≤ s.kvFree c))
      (∀ i, fits ≠ [] → s.kvSlotFree = some i → ∃ t, ∃ c ∈ fits, exec (.kvAlloc ch pkt) s = .next t ∧
        Done s t ch p (leBytes 8 (kvHandle i (s.slot i).gen)) ∧
        t.slot i = { s.slot i with live := true, channel := c, places := (s.kvFreeList c).take (par p 0 4), owner := n, grants := [],
                                   sealed := false, stripping := false } ∧ (∀ j, j ≠ i → t.slot j = s.slot j)) ∧
      (fits = [] ∨ s.kvSlotFree = none → ∃ t, exec (.kvAlloc ch pkt) s = .next t ∧ Refused s t ch p 0x0601)) ∧
    (pktOp p = 0x0602 → ∀ i, s.kvOwned p = .ok i →
      (s.slotMoving i = true → ∃ t, exec (.kvFree ch pkt) s = .next t ∧ Refused s t ch p 0x0607) ∧
      (s.slotMoving i = false → ∃ t, exec (.kvFree ch pkt) s = .next t ∧ Done s t ch p [] ∧
        t.kv = (s.setSlot i { s.slot i with gen := min ((s.slot i).gen + 1) 0xFFFF, live := false, grants := [], sealed := false,
                                            stripping := true }).kv)) ∧
    (pktOp p = 0x0602 → ∀ c, s.kvOwned p = .error c → ∃ t, exec (.kvFree ch pkt) s = .next t ∧ Refused s t ch p c) ∧
    (pktOp p = 0x0603 → par p 9 1 ≤ 7 → parZero p 10 6 = true → par p 8 1 ≤ 63 →
      (∀ c, s.kvGate = none → s.kvOwned p = .error c → ∃ t, exec (.kvGrant ch pkt) s = .next t ∧ Refused s t ch p c) ∧
      (∀ i, s.kvOwned p = .ok i →
        let g := par p 8 1
        let r := par p 9 1
        let others := (s.slot i).grants.filter (fun x => decide (x.1 ≠ g))
        (r.testBit 2 = true → ∃ t, exec (.kvGrant ch pkt) s = .next t ∧ Done s t ch p [] ∧
          t.kv = (s.setSlot i { s.slot i with owner := g, grants := others.filter (fun x => decide (x.1 ≠ (s.slot i).owner)) }).kv) ∧
        (r = 0 → ∃ t, exec (.kvGrant ch pkt) s = .next t ∧ Done s t ch p [] ∧
          t.kv = (s.setSlot i { s.slot i with grants := others }).kv) ∧
        (r.testBit 2 = false → r ≠ 0 → 4 ≤ others.length → ∃ t, exec (.kvGrant ch pkt) s = .next t ∧ Refused s t ch p 0x0606) ∧
        (r.testBit 2 = false → r ≠ 0 → others.length < 4 → ∃ t, exec (.kvGrant ch pkt) s = .next t ∧ Done s t ch p [] ∧
          t.kv = (s.setSlot i { s.slot i with grants := others ++ [(g, r)] }).kv))) ∧
    (pktOp p = 0x0604 → s.kvGate = none →
      (∀ c, s.kvLook (par p 0 8) = .error c → ∃ t, exec (.kvQuery ch pkt) s = .next t ∧ Refused s t ch p c) ∧
      (∀ i, s.kvLook (par p 0 8) = .ok i → (s.slot i).owner = n ∨ (s.slot i).grants.any (fun g => decide (g.1 = n)) = true →
        let k := s.slot i
        ∃ t, exec (.kvQuery ch pkt) s = .next t ∧ t.kv = s.kv ∧ Done s t ch p
          (leBytes 4 k.places.length ++ leBytes 1 (bnat k.sealed) ++ leBytes 1 k.owner ++ leBytes 1 k.grants.length ++ zeros 1
            ++ padTo 4 (k.grants.flatMap (fun g => leBytes 1 g.1)) ++ padTo 4 (k.grants.flatMap (fun g => leBytes 1 g.2))
            ++ leBytes 8 (s.kvServing.foldl (fun a c => a + s.kvFree c) 0) ++ leBytes 2 s.kvServing.length ++ zeros 6)))

/-- R272, R273, R274, R301: KV_PUT and KV_GET start when their checks pass and are refused with the check's code otherwise; a KV_GET with
WAIT on an open slot waits. One that tension holds does not move (R454). When its data has moved, a KV_PUT with SEAL seals the slot before
its fence is signalled, and a KV_GET's data is performed before its fence. When the service fails every slot is lost under the next
generation, and it is up again, with a new key, when its reset is done. -/
def Obligations.KvTransfers : Prop :=
  (∀ (s u : State) (r : QRef) (b : List Byte), PacketReady s u r b →
    let slot := (queueOf s r).head
    (pkTyp b = 0x0B →
      (u.kvPacketCheck r.part b 1 = none → exec (.kvPut r) s = .next (inProgress u r slot b)) ∧
      (∀ k, u.kvPacketCheck r.part b 1 = some k → k ≠ 0 → exec (.kvPut r) s = .next (packetRefused u r slot b k))) ∧
    (pkTyp b = 0x0C →
      (u.kvPacketCheck r.part b 0 = none →
        let t := inProgress u r slot b
        exec (.kvGet r) s = .next (t.updPacket r.part r.ctx r.queue (fun x =>
          { x with waiting := (pay b 0x14 1).testBit 0 && !(t.slot (handleSlot (pay b 0 8))).sealed }))) ∧
      (∀ k, u.kvPacketCheck r.part b 0 = some k → k ≠ 0 → exec (.kvGet r) s = .next (packetRefused u r slot b k)))) ∧
  (∀ (s g u : State) (q : QRef) (r : PacketRun), (queueOf s q).cur = some r → (s.part q.part).pstate = .enabled →
    let i := handleSlot (pay r.bytes 0 8)
    let k := s.slot i
    (r.typ = 0x0B → s.kvTension q.part q.ctx k.channel (pay r.bytes 8 8) true = (g, true) →
      kvPutRows q.part q.ctx k.channel (kvRows k r.bytes) (pay r.bytes 8 8) g = (u, .ok ()) →
      exec (.kvPutComplete q) s =
        .next ((if (pay r.bytes 0x14 1).testBit 0 then u.kvSeal i else u).packetDone q.part q.ctx q.queue) ∧
      (u.kvSeal i).slot i = { u.slot i with sealed := true }) ∧
    (r.typ = 0x0C → r.waiting = false →
      s.kvTension q.part q.ctx k.channel (pay r.bytes 8 8) false = (g, true) →
      kvGetRows q.part q.ctx k.channel (kvRows k r.bytes) (pay r.bytes 8 8) g = (u, .ok ()) →
      exec (.kvGetComplete q) s = .next (u.packetDone q.part q.ctx q.queue)) ∧
    (r.typ = 0x0B ∨ r.typ = 0x0C ∧ r.waiting = false → s.kvTension q.part q.ctx k.channel (pay r.bytes 8 8) (decide (r.typ = 0x0B)) = (g, false) →
      exec (if r.typ = 0x0B then .kvPutComplete q else .kvGetComplete q) s = .next g) ∧
    (r.typ = 0x0C → r.waiting = true → exec (.kvGetComplete q) s = .next s)) ∧
  (∀ (s : State), ∃ t, exec .kvServiceFailure s = .next t ∧ t.kv.up = false ∧
    (∀ i, (s.slot i).live = true → (t.slot i).live = false ∧ (t.slot i).gen = min ((s.slot i).gen + 1) 0xFFFF ∧
      hasNat (t.slot i).lostGens (s.slot i).gen = true)) ∧
  (∀ (s : State), s.kv.up = false → exec .kvServiceResetDone s = .next { s with kv := { s.kv with up := true, keyGen := s.kv.keyGen + 1 } })

/-- R277, R278, R281 to R284: a partition is created DISABLED under the next generation, enabled from its stored or a new descriptor when
its checks pass, disabled when no packet of it is in progress, and queried; a check that fails refuses with its code. -/
def Obligations.PartitionLife : Prop :=
  ∀ (s : State) (ch : Fin 5) (pkt : List Byte), Admitted s ch pkt →
    let p := chanPacket ch pkt
    let n := pktTarget p
    (pktOp p = 0x0101 →
      (∀ c, s.createCode n (parBytes p 0 64) = some c → ∃ t, exec (.partCreate ch pkt) s = .next t ∧ Refused s t ch p c) ∧
      (s.createCode n (parBytes p 0 64) = none → ∃ t, exec (.partCreate ch pkt) s = .next t ∧
        Done s t ch p (leBytes 2 ((s.part n).generation + 1) ++ zeros 6) ∧
        t.part n = { pstate := .disabled, generation := (s.part n).generation + 1,
                     desc := { descOf (parBytes p 0 64) with keyActive := s.keyActive n } } ∧
        (∀ j, j ≠ n → t.part j = s.part j) ∧ t.pool = s.pool)) ∧
    (pktOp p = 0x0102 → enableFlagsOk p = true →
      let upd := (par p 0 1).testBit 0
      let d := if upd then descOf (parBytes p 8 64) else (s.part n).desc
      let form := !upd || descFormOk (patchAt (parBytes p 8 64) 6 (zeros 1)) n
      let row := if upd then Instr.partEnableUpdate else Instr.partEnable
      (∀ c, s.enableCode n d form = some c → ∃ t, exec (row ch pkt) s = .next t ∧ Replied s t ch p (statusOf c) c [] ∧
        (t.part n).pstate = (s.part n).pstate ∧ (t.part n).desc = { (s.part n).desc with reason := c }) ∧
      (∀ u q, s.enableCode n d form = none → (accepted s ch p).partQueues n d = (u, some q) →
        exec (row ch pkt) s = .next (((u.updPart n (fun x =>
          { x with desc := { d with enable := true, keyActive := (u.part n).desc.keyActive, reason := 0 }, pstate := .enabled })).partQueuesOn n
            { d with enable := true, keyActive := (u.part n).desc.keyActive, reason := 0 } q).done ch (zeros 8))) ∧
      (∀ u, s.enableCode n d form = none → (accepted s ch p).partQueues n d = (u, none) →
        exec (row ch pkt) s = .next (u.enableFails ch n 0x0107))) ∧
    (pktOp p = 0x0103 → parZero p 0 8 = true →
      ((s.part n).busy = true → ∃ t, exec (.partDisable ch pkt) s = .next t ∧ Refused s t ch p 0x0104) ∧
      ((s.part n).busy = false → ∃ t, exec (.partDisable ch pkt) s = .next t ∧ Done s t ch p [] ∧
        t.part n = { s.part n with pstate := .disabled, desc := { (s.part n).desc with enable := false } } ∧ t.pool = s.pool)) ∧
    (pktOp p = 0x0109 → parZero p 0 8 = true → ∃ t, exec (.partQuery ch pkt) s = .next t ∧ t.parts = s.parts ∧
      Done s t ch p ((s.part n).bytes n ++ leBytes 1 (s.part n).pstate.code ++ zeros 1 ++ leBytes 2 (s.held 1 n) ++ leBytes 2 (s.held 2 n)
        ++ leBytes 1 (s.held 3 n) ++ zeros 1)) ∧
    (∀ row, partCmd (pktOp p) = some row → parZero p 0 8 = false →
      ∃ t, exec (row ch pkt) s = .next t ∧ Refused s t ch p 0x0003)

/-- R281, R299, R435, R437, R438: PART_DESTROY and PART_RESET begin the teardown, which reaches step 6, with its reply, within the command that
starts it where nothing holds it up (DESIGN CHOICE, log entry 39), which discards every context and, unless a transfer of
another partition holds it up, every VD, group, stage and fence of the partition; when every entry has left the strip engine the partition
is ABSENT, or DISABLED. PART_FREEZE freezes the resident contexts, and the partition is FROZEN once each has frozen; PART_THAW enables
it again, its resident contexts go on, and those whose causes have cleared are runnable. -/
def Obligations.PartitionTeardownAndFreeze : Prop :=
  (∀ (s : State) (ch : Fin 5) (pkt : List Byte), Admitted s ch pkt →
    let p := chanPacket ch pkt
    let n := pktTarget p
    parZero p 0 8 = true →
    (pktOp p = 0x0104 → exec (.partDestroy ch pkt) s = .next ((accepted s ch p).teardown n true (some ch.val))) ∧
    (pktOp p = 0x010A → (s.part n).generation < 0xFFFF →
      exec (.partReset ch pkt) s = .next ((accepted s ch p).teardown n false (some ch.val))) ∧
    (pktOp p = 0x010A → 0xFFFF ≤ (s.part n).generation → ∃ t, exec (.partReset ch pkt) s = .next t ∧ Refused s t ch p 0x0108) ∧
    (pktOp p = 0x0105 →
      (exec (.partFreeze ch pkt) s = .next ((((s.part n).ctxs.filter (fun e => e.2.resident && !e.2.frozen)).map (fun e => e.1)).foldl
        (fun t c => t.freezeCtx n c) ((accepted s ch p).updPart n (fun x => { x with freezing := some ch.val })) |>.freezeSettle n)) ∧
      ((s.part n).ctxs.all (fun e => !e.2.resident) = true → (s.part n).invals = false → (s.part n).batches = [] → (s.part n).incoming = [] →
        ∃ t, exec (.partFreeze ch pkt) s = .next t ∧ Done s t ch p [] ∧
          t.part n = { s.part n with pstate := .frozen, freezing := none })) ∧
    (pktOp p = 0x0106 →
      (exec (.partThaw ch pkt) s = .next (((((s.part n).ctxs.filter (fun e => e.2.resident)).map (fun e => e.1)).foldl
        (fun t c => t.ctxThaw n c) ((accepted s ch p).updPart n (fun x => { x with pstate := .enabled }))) |> fun t =>
          (((t.part n).ctxs.map (fun e => e.1)).foldl (fun t c => t.wake n c) t).done ch [])) ∧
      ((s.part n).ctxs.all (fun e => !e.2.resident) = true → ∃ t, exec (.partThaw ch pkt) s = .next t ∧ Done s t ch p [] ∧
        { t.part n with runnable := (s.part n).runnable } = { s.part n with pstate := .enabled }))) ∧
  (∀ (s : State) (n : Nat) (d : Bool) (ch : Option Nat),
    let t := s.teardown n d ch
    (t.part n).ctxs = [] ∧ (t.part n).tlb = [] ∧ (t.part n).batches = [] ∧ (t.part n).mig = none ∧
    (∀ x ∈ t.sessions, x.part ≠ n) ∧
    (((s.teardownBegin n d).updPart n (fun x => { x with teardownCh := ch })).kvHeldUp n = false → (t.part n).pat = {} ∧ (t.part n).dir = none ∧ (t.part n).stage = none ∧
      (t.part n).prev = none ∧ (t.part n).teardownCh = none ∧ (t.part n).teardownStep = 6)) ∧
  (∀ (s : State) (n : Fin 64), (s.part n).teardownStep = 6 →
    s.entriesWhere (fun e => decide (e.state = .stripping) && decide (e.owner = n.val)) = [] →
    ((s.part n).pstate = .resetting → exec (.teardownComplete n) s =
      .next (s.updPart n (fun x => { x with pstate := .disabled, teardownStep := 0 }))) ∧
    ((s.part n).pstate = .destroying → exec (.teardownComplete n) s = .next (s.updPart n (fun x => { generation := x.generation }))))

/-- R27, R230, R285 to R288, R291, R293 to R295, R298: an entry whose strip completes has its state cleared, and is FREE, or BOUND and idle
to its owner; the storage of a channel and the blocks of a KV slot read zero. A strip that fails leaves the entry STRIPPING, which the pool
manager is told, unless the entry is being retired: that one is RETIRED once its fuse has blown (log entry 46); for a KV slot the event
names its channel (DEDUCED, log entry 70). A write of 1 to LOCK runs the lock check: a failure leaves its code in REASON and the set-up
open; a pass locks it, and no later write changes it; before boot code runs no write reaches it (log entry 51). A management request that
R291 does not allow is counted and returns zero data, and one it allows reads or writes its target; the debug port reaches what DEBUG_LEVEL
admits, level 0 before the lock, and no unit in the strip engine. -/
def Obligations.StripsAndProtection : Prop :=
  (∀ (s : State) (u : StripUnit) (kind i : Nat), stripEntry u = some (kind, i) → (s.entry kind i).state = .stripping →
    (s.entry kind i).stripFailed = false → s.stripHeld kind i = false →
    ((s.entry kind i).retireAs = 0 → (s.part (s.entry kind i).owner).restrip = [] → ∃ t, exec (.stripComplete u) s = .next t ∧
      (kind = 2 → (t.chan i).mem = [] ∧ (t.chan i).poison = [] ∧ (t.chan i).hostLines = []) ∧
      (kind = 1 → t.cl i = { cycle := (s.cl i).cycle, ref := (s.cl i).ref, op := (s.cl i).op, gap := (s.cl i).gap, thermal := (s.cl i).thermal,
                             pendingOp := (s.cl i).pendingOp }) ∧
      ((s.entry kind i).toBound = true → (t.entry kind i).state = .bound ∧ (t.entry kind i).owner = (s.entry kind i).owner) ∧
      ((s.entry kind i).toBound = false → t.entry kind i = { state := .free })) ∧
    ((s.entry kind i).retireAs = 0 → exec (.stripFailed u) s =
      .next ((s.updEntry kind i (fun e => { e with stripFailed := true })).pmPost 0x8101 (leBytes 1 kind ++ zeros 1 ++ leBytes 2 i ++ zeros 10))) ∧
    ((s.entry kind i).retireAs ≠ 0 → ∃ t, exec (.stripFailed u) s = .next t ∧
      (s.fuseBlown kind i = true → (t.entry kind i).state = .retired ∧ (t.entry kind i).cause = (s.entry kind i).retireAs) ∧
      (s.fuseBlown kind i = false → t.entry kind i = { s.entry kind i with stripFailed := true, stripped := true }))) ∧
  (∀ (s : State) (i : Fin 65536), (s.slot i).stripping = true → (s.slot i).stripFailed = false → s.chTaped (s.slot i).channel = false →
    (∃ t, exec (.stripComplete (.kvSlot i)) s = .next t ∧ t.slot i = { s.slot i with stripping := false, places := [] } ∧
      (∀ b ∈ (s.slot i).places, ∀ o, o < 65536 → memGet (t.chan (s.slot i).channel).mem (65536 * b + o) = 0#8)) ∧
    exec (.stripFailed (.kvSlot i)) s = .next ((s.setSlot i { s.slot i with stripFailed := true }).pmPost 0x8101
      (leBytes 1 2 ++ zeros 1 ++ leBytes 2 (s.slot i).channel ++ zeros 10))) ∧
  (∀ (s : State) (v : BitVec 32), s.phase = .bootCode → s.prs.lock = false → v.toNat.testBit 0 = true →
    (∀ c, s.lockCode = some c → exec (.prsLock v) s = .next { s with prs := { s.prs with regs := patchAt s.prs.regs 2 (leBytes 2 c) } }) ∧
    (s.lockCode = none →
      let u : State := { s with prs := { s.prs with regs := patchAt s.prs.regs 0 (leBytes 4 1) } }
      exec (.prsLock v) s = .next ({ u with pool := u.filledPool }).identityStart)) ∧
  (∀ (s : State) (v : BitVec 32) (off : Nat) (data : List Byte), s.prs.lock = true ∨ s.phase ≠ .bootCode →
    exec (.prsLock v) s = .next s ∧ exec (.registerWrite .protection off data) s = .next s) ∧
  (∀ (s : State) (t : MgtTarget) (n : Nat) (bs : List Byte), s.hubRuns = true →
    (s.mgtAllowed t n false = true → exec (.mgtRequest t (.read n)) s = .next ((s.mgtRead t n).servedMgt (s.mgtCrossings t false) n)) ∧
    (s.mgtAllowed t bs.length true = true →
      exec (.mgtRequest t (.write bs)) s = .next ((s.mgtStore t bs).servedMgt (s.mgtCrossings t true) bs.length)) ∧
    (s.mgtAllowed t n false = false → ∃ u, exec (.mgtRequest t (.read n)) s = .next u ∧ u.mgtRefused = s.mgtRefused + 1 ∧
      u.mgtData = zeros n ∧ { u with log := s.log, irq := s.irq, mgtRefused := s.mgtRefused, mgtData := s.mgtData } = s) ∧
    (s.mgtAllowed t bs.length true = false → ∃ u, exec (.mgtRequest t (.write bs)) s = .next u ∧ u.mgtRefused = s.mgtRefused + 1 ∧
      { u with log := s.log, irq := s.irq, mgtRefused := s.mgtRefused } = s)) ∧
  (∀ (s : State) (t : JtagTarget),
    let need := match t with | .boundaryScan => 0 | .hubDebug => 1 | .testAccess _ => 2
    let strips := match t with | .testAccess (some u) => s.unitStrips u | _ => false
    exec (.jtagAccess t) s =
      .next { s with jtagServed := decide (need ≤ (if s.prs.lock then s.prs.debugLevel else 0)) && !strips })


namespace Sys2Proof.Claim

open Sys2Proof.Machine

/-- A packet row whose own checks read no memory: the row, its packets, its checks, and what it does once in progress. -/
structure PacketRow where
  row : QRef → Instr
  mine : List Byte → Bool
  check : State → QRef → List Byte → Option Nat
  act : State → QRef → List Byte → State

/-- FILL, SIGNAL, WAIT, BARRIER, REF_ADD, REF_DROP, NOP, COPY with and without SEAL, INVAL_TRANSLATION. -/
def packetRows : List PacketRow :=
  [ { row := .fill, mine := fun b => pkTyp b == 4,
      check := fun _ _ b => if !payZero b 0x18 40 ∨ !plaOrVa (pay b 0 8) ∨ pay b 0 8 % 8 ≠ 0 ∨ pay b 8 8 % 8 ≠ 0 ∨ pay b 8 8 < 8
        ∨ pay b 8 8 > 2 ^ 40 then some 0x0401 else none,
      act := fun s _ _ => s },
    { row := .signal, mine := fun b => pkTyp b == 5,
      check := fun s r b => if !payZero b 4 4 ∨ !payZero b 16 48 then some 0x0401
        else match s.handleIdx r.part 3 (pay b 0 4) with
          | .error k => some k
          | .ok _ => if bitAt (pay b 8 8) 63 then some 0x0405 else none,
      act := fun s r b => (s.fenceSignal r.part (pay b 0 4) (pay b 8 8) r.ctx).packetDone r.part r.ctx r.queue },
    { row := .wait, mine := fun b => pkTyp b == 6,
      check := fun s r b => if !payZero b 5 3 ∨ !payZero b 16 48 ∨ pay b 4 1 > 1 then some 0x0401 else s.fenceCode r.part (pay b 0 4),
      act := fun s r b => s.waitLook r.part r.ctx r.queue b },
    { row := .barrier, mine := fun b => pkTyp b == 7, check := fun _ _ _ => none, act := fun s _ _ => s },
    { row := .refAdd, mine := fun b => pkTyp b == 8,
      check := fun s r b => if !refPacketOk b then some 0x0401
        else match s.handleIdx r.part 4 (pay b 0 4) with
          | .error k => some k
          | .ok i => if bitAt (fieldAt (s.memRec r.part i) 0x18 1) 2 then some 0x0404
                     else if (refPlace (s.refTable r.part r.ctx) i).isNone then some 0x040A else none,
      act := fun s r b => match s.handleIdx r.part 4 (pay b 0 4) with
        | .ok i => ((s.memAdd r.part i (pay b 4 4)).refPut r.part r.ctx i
            (refCount (s.refTable r.part r.ctx) i + pay b 4 4)).packetDone r.part r.ctx r.queue
        | .error _ => s },
    { row := .refDrop, mine := fun b => pkTyp b == 9,
      check := fun s r b => if !refPacketOk b then some 0x0401
        else match s.handleIdx r.part 4 (pay b 0 4) with
          | .error k => some k
          | .ok i => if pay b 4 4 > refCount (s.refTable r.part r.ctx) i ∨ pay b 4 4 > fieldAt (s.memRec r.part i) 0x10 4 then some 0x040A
                     else none,
      act := fun s r b => match s.handleIdx r.part 4 (pay b 0 4) with
        | .ok i => ((s.refPut r.part r.ctx i (refCount (s.refTable r.part r.ctx) i - pay b 4 4)).memDrop r.part i (pay b 4 4) r.ctx).packetDone
            r.part r.ctx r.queue
        | .error _ => s },
    { row := .nop, mine := fun b => pkTyp b == 0x0D, check := fun _ _ _ => none,
      act := fun s r _ => s.packetDone r.part r.ctx r.queue },
    { row := .copy, mine := fun b => pkTyp b == 3 && (!(copyFlags b).testBit 1 && !(copyFlags b).testBit 2),
      check := fun _ _ b => if !copyFormOk b ∨ pay b 0x1C 4 ≠ 0 ∨ pay b 0x10 8 < 1 ∨ pay b 0x10 8 > 2 ^ 40 then some 0x0401 else none,
      act := fun s _ _ => s },
    { row := .copySeal, mine := fun b => pkTyp b == 3 && ((copyFlags b).testBit 1 && !(copyFlags b).testBit 2),
      check := fun s r b => if !copyFormOk b then some 0x0401
        else if (s.openSession r.part (pay b 0x1C 4)).isNone then some 0x0121
        else if pay b 0x10 8 < 1 ∨ pay b 0x10 8 > 2 ^ 26 then some 0x0123 else none,
      act := fun s _ _ => s },
    { row := .invalTranslation, mine := fun b => pkTyp b == 0x0A, check := fun _ _ b => if invalOk b then none else some 0x0802,
      act := fun s r b => s.invalStart r.part r.ctx b } ]

end Sys2Proof.Claim

/-- R388 to R392, R395, R399, R401, R403, R412: a work packet at the head of its queue that passes the common checks and its own is in
progress, with HEAD past it, and does what its type says; one that a check of its own refuses stops its queue at the packet with the
check's code. A COPY without SEAL or UNSEAL whose SESSION is not 0 is refused with PACKET_INVALID (DEDUCED, log entry 54). -/
def Obligations.WorkPacketsStart : Prop :=
  (∀ row ∈ packetRows, ∀ (s u : State) (r : QRef) (b : List Byte), PacketReady s u r b → row.mine b = true →
    (row.check u r b = none → exec (row.row r) s = .next (row.act (inProgress u r (queueOf s r).head b) r b)) ∧
    (∀ k, row.check u r b = some k → k ≠ 0 → exec (row.row r) s = .next (packetRefused u r (queueOf s r).head b k))) ∧
  (∀ (u : State) (r : QRef) (slot : Nat) (b : List Byte),
    let t := inProgress u r slot b
    queueOf t r = { queueOf u r with head := ((queueOf u r).head + pkSlots b) % 2 ^ 32, cur := some (startedPacket u r slot b) } ∧
    (t.part r.part).startOrder = (u.part r.part).startOrder + 1) ∧
  (∀ (u : State) (r : QRef) (slot : Nat) (b : List Byte) (k : Nat),
    let t := packetRefused u r slot b k
    (queueOf t r).stopped = true ∧ (queueOf t r).reason = k ∧ (queueOf t r).stopAt = slot ∧ (t.ctx r.part r.ctx).reason = k) ∧
  (∀ (s u : State) (r : QRef) (b : List Byte) (x : Session) (h : List Byte) (q : Bool), PacketReady s u r b →
    pkTyp b = 3 → (copyFlags b).testBit 1 = false → (copyFlags b).testBit 2 = true → copyFormOk b = true →
    u.openSession r.part (pay b 0x1C 4) = some x → ∀ v, u.agentRead r.part r.ctx (pay b 0 8) 64 = (v, .ok (h, q)) →
    (∀ k, unsealCode x r.part (pay b 0x10 8) h = some k → exec (.copyUnseal r) s = .next (packetRefused v r (queueOf s r).head b k)) ∧
    (∀ w h2 q2, unsealCode x r.part (pay b 0x10 8) h = none →
      (inProgress v r (queueOf s r).head b).agentRead r.part r.ctx (pay b 0 8) 64 = (w, .ok (h2, q2)) →
      exec (.copyUnseal r) s = .next (w.updSession (pay b 0x1C 4) (fun x => { x with openCount := some (fieldAt h2 8 8 % 2 ^ 63) }))))

/-- R88, R192, R201, R337, R388, R394, R418: a LAUNCH or GENERATE whose image, policy and, for a GENERATE, payload pass is in progress with
the cores its image names; its table records are dropped, and its context is runnable; each failed check refuses the packet with its
code; where a domain that the VD uses is down it fails with TAPED_OFF. -/
def Obligations.ProgramsStart : Prop :=
  (∀ (s u v : State) (r : QRef) (b img : List Byte), PacketReady s u r b → pkTyp b = 1 →
    (∀ k, u.imageCheck r.part r.ctx b false = (v, .error k) → k ≠ 0 → exec (.launch r) s = .next (packetRefused v r (queueOf s r).head b k)) ∧
    (∀ w img2, u.imageCheck r.part r.ctx b false = (v, .ok img) →
      (inProgress v r (queueOf s r).head b).imageCheck r.part r.ctx b false = (w, .ok img2) →
      exec (.launch r) s = .next (w.launchStart r img2))) ∧
  (∀ (s u v : State) (r : QRef) (b img : List Byte), PacketReady s u r b → pkTyp b = 2 →
    let g : GenSt := { queue := r.queue, payload := (b.drop 0x40).take 0x80 }
    let okParam := genParamOk g ((v.part r.part).pat.size (v.ctx r.part r.ctx).vd) ((fieldAt img 0x26 2).testBit 0)
    (∀ k, u.imageCheck r.part r.ctx b true = (v, .error k) → k ≠ 0 → exec (.generate r) s = .next (packetRefused v r (queueOf s r).head b k)) ∧
    (u.imageCheck r.part r.ctx b true = (v, .ok img) →
      (okParam = false → exec (.generate r) s = .next (packetRefused v r (queueOf s r).head b 0x0430)) ∧
      (okParam = true → genSpaceOk g (fieldAt b 4 2) = false → exec (.generate r) s = .next (packetRefused v r (queueOf s r).head b 0x0431)) ∧
      (∀ k, okParam = true → genSpaceOk g (fieldAt b 4 2) = true → v.handleCode r.part 3 (g.fld 0x60 4) = some k → k ≠ 0 →
        exec (.generate r) s = .next (packetRefused v r (queueOf s r).head b k)) ∧
      (∀ w img2, okParam = true → genSpaceOk g (fieldAt b 4 2) = true → v.handleCode r.part 3 (g.fld 0x60 4) = none →
        (inProgress v r (queueOf s r).head b).imageCheck r.part r.ctx b true = (w, .ok img2) →
        exec (.generate r) s = .next ((w.updCtx r.part r.ctx (fun x => { x with genr := some g })).launchStart r img2)))) ∧
  (∀ (s : State) (r : QRef) (img : List Byte) (x : PacketRun), (queueOf s r).cur = some x →
    let t := s.launchStart r img
    (s.vdDown r.part (s.ctx r.part r.ctx).vd = false →
      (queueOf t r).cur = some { x with resident := true, entries := imageCores img, image := img, plaMin := fieldAt img 0x18 8,
                                        linkMin := fieldAt img 0x20 4,
                                        forN := (s.part r.part).pat.size (s.ctx r.part r.ctx).vd } ∧
      hasNat (t.part r.part).runnable r.ctx = true ∧
      (∀ ch, ∀ e ∈ (t.chan ch).records, e.1 ≠ r.part.val)) ∧
    (s.vdDown r.part (s.ctx r.part r.ctx).vd = true → (queueOf t r).cur = none ∧ (queueOf t r).stopped = true ∧
      (queueOf t r).reason = 0x8012))

/-- R303 to R305, R391, R395, R401, R403, R336, R438: the packets in progress complete: a LAUNCH when its cores have halted and its writes
are performed, a FILL or COPY when its bytes are, a sealed copy with its buffer or plaintext, a WAIT when its fence satisfies it or fails,
a BARRIER when no earlier packet of its context is in progress and no write of an ended run is left. A LAUNCH, WAIT or BARRIER does not
complete before; a FILL or COPY that tension holds does not move (R454), `g` being what its chance to issue leaves; an INVAL_TRANSLATION
completes when the device comes to it, since accesses translate as they are performed (log entry 33). -/
def Obligations.WorkPacketsComplete : Prop :=
  ∀ (s : State) (q : QRef) (r : PacketRun), (queueOf s q).cur = some r →
    let p := q.part.val
    let c := q.ctx.val
    (r.typ = 1 → s.runHalted p c r = true → s.runQuiet p c = true → (s.ctx p c).frozen = false →
      exec (.launchComplete q) s = .next ((s.endRun p c (fun _ => true)).packetDone p c q.queue)) ∧
    (r.typ = 1 → s.runHalted p c r = false → exec (.launchComplete q) s = .next s) ∧
    (∀ g, (s.part p).pstate = .enabled → (r.typ = 3 ∨ r.typ = 4) → s.copyGate p c r = (g, false) → exec (.copyComplete q) s = .next g) ∧
    (∀ g, (s.part p).pstate = .enabled → s.copyGate p c r = (g, true) →
      (∀ u, r.typ = 4 → g.agentWrite p c (pay r.bytes 0 8) (patternBytes (pay r.bytes 0x10 8) (pay r.bytes 8 8)) false = (u, .ok ()) →
        exec (.copyComplete q) s = .next (u.packetDone p c q.queue)) ∧
      (∀ u, r.typ = 3 → (copyFlags r.bytes).testBit 1 = false → (copyFlags r.bytes).testBit 2 = false →
        copyBytes p c (2 * (pay r.bytes 0x10 8 / 256) + 4) (pay r.bytes 0 8) (pay r.bytes 8 8) (pay r.bytes 0x10 8) g = (u, .ok ()) →
        exec (.copyComplete q) s = .next (u.packetDone p c q.queue)) ∧
      (∀ u v x bs po, r.typ = 3 → (copyFlags r.bytes).testBit 1 = true → g.copySession p (pay r.bytes 0x1C 4) = some x →
        g.agentRead p c (pay r.bytes 0 8) (pay r.bytes 0x10 8) = (u, .ok (bs, po)) →
        let head := sealHead x.id x.sealCount (pay r.bytes 0x10 8) p
        let ct := gcmXor x.secret (sealNonce head) bs
        u.agentWrite p c (pay r.bytes 8 8) (head ++ Config.gcmTag x.secret (sealNonce head) head ct ++ zeros 16 ++ ct) po = (v, .ok ()) →
        exec (.copyComplete q) s = .next ((v.updSession x.id (fun y =>
          { y with sealCount := y.sealCount + 1, closed := y.closed || decide (y.sealCount + 1 ≥ 2 ^ 63) })).packetDone p c q.queue)) ∧
      (∀ u v x bs po, r.typ = 3 → (copyFlags r.bytes).testBit 1 = false → (copyFlags r.bytes).testBit 2 = true →
        g.copySession p (pay r.bytes 0x1C 4) = some x →
        g.agentRead p c (pay r.bytes 0 8) (64 + pay r.bytes 0x10 8) = (u, .ok (bs, po)) →
        let nonce := sealNonce (bs.take 32)
        let good := Config.gcmTag x.secret nonce (bs.take 32) (bs.drop 64) == (bs.drop 32).take 16
        u.agentWrite p c (pay r.bytes 8 8) (if good then gcmXor x.secret nonce (bs.drop 64) else zeros (pay r.bytes 0x10 8))
          (po && good) = (v, .ok ()) →
        exec (.copyComplete q) s = .next (if good then v.packetDone p c q.queue else v.packetFail p c q.queue 0x8103))) ∧
    (r.typ = 6 → (s.part p).pstate ≠ .frozen → ∀ i, s.handleIdx p 3 (pay r.bytes 0 4) = .ok i →
      let v := fieldAt (s.fenceRec p i) 0 8
      (v.testBit 63 = false → pay r.bytes 8 8 ≤ v → exec (.waitSatisfied q) s = .next (s.packetDone p c q.queue)) ∧
      (v.testBit 63 = false → v < pay r.bytes 8 8 → exec (.waitSatisfied q) s = .next s) ∧
      (v.testBit 63 = true → exec (.waitSatisfied q) s =
        .next (if (pay r.bytes 4 1).testBit 0 then s.packetDone p c q.queue else s.packetFail p c q.queue (v % 65536)))) ∧
    (r.typ = 7 → (s.part p).pstate ≠ .frozen →
      ((∀ e ∈ (s.ctx p c).qs, ∀ y, e.2.cur = some y → r.order ≤ y.order) →
        (∀ w ∈ s.writes, w.part = p → w.ctx = c → w.orphan = false) →
        exec (.barrierComplete q) s = .next (s.packetDone p c q.queue)) ∧
      ((∃ e ∈ (s.ctx p c).qs, ∃ y, e.2.cur = some y ∧ y.order < r.order) ∨
        (∃ w ∈ s.writes, w.part = p ∧ w.ctx = c ∧ w.orphan = true) → exec (.barrierComplete q) s = .next s)) ∧
    (r.typ = 0x0A → exec (.invalTranslationComplete q) s = .next ((s.packetDone p c q.queue).freezeSettle p))

/-- R384, R391, R392, R399, R400, R402: a packet that completes frees its queue and is counted; one that fails stops its queue at its slot
with the code. A signal above a fence's value sets it, one at it changes nothing, one below it or on a fence that holds an error is counted
and ignored; the first error a fence takes stays. An update whose FIFO word failed its parity is dropped and counted lost, in the fence's
queue or, where it names none, in queue 0 (DESIGN CHOICE, log entry 73). -/
def Obligations.FencesAndPacketEnds : Prop :=
  (∀ (s : State) (p c q : Nat) (r : PacketRun), (s.queue p c q).cur = some r →
    ((s.packetDone p c q).queue p c q).cur = none ∧ ((s.packetDone p c q).queue p c q).stopped = (s.queue p c q).stopped ∧
    ((s.packetDone p c q).ctx p c).stats.done = (s.ctx p c).stats.done + 1 ∧
    (∀ k, ((s.packetFail p c q k).queue p c q).cur = none ∧ ((s.packetFail p c q k).queue p c q).stopped = true ∧
      ((s.packetFail p c q k).queue p c q).reason = k ∧ ((s.packetFail p c q k).queue p c q).stopAt = r.slot)) ∧
  (∀ (s : State) (p h i v ctx : Nat), s.handleIdx p 3 h = .ok i →
    let old := fieldAt (s.fenceRec p i) 0 8
    let evq := fieldAt (s.fenceRec p i) 0x14 1
    ((s.part p).badFence = true →
      let t := (s.updPart p (fun x => { x with badFence := false })).evqLose p (if evq = 0xFF then 0 else evq % 64)
      s.fenceSignal p h v ctx = t ∧ s.fenceError p h v ctx = t) ∧
    ((s.part p).badFence = false →
    (old.testBit 63 = false → old < v → s.fenceSignal p h v ctx = s.fenceSet p i v 0 ctx) ∧
    (old.testBit 63 = false → v = old → s.fenceSignal p h v ctx = s) ∧
    (old.testBit 63 = true ∨ v < old → s.fenceSignal p h v ctx = s.fenceIgnore p i) ∧
    (old.testBit 63 = true → s.fenceError p h v ctx = s.fenceIgnore p i) ∧
    (old.testBit 63 = false → s.fenceError p h v ctx = s.fenceSet p i (2 ^ 63 + v) v ctx))) ∧
  (∀ (s : State) (p i v code ctx : Nat) (d : DirSt) (ch off : Nat), (s.part p).dir = some d → i < d.fences → d.base % 256 = 0 →
    s.locatePla (s.part p).pat ((d.fence i) % 2 ^ 44) = .ok (.chan ch off) → d.fence i < 2 ^ 44 → v < 2 ^ 64 → Mem.wf (s.chan ch).mem = true →
    fieldAt (s.fenceRec p i) 0x14 1 = 0xFF →
    fieldAt ((s.fenceSet p i v code ctx).fenceRec p i) 0 8 = v ∧
    (∀ o, 8 ≤ o → o < 32 → fieldAt ((s.fenceSet p i v code ctx).fenceRec p i) o 1 = fieldAt (s.fenceRec p i) o 1))

namespace Sys2Proof.Claim

open Sys2Proof.Machine

-- the control queue

/-- The control queue once its packet has been taken: HEAD is past it, and no FIFO word of it is left to fail its parity. -/
def ctlPast (u : State) (p : Nat) (b : List Byte) : State :=
  u.updPart p (fun y => { y with badPacket := false, cq := { y.cq with head := (y.cq.head + pkSlots b) % 2 ^ 32 } })

/-- The control packet in progress, and the device's reference on its OBJ_REF (R391, R412). -/
def ctlTaken (u : State) (p slot : Nat) (b : List Byte) : State :=
  let cur : PacketRun :=
    { typ := pkTyp b, slot := slot, bytes := b, doneFence := pkFence b, doneValue := fieldAt b 0x10 8, objRef := fieldAt b 0x0C 4 }
  ((ctlPast u p b).updPart p (fun y => { y with cq := { y.cq with cur := some cur } })).objRefAdd p (fieldAt b 0x0C 4)

/-- A control packet stands whole at the head of the control queue of an ENABLED partition and meets the checks that come before its own;
`u` is the state once the ring has been read. -/
structure ControlReady (s u : State) (p : Fin 64) (b : List Byte) : Prop where
  runs : (s.part p).runs = true
  read : s.headOf p 0 (s.part p).cq = (u, .packet b false)
  passes : (ctlPast u p b).controlCheck p b false = none

/-- The state in which the packet of `s` is in progress. -/
def ctlState (s u : State) (p : Fin 64) (b : List Byte) : State := ctlTaken u p (s.part p).cq.head b

/-- The packet is refused: its fence takes the code, a record is posted, and the queue goes on (R392). -/
def ctlRefused (s u : State) (p : Fin 64) (b : List Byte) (k : Nat) : State := (ctlPast u p b).controlRefuse p (s.part p).cq.head b k

end Sys2Proof.Claim

/-- R378, R380, R382 to R384, R389: DIR_SET gives a partition its directory, every generation 1; CTX_CREATE makes a context LIVE with the
fields of its packet; each check that fails refuses the packet with its code. -/
def Obligations.DirectoryAndContexts : Prop :=
  ∀ (s u : State) (p : Fin 64) (b : List Byte), ControlReady s u p b →
    let v := ctlPast u p b
    (pkTyp b = 0x10 →
      let base := pay b 0 8
      let f := pay b 8 4
      let m := pay b 12 4
      let ok := (v.part p).dir.isNone && isPla base && base % 65536 == 0 && powTwoIn f 64 65536 && powTwoIn m 64 65536
        && decide (base % 2 ^ 44 + dirLen f m ≤ (v.part p).pat.top)
      (payZero b 16 48 = false → exec (.dirSet p) s = .next (ctlRefused s u p b 0x0401)) ∧
      (payZero b 16 48 = true → ok = false → exec (.dirSet p) s = .next (ctlRefused s u p b 0x0409)) ∧
      (payZero b 16 48 = true → ok = true → ∃ t, exec (.dirSet p) s = .next t ∧
        (t.part p).dir = some { base := base % 2 ^ 44, fences := f, memobjs := m } ∧ (∀ kind i, (t.part p).gen kind i = 1) ∧
        (t.part p).cq.cur = none)) ∧
    (pkTyp b = 0x11 →
      let c := pay b 4 2
      let form := pay b 0 4 == 1 && decide (1 ≤ pay b 0x20 1) && decide (pay b 0x20 1 ≤ 16) && decide (pay b 0x26 1 ≤ 100)
        && decide (pay b 0x27 1 ≤ 15) && payZero b 0x28 24
      let ok := form && decide (c < (v.part p).desc.ctxMax) && decide ((v.ctx p c).state = 0) && (v.part p).genLeft 1 c
        && (v.part p).pat.isVd (pay b 6 2)
      (ok = false → exec (.ctxCreate p) s = .next (ctlRefused s u p b 0x0408)) ∧
      (ok = true → xlateOk (pay b 8 8) (pay b 0x10 8) = false → exec (.ctxCreate p) s = .next (ctlRefused s u p b 0x0801)) ∧
      (ok = true → xlateOk (pay b 8 8) (pay b 0x10 8) = true → ∃ t, exec (.ctxCreate p) s = .next t ∧
        t.ctx p c = { state := 1, vd := pay b 6 2, xs1 := pay b 8 8, xg := pay b 0x10 8, seed := pay b 0x18 8, queues := pay b 0x20 1,
                      slice := pay b 0x26 1, label := pay b 0x27 1 } ∧ (t.part p).cq.cur = none))

/-- R378, R389, R414, R415: CTX_DESTROY and an ABORT make a context ABORTING; its teardown flushes its queues, discards its run, drops its
references and gives its fences ABANDONED (0x8404), step by step, and ends with the context free, its queues disabled and its generation
advanced, when the CTX_DESTROY that asked completes. A CTX_DESTROY that names no context is refused with PACKET_INVALID (DEDUCED, log entry
54). -/
def Obligations.ContextTeardown : Prop :=
  (∀ (s u : State) (p : Fin 64) (b : List Byte), ControlReady s u p b → pkTyp b = 0x12 →
    let v := ctlState s u p b
    let c := pay b 0 2
    ((payZero b 2 62 = false ∨ 256 ≤ c ∨ ((ctlPast u p b).ctx p c).state = 0) →
      exec (.ctxDestroy p) s = .next (ctlRefused s u p b 0x0401)) ∧
    (payZero b 2 62 = true → c < 256 → ((ctlPast u p b).ctx p c).state = 2 → exec (.ctxDestroy p) s = .next (v.controlDone p)) ∧
    (payZero b 2 62 = true → c < 256 → ((ctlPast u p b).ctx p c).state = 1 → ∃ t, exec (.ctxDestroy p) s = .next t ∧
      t.ctx p c = { v.ctx p c with state := 2, abortStep := 1 } ∧ (t.part p).cq.cur = (v.part p).cq.cur)) ∧
  (∀ (s : State) (port : Fin 4) (p : Fin 64) (c : Fin 256) (v : BitVec 64), s.vfServes port p = true →
    (v.toNat = 1 → (s.ctx p c).state = 1 → ∃ t, exec (.dblAbort port p c v) s = .next t ∧
      t.ctx p c = { s.ctx p c with state := 2, abortStep := 1 }) ∧
    (v.toNat ≤ 1 → (v.toNat = 0 ∨ (s.ctx p c).state = 2) → (s.ctx p c).state ≠ 0 → exec (.dblAbort port p c v) s = .next s) ∧
    ((2 ≤ v.toNat ∨ (s.ctx p c).state = 0) → exec (.dblAbort port p c v) s =
      .next (s.updPart p (fun x => { x with dropped := satInc32 x.dropped })))) ∧
  (∀ (s : State) (p : Fin 64) (c : Fin 256), (s.ctx p c).state = 2 →
    let on (s : State) (n : Nat) : State := s.updCtx p c (fun x => { x with abortStep := n })
    ((s.ctx p c).abortStep = 1 → exec (.contextTeardownStep p c) s =
      .next (on ((s.ctx p c).queueIds.foldl (fun s q => s.flushQueue p c q 0x8404) s) 2)) ∧
    ((s.ctx p c).abortStep = 2 → exec (.contextTeardownStep p c) s = .next (on (s.abortRun p c) 3)) ∧
    ((s.ctx p c).abortStep = 3 → exec (.contextTeardownStep p c) s = .next (on (s.abortRefs p c) 4)) ∧
    ((s.ctx p c).abortStep = 4 → exec (.contextTeardownStep p c) s =
      .next (on ((s.ownedFences p c).foldl (fun s i => s.fenceErrorIdx p i 0x8404 c) s) 5)) ∧
    ((s.ctx p c).abortStep = 5 → ∃ t, exec (.contextTeardownStep p c) s = .next t ∧ (t.ctx p c).state = 0 ∧
      (t.ctx p c).abortStep = 0 ∧ (t.ctx p c).reason = 0x8404 ∧ (∀ e ∈ (t.ctx p c).qs, e.2.enabled = false) ∧
      (t.part p).gen 1 c = (s.part p).gen 1 c + 1 ∧ ((s.part p).destroying c = true → (t.part p).cq.cur = none)))

/-- R386, R387, R393, R404, R407 to R410: the queues of a partition. QUEUE_SET enables a work queue from its descriptor, empty; one that fails
its check is refused with QUEUE_INVALID. QUEUE_CTL, refused with PACKET_INVALID where it names no enabled queue, acts when the queue is at a
packet boundary and waits for one otherwise: resume clears the stop, flush discards the packets that have not started, disable also disables. A
doorbell gives a queue its TAIL, and in a teardown its packets are flushed; one beyond its entries stops the queue; one that names no queue is
dropped and counted. EVQ_SET with ENABLE 1 enables an event queue from its descriptor with PRODUCER and CONSUMER at 0 (a record that the hub
held for the queue is then written into it at once, which PRODUCER counts), keeps the descriptor and completes; with ENABLE 0 it disables the
queue; a claim takes the oldest unclaimed record; a completion of a claimed record makes it complete, and CONSUMER advances where the record at
its front is complete; a completion that names no claimed record is counted, and a claim of nothing reads all ones. The model's choices: the code
of a QUEUE_CTL that names no queue and the cleared REASON are DEDUCED (log entry 54); a packet's place in the start order is stamped when it
reaches HEAD, at a doorbell where the queue was empty (log entry 74). -/
def Obligations.QueuesAndDoorbells : Prop :=
  (∀ (s u : State) (p : Fin 64) (b : List Byte), ControlReady s u p b → pkTyp b = 0x13 →
    let v := ctlState s u p b
    let d := payload b
    let c := fieldAt d 0x20 2
    let q := fieldAt d 5 1
    let ok := queueDescOk d false && (fieldAt d 4 1).testBit 0 && decide (c < 256) && decide ((v.ctx p c).state = 1)
      && decide (q < (v.ctx p c).queues) && ((v.ctx p c).queue q).cur.isNone
    (∀ w, ok = true → v.ringReads p c (fieldAt d 8 8) (64 * fieldAt d 0x10 4) = (w, true) → ∃ t, exec (.queueSet p) s = .next t ∧
      t.queue p c q = queueFresh d ∧ (t.part p).cq.cur = none) ∧
    (ok = false → ∃ t, exec (.queueSet p) s = .next t ∧ (t.part p).cq.cur = none ∧ (t.part p).cq.stopped = (v.part p).cq.stopped ∧
      (c < 256 → q < 16 → (t.queue p c q).reason = 0x0406 ∧ (t.queue p c q).enabled = (v.queue p c q).enabled))) ∧
  (∀ (s u : State) (p : Fin 64) (b : List Byte) (op : Nat) (row : Fin 64 → Instr),
    (op, row) ∈ [(1, Instr.queueCtlResume), (2, Instr.queueCtlFlush), (3, Instr.queueCtlFlushResume), (4, Instr.queueCtlDisable)] →
    ControlReady s u p b → (s.part p).cq.cur = none → pkTyp b = 0x14 → pay b 3 1 = op →
    let v := ctlState s u p b
    let c := pay b 0 2
    let q := pay b 2 1
    let named := payZero b 4 60 && decide (c < 256) && decide (((ctlPast u p b).ctx p c).state ≠ 0) && decide (q < 16)
      && ((ctlPast u p b).queue p c q).enabled
    (named = false → exec (row p) s = .next (ctlRefused s u p b 0x0401)) ∧
    (named = true → (v.queue p c q).cur ≠ none → ∃ t, exec (row p) s = .next t ∧ (t.queue p c q).ctl = [op] ∧
      (t.part p).cq.cur = (v.part p).cq.cur) ∧
    (named = true → (v.queue p c q).cur = none → exec (row p) s = .next ((v.queueCtl p c q op).controlDone p))) ∧
  (∀ (s : State) (p : Fin 64) (r : PacketRun) (op : Nat) (row : Fin 64 → Instr),
    (op, row) ∈ [(1, Instr.queueCtlResume), (2, Instr.queueCtlFlush), (3, Instr.queueCtlFlushResume), (4, Instr.queueCtlDisable)] →
    (s.part p).cq.cur = some r → r.typ = 0x14 → pay r.bytes 3 1 = op → (s.part p).runs = true →
    let c := pay r.bytes 0 2
    let q := pay r.bytes 2 1
    ((s.queue p c q).cur ≠ none → exec (row p) s = .next s) ∧
    ((s.queue p c q).cur = none → exec (row p) s = .next ((s.queueCtl p c q op).controlDone p))) ∧
  (∀ (s : State) (p c q op : Nat), 1 ≤ op → op ≤ 4 →
    let x := s.queue p c q
    let y := (s.queueCtl p c q op).queue p c q
    y.enabled = (x.enabled && op != 4) ∧ y.stopped = (x.stopped && !(op == 1 || op == 3)) ∧ y.ctl = [] ∧
    (op = 1 ∨ op = 3 → y.reason = 0) ∧ (op = 1 → y.head = x.head) ∧ (op ≠ 1 → y.waitingSlots = 0) ∧ y.tail = x.tail) ∧
  (∀ (s : State) (port : Fin 4) (p : Fin 64) (c : Fin 256) (v : BitVec 64), s.vfServes port p = true →
    let q := bitsAt v.toNat 39 32
    let tail := v.toNat % 2 ^ 32
    let x := s.queue p c q
    let named := bitsAt v.toNat 63 40 == 0 && decide ((s.ctx p c).state ≠ 0) && decide (q < (s.ctx p c).queues) && x.enabled
    (named = false → exec (.dblRing port p (some c) v) s = .next (s.updPart p (fun y => { y with dropped := satInc32 y.dropped }))) ∧
    (named = true → (tail + 2 ^ 32 - x.head) % 2 ^ 32 ≤ x.entries →
      let t := s.updQueue p c q (fun y => { y with tail := tail })
      let u := if x.waitingSlots = 0 ∧ x.cur = none then t.stampHead p c q else t
      ((s.ctx p c).state = 1 ∨ (s.ctx p c).abortStep < 2 → exec (.dblRing port p (some c) v) s = .next u) ∧
      ((s.ctx p c).state = 2 → 2 ≤ (s.ctx p c).abortStep →
        exec (.dblRing port p (some c) v) s = .next (u.flushQueue p c q 0x8404))) ∧
    (named = true → x.entries < (tail + 2 ^ 32 - x.head) % 2 ^ 32 → ∃ t, exec (.dblRing port p (some c) v) s = .next t ∧
      t.queue p c q = { x with stopped := true, reason := 0x0407, stopAt := x.head })) ∧
  (∀ (s : State) (port : Fin 4) (p : Fin 64) (v : BitVec 64), s.vfServes port p = true →
    let tail := v.toNat % 2 ^ 32
    let x := (s.part p).cq
    ((v.toNat / 2 ^ 32 ≠ 0 ∨ x.enabled = false) → exec (.dblRing port p none v) s =
      .next (s.updPart p (fun y => { y with dropped := satInc32 y.dropped }))) ∧
    (v.toNat / 2 ^ 32 = 0 → x.enabled = true → (tail + 2 ^ 32 - x.head) % 2 ^ 32 ≤ x.entries →
      exec (.dblRing port p none v) s = .next (s.updPart p (fun y => { y with cq := { y.cq with tail := tail } }))) ∧
    (v.toNat / 2 ^ 32 = 0 → x.enabled = true → x.entries < (tail + 2 ^ 32 - x.head) % 2 ^ 32 →
      exec (.dblRing port p none v) s = .next (s.packetRecord p 0xFFFF 0xFF 0 tail 0 0x0407))) ∧
  (∀ (s u : State) (p : Fin 64) (b : List Byte), ControlReady s u p b → pkTyp b = 0x15 →
    let v := ctlState s u p b
    let d := payload b
    let q := fieldAt d 5 1
    ((pay b 4 1).testBit 0 = true → 2 ≤ q → q < 64 →
      (∀ w, v.evqCheck p q d = (w, true) →
        let x := w.evqEnable p q d
        ((∀ h ∈ (w.part p).held, h.evq ≠ q) → (x.part p).evq q =
          { (w.part p).evq q with
              enabled := true, fast := (fieldAt d 4 1).testBit 1, reason := 0, ring := fieldAt d 8 8, entries := fieldAt d 0x10 4,
              producer := 0, consumer := 0, targets := fieldAt d 0x20 8, ctx := fieldAt d 0x28 2, claimed := [], completed := [] }) ∧
        exec (.evqSet p) s = .next ((x.keepEvq p q).controlDone p) ∧
        ∃ t, exec (.evqSet p) s = .next t ∧ ((t.part p).evq q).enabled = true ∧
          ((t.part p).evq q).ring = fieldAt d 8 8 ∧ ((t.part p).evq q).entries = fieldAt d 0x10 4 ∧
          ((t.part p).evq q).consumer = 0 ∧ ((t.part p).evq q).reason = 0 ∧ (t.part p).cq.cur = none) ∧
      (∀ w, v.evqCheck p q d = (w, false) → ∃ t, exec (.evqSet p) s = .next t ∧ ((t.part p).evq q).reason = 0x0406 ∧
        ((t.part p).evq q).enabled = ((w.part p).evq q).enabled ∧ (t.part p).cq.cur = none)) ∧
    ((pay b 4 1).testBit 0 = false → 2 ≤ pay b 5 1 → pay b 5 1 < 64 → evqDescOk d (pay b 5 1) false = true →
      ∃ t, exec (.evqSetDisable p) s = .next t ∧ ((t.part p).evq (pay b 5 1)).enabled = false ∧ (t.part p).cq.cur = none ∧
        (∀ h ∈ (t.part p).held, h.evq ≠ pay b 5 1))) ∧
  (∀ (s : State) (port : Fin 4) (p : Fin 64) (fast : Bool) (q : Fin 64),
    let e := (s.part p).evq q
    (s.vfServes port p = false → ∃ t, exec (.evqClaim port p fast q) s = .next t ∧ (t.port port).claimValue = 2 ^ 64 - 1 ∧
      t.parts = s.parts) ∧
    (s.vfServes port p = true → (e.enabled = false ∨ e.fast ≠ fast ∨ e.unclaimed = []) →
      ∃ t, exec (.evqClaim port p fast q) s = .next t ∧ (t.port port).claimValue = 0xFFFFFFFF ∧ t.parts = s.parts) ∧
    (∀ n rest, s.vfServes port p = true → e.enabled = true → e.fast = fast → e.unclaimed = n :: rest →
      ∃ t, exec (.evqClaim port p fast q) s = .next t ∧ (t.port port).claimValue = n % e.entries ∧
        (t.part p).evq q = { e with claimed := e.claimed ++ [n] })) ∧
  (∀ (s : State) (port : Fin 4) (p : Fin 64) (fast : Bool) (q : Fin 64) (v : BitVec 64), s.vfServes port p = true →
    let e := (s.part p).evq q
    let hit := e.claimed.find? (fun n => decide (n % e.entries = v.toNat % 2 ^ 32))
    ((e.enabled = false ∨ e.fast ≠ fast ∨ hit = none) → exec (.evqComplete port p fast q v) s =
      .next (s.updEvq p q (fun e => { e with bad := satInc32 e.bad }))) ∧
    (∀ n, e.enabled = true → e.fast = fast → hit = some n → (s.part p).held = [] → (s.part p).faultHeld = [] →
      ∃ t, exec (.evqComplete port p fast q v) s = .next t ∧
        (t.part p).evq q = ({ e with claimed := dropAll e.claimed n, completed := e.completed ++ [n] }).advance e.entries)) ∧
  (∀ (e : EvqSt) (fuel : Nat), (e.advance fuel).producer = e.producer ∧ (e.advance fuel).claimed = e.claimed ∧
    (hasNat e.completed e.consumer = true → e.consumer ≠ e.producer → 0 < fuel →
      (e.advance fuel).consumer ≠ e.consumer ∨ 2 ^ 32 ≤ fuel) ∧
    (hasNat e.completed e.consumer = false → e.advance fuel = e))

/-- The form that every memory of the model is kept in (addresses strictly rising, no entry equal to what an unlisted byte reads as): every step
keeps it, whatever command waits at the front of the queue, and so does a tick of the clock. The memories are those of the clusters and their
cores, the channels, host memory, the admin command buffers, management's SRAM and what is kept of saved contexts (R294, R295, R380, R423, R442
name the occasions on which they are zeroed, saved and loaded); that the form exists and is kept is the model's own, and no rule's. -/
def Obligations.MemoriesStayCanonical : Prop :=
  ∀ (s t : State), s.memOk = true → Sys2Proof.Machine.step s = .next t → t.memOk = true

/-- R377, R378, R390, R398, R403, R411 to R413: FENCE_CREATE and MEMOBJ_CREATE write their records with the handle of the index's current
generation; FENCE_DESTROY advances the index's generation, so that every handle of the fence is stale; MEMOBJ_FREE marks an object,
which is freed where no reference is left, and the end of its zeroing advances the generation. -/
def Obligations.FenceAndMemoryObjects : Prop :=
  (∀ (s u : State) (p : Fin 64) (b : List Byte) (d : DirSt), ControlReady s u p b → ((ctlPast u p b).part p).dir = some d →
    let w := ctlPast u p b
    let v := ctlState s u p b
    (pkTyp b = 0x16 → pay b 4 2 < 256 → payZero b 7 1 = true → payZero b 0x18 40 = true →
      let i := pay b 0 4
      (d.fences ≤ i → exec (.fenceCreate p) s = .next (ctlRefused s u p b 0x0403)) ∧
      (i < d.fences → (bitAt (fieldAt (w.fenceRec p i) 0x15 1) 0 = true ∨ (w.part p).genLeft 3 i = false) →
        exec (.fenceCreate p) s = .next (ctlRefused s u p b 0x0404)) ∧
      (i < d.fences → bitAt (fieldAt (w.fenceRec p i) 0x15 1) 0 = false → (w.part p).genLeft 3 i = true →
        w.evqCode p (pay b 6 1) = none → bitAt (pay b 8 8) 63 = false →
        exec (.fenceCreate p) s = .next ((v.fencePut p i 0 (leBytes 8 (pay b 8 8) ++ leBytes 8 (pay b 0x10 8)
          ++ leBytes 4 ((v.part p).handle 3 i) ++ leBytes 1 (pay b 6 1) ++ leBytes 1 1 ++ leBytes 2 (pay b 4 2) ++ zeros 8)).controlDone p))) ∧
    (pkTyp b = 0x17 → payZero b 4 60 = true → ∀ i, w.handleIdx p 3 (pay b 0 4) = .ok i →
      ∃ t, exec (.fenceDestroy p) s = .next t ∧ (t.part p).gen 3 (pay b 0 4 % 65536) = (w.part p).gen 3 (pay b 0 4 % 65536) + 1 ∧
        (t.part p).cq.cur = none) ∧
    (pkTyp b = 0x17 → payZero b 4 60 = true → ∀ k, w.handleIdx p 3 (pay b 0 4) = .error k →
      exec (.fenceDestroy p) s = .next (ctlRefused s u p b k)) ∧
    (pkTyp b = 0x18 → pay b 4 2 < 256 → payZero b 7 1 = true → payZero b 0x18 40 = true → isPla (pay b 8 8) = true →
      pay b 8 8 % 256 = 0 → pay b 0x10 8 % 256 = 0 → pay b 8 8 % 2 ^ 44 + pay b 0x10 8 ≤ (w.part p).pat.top → pay b 0 4 < d.memobjs →
      bitAt (fieldAt (w.memRec p (pay b 0 4)) 0x18 1) 0 = false → bitAt (fieldAt (w.memRec p (pay b 0 4)) 0x18 1) 2 = false →
      (w.part p).genLeft 4 (pay b 0 4) = true → w.evqCode p (pay b 6 1) = none →
      (refPlace (w.refTable p (pay b 4 2)) (pay b 0 4)).isSome = true →
      let i := pay b 0 4
      let x := v.memPut p i 0 (leBytes 8 (pay b 8 8) ++ leBytes 8 (pay b 0x10 8) ++ leBytes 4 1 ++ leBytes 4 ((v.part p).handle 4 i)
        ++ leBytes 1 1 ++ leBytes 1 (pay b 6 1) ++ leBytes 2 (pay b 4 2) ++ zeros 4)
      exec (.memobjCreate p) s = .next ((x.refPut p (pay b 4 2) i (refCount (x.refTable p (pay b 4 2)) i + 1)).controlDone p)) ∧
    (pkTyp b = 0x19 → payZero b 4 60 = true →
      (∀ i, w.handleIdx p 4 (pay b 0 4) = .ok i →
        let x := v.memPut p i 0x18 (leBytes 1 (setBit (fieldAt (v.memRec p i) 0x18 1) 1 true))
        exec (.memobjFree p) s = .next ((x.memMaybeFree p i (tabGet 0xFFFF (x.part p).lastDrop i)).controlDone p)) ∧
      (∀ k, w.handleIdx p 4 (pay b 0 4) = .error k → exec (.memobjFree p) s = .next (ctlRefused s u p b k)))) ∧
  (∀ (s : State) (p : Fin 64) (idx ctx : Nat), tabFind (s.part p).zeroing idx = some ctx →
    ∃ t, exec (.memobjZeroingComplete p idx) s = .next t ∧ (t.part p).gen 4 idx = (s.part p).gen 4 idx + 1 ∧
      (t.part p).zeroing = tabErase (s.part p).zeroing idx) ∧
  (∀ (x : PartSt) (kind i : Nat), kind < 16 → i < 65536 → x.handle kind i / 2 ^ 28 = kind ∧ x.handle kind i % 65536 = i ∧
    bitsAt (x.handle kind i) 27 16 = x.gen kind i % 4096)

/-- R320 to R323: a CXL.mem read in the window of a partition that the port owns returns the line under the live pattern and notes it in the
channel's directory, or, where that is full, evicts a line and waits; a write merges its line. Every other request in the window is refused:
zero data marked poisoned, or the data discarded, and counted against the partition or as a stray. The model's choices: of a full directory the
line that has been there longest and is not on its way out goes (DESIGN CHOICE, log entry 12), poison reaches what ECC cannot correct (log
entry 69), and a request for which the port has no credit of the partition's label 0 is not entered (log entry 42). -/
def Obligations.HostReadsPartitionMemory : Prop :=
  (∀ (s g : State) (port : Fin 4) (addr : Nat) (p ch off : Nat), s.hdmLookup port (addr / 64 * 64) = .serve p ch off →
    s.cxlGate port p ch false = (g, true) →
    let c := s.chan ch
    (hasNat c.hostLines (off / 64) = true ∨ c.hostLines.length < 32768 →
      ∃ t, exec (.cxlMemRead port addr) s = .next t ∧ (t.port port).readData = memRead c.mem (64 * (off / 64)) 64 ∧
        (t.port port).readPoison = (anyPoison c.poison (64 * (off / 64)) 64 || c.uncorrectableAt (64 * (off / 64)) 64) ∧
        hasNat (t.chan ch).hostLines (off / 64) = true ∧ hasNat (t.chan ch).hostShared (off / 64) = false ∧
        (t.chan ch).mem = c.mem ∧ { t with channels := s.channels, ports := s.ports, regulators := s.regulators } = s) ∧
    (hasNat c.hostLines (off / 64) = false → 32768 ≤ c.hostLines.length →
      (∀ old, (c.hostLines.filter (fun l => !hasNat c.bisnp l)).head? = some old → exec (.cxlMemRead port addr) s =
        .next (g.updChan ch (fun c => { c with bisnp := addOnce c.bisnp old, lineWait := c.lineWait ++ [(port.val, off / 64)] }))) ∧
      ((∀ l ∈ c.hostLines, hasNat c.bisnp l = true) → exec (.cxlMemRead port addr) s =
        .next (g.updChan ch (fun c => { c with lineWait := c.lineWait ++ [(port.val, off / 64)] }))))) ∧
  (∀ (s g : State) (port : Fin 4) (addr : Nat) (data : List Byte) (poison : Bool) (p ch off : Nat),
    s.hdmLookup port (addr / 64 * 64) = .serve p ch off → s.cxlGate port p ch true = (g, true) → data.length = 64 →
    Mem.wf (s.chan ch).mem = true →
    ∃ t, exec (.cxlMemWrite port addr data poison) s = .next t ∧ memRead (t.chan ch).mem off 64 = data ∧
      memSame (s.chan ch).mem (t.chan ch).mem off 64 ∧ (∀ j, j ≠ ch → t.chan j = s.chan j) ∧
      (poison = true → anyPoison (t.chan ch).poison off 64 = true) ∧
      { t with channels := s.channels, regulators := s.regulators } = s) ∧
  (∀ (s g : State) (port : Fin 4) (addr : Nat) (data : List Byte) (poison : Bool) (p ch off : Nat),
    s.hdmLookup port (addr / 64 * 64) = .serve p ch off →
    (s.cxlGate port p ch false = (g, false) → exec (.cxlMemRead port addr) s = .next g) ∧
    (s.cxlGate port p ch true = (g, false) → exec (.cxlMemWrite port addr data poison) s = .next g)) ∧
  (∀ (s g : State) (port p ch : Nat) (w b : Bool), s.cxlGate port p ch w = (g, b) → { g with regulators := s.regulators } = s) ∧
  (∀ (s : State) (port : Fin 4) (addr : Nat) (data : List Byte) (poison : Bool) (p : Option Nat),
    s.hdmLookup port (addr / 64 * 64) = .refused p →
    let counted := match p with
      | some n => s.updPart n (fun x => { x with hdmRefused := satInc32 x.hdmRefused })
      | none => s.updPort port (fun h => { h with stray := satInc32 h.stray })
    exec (.cxlMemWrite port addr data poison) s = .next counted ∧
    exec (.cxlMemRead port addr) s = .next (counted.updPort port (fun h => { h with readData := zeros 64, readPoison := true }))) ∧
  (∀ (s : State) (port : Nat) (b addr : Nat), (s.port port).hdmBase = some b → s.phase = .ready → b ≤ addr → addr < b + 2 ^ 50 →
    let p := (addr - b) / 2 ^ 44
    let pla := (addr - b) % 2 ^ 44
    (s.portOwns port p = false → s.hdmLookup port addr = .refused none) ∧
    (s.portOwns port p = true → (s.part p).pat.resolve pla = none → s.hdmLookup port addr = .refused (some p)) ∧
    (∀ ch off, s.portOwns port p = true → (s.part p).pat.resolve pla = some (ch, off) → (s.chEntry ch).state = .bound →
      (s.chEntry ch).withdrawing = false → s.plaRefuses (s.part p).pat pla ch = none → s.hdmLookup port addr = .serve p ch off) ∧
    (∀ ch off, s.portOwns port p = true → (s.part p).pat.resolve pla = some (ch, off) →
      (s.chEntry ch).withdrawing = true ∨ s.plaRefuses (s.part p).pat pla ch ≠ none → s.hdmLookup port addr = .refused (some p)))

/-- R322, R324, R325, R474, R478: a back-invalidated line that the host gives up leaves the directory, with its write-back, and what waited
for that goes on; one that the host keeps after a device read is shared; a back-invalidation that times out fails the port; a withdrawn
channel's strip is free to start once its directory is empty; a snooped line is given up. That the host keeps the line shared after a
BISnpData is DEDUCED (log entry 12); the severity of the time-out's log entry is the model's choice (log entry 13). -/
def Obligations.BackInvalidation : Prop :=
  (∀ (s : State) (ch : Fin 320) (line : Nat) (dirty : Option (List Byte)), hasNat (s.chan ch).hostLines line = true →
    (hasNat (s.chan ch).bisnp line = true ∨ (s.chEntry ch).withdrawing = true →
      exec (.bisnpResponse ch line dirty) s = .next ((s.writeBack ch line dirty).lineGone ch line) ∧
      ((s.chan ch).lineWait = [] → (s.chan ch).writeWait = [] → ∃ t, exec (.bisnpResponse ch line dirty) s = .next t ∧
        hasNat (t.chan ch).hostLines line = false ∧ hasNat (t.chan ch).bisnp line = false ∧ (dirty = none → (t.chan ch).mem = (s.chan ch).mem) ∧
        (∀ bs, dirty = some bs → bs.length = 64 → Mem.wf (s.chan ch).mem = true → memRead (t.chan ch).mem (64 * line) 64 = bs ∧
          memSame (s.chan ch).mem (t.chan ch).mem (64 * line) 64) ∧ { t with channels := s.channels } = s)) ∧
    (hasNat (s.chan ch).bisnp line = false → (s.chEntry ch).withdrawing = false → hasNat (s.chan ch).bisnpData line = true →
      ∃ t, exec (.bisnpResponse ch line dirty) s = .next t ∧ hasNat (t.chan ch).hostLines line = true ∧
        hasNat (t.chan ch).hostShared line = true ∧ hasNat (t.chan ch).bisnpData line = false ∧
        (dirty = none → (t.chan ch).mem = (s.chan ch).mem) ∧ { t with channels := s.channels } = s)) ∧
  (∀ (s : State) (ch : Fin 320) (line : Nat) (dirty : Option (List Byte)), hasNat (s.chan ch).hostLines line = false →
    exec (.bisnpResponse ch line dirty) s = .next s) ∧
  (∀ (s : State) (ch : Fin 320) (line : Nat), hasNat (s.chan ch).bisnp line = true ∨ hasNat (s.chan ch).bisnpData line = true →
    let e := s.chEntry ch
    exec (.bisnpTimeout ch line) s =
      .next (((s.lineGone ch line).logEntry 4 2 0x8043 e.owner 1 (zeros 14 ++ leBytes 2 0xFFFF)).portFails (s.part e.owner).desc.ownerPort)) ∧
  (∀ (s : State) (ch : Fin 320), (s.chEntry ch).withdrawing = true →
    ((s.chan ch).hostLines = [] → ∃ t, exec (.hdmWithdrawComplete ch) s = .next t ∧
      t.chEntry ch = { s.chEntry ch with withdrawing := false }) ∧
    ((s.chan ch).hostLines ≠ [] → exec (.hdmWithdrawComplete ch) s = .next s)) ∧
  (∀ (s : State) (port : Fin 4) (line : Nat), exec (.hostSnoop port line) s =
    .next (s.updPort port (fun h => { h with heldLines := h.heldLines.filter (fun x => decide (x.1 ≠ line)) })))

/-- R309, R311, R477, R478: a module that trains serves its port, and one that fails is out until package reset; a replay that exceeds its
budget takes the module out, and without a module the port fails until it has retrained; an IDE failure fails the port; a die-to-die module
that trains carries traffic, and one that fails is out at once and waits for the retirement with CAUSE 3 that the management core carries
out (R286). -/
def Obligations.LinksTrainAndFail : Prop :=
  (∀ (s : State) (port : Fin 4) (u : Fin 2), s.linksTrain = true → s.sites.testBit port = true → (s.port port).failed = false →
    (s.port port).modules.testBit u = false → (s.port port).outModules.testBit u = false →
    exec (.linkTraining (.host port u) true) s = .next (s.updPort port (fun h => { h with modules := setBit h.modules u true })) ∧
    exec (.linkTraining (.host port u) false) s = .next (s.updPort port (fun h => { h with outModules := setBit h.outModules u true }))) ∧
  (∀ (s : State) (port : Fin 4) (u : Fin 2) (ok : Bool), (s.port port).outModules.testBit u = true →
    exec (.linkTraining (.host port u) ok) s = .next s) ∧
  (∀ (s : State) (lm : Fin 24), (s.phase = .bootCode ∨ s.phase = .identity) →
    exec (.linkTraining (.d2d lm) true) s = .next { s with recov := { s.recov with linkOut := dropAll s.recov.linkOut lm } }) ∧
  (∀ (s : State) (lm : Fin 24), (s.phase = .bootCode ∨ s.phase = .identity ∨
      s.phase = .ready ∧ (s.dieRetrains (edgeDies (lmEdge lm)).1 || s.dieRetrains (edgeDies (lmEdge lm)).2) = true) →
    let e := s.lmEntry lm
    (e.state = .disabled ∨ e.state = .retired ∨ e.retireAs ≠ 0 → exec (.linkTraining (.d2d lm) false) s = .next s) ∧
    (e.state ≠ .disabled → e.state ≠ .retired → e.retireAs = 0 → ∃ t, exec (.linkTraining (.d2d lm) false) s = .next t ∧
      t.lmEntry lm = { e with retireAs := 3, stripped := e.stripFailed } ∧ (3, lm.val, 0xFF) ∈ t.recov.retiring ∧ t.lmUp lm = false ∧
      ∀ l, l ≠ lm.val → t.lmEntry l = s.lmEntry l ∧ t.lmUp l = s.lmUp l)) ∧
  (∀ (s : State) (lm : Fin 24), s.lmUp lm = true → ∃ t, exec (.d2dReplayTimeout lm) s = .next t ∧ t.lmUp lm = false) ∧
  (∀ (s : State) (port : Fin 4) (u : Fin 2), (s.port port).modules.testBit u = true →
    (setBit (s.port port).modules u false ≠ 0 → exec (.hostReplayTimeout port u) s =
      .next ((s.updPort port (fun h => { h with modules := setBit (s.port port).modules u false })).portNotice port)) ∧
    (setBit (s.port port).modules u false = 0 → exec (.hostReplayTimeout port u) s = .next (s.portFails port))) ∧
  (∀ (s : State) (port : Fin 4), (s.port port).modules ≠ 0 → exec (.ideIntegrityFailure port) s = .next (s.portFails port)) ∧
  (∀ (s : State) (port : Nat), (s.port port).failed = false → ((s.portFails port).port port).failed = true ∧
    ((s.portFails port).port port).modules = 0) ∧
  (∀ (s : State) (port : Fin 4) (m : Fin 4), (s.port port).failed = true → s.sites.testBit port = true →
    let now := m.val &&& (3 ^^^ (s.port port).outModules)
    ∃ u, ((u.port port).modules = now ∧ (u.port port).failed = decide (now = 0) ∧
        (u.port port).outModules = (s.port port).outModules ||| (3 ^^^ m.val)) ∧
      exec (.hostPortRetrained port m) s = .next (if now = 0 then u else u.portNotice port))

/-- R331, R332, R338 to R342: a walk that ends well caches its translation, one that faults records a fault record, and one that no walker
serves waits; at the end of its time a batch is posted; an answer that names no unanswered batch is counted and ignored, RETRY ends the
batch and its accesses are issued again, and FAIL ends it with its contexts' runs; a walker that is freed changes the walkers alone. The
model's choices: every walk that ends well caches, though R331 only lets it, and a sequencer's walkers are those of the die of its VD's first
cluster (log entry 33); FAULT_BATCH_TIMEOUT is the command that ends the 50 us of R340 (log entry 32). -/
def Obligations.TranslationAnswers : Prop :=
  (∀ (s u v : State) (p : Fin 64) (c : Fin 256) (va : BitVec 57) (w : Bool), (s.ctx p c).state ≠ 0 → (s.part p).pstate = .enabled →
    let hub := decide ((s.ctx p c).agentSource = 3)
    let via := s.agentVia p c hub none
    (s.walkGate (s.agentPool p c hub) p c va.toNat w = (v, false) → exec (.walkComplete (.agent p c va w)) s = .next v) ∧
    (s.walkGate (s.agentPool p c hub) p c va.toNat w = (v, true) →
      (∀ r, v.xlate p c va.toNat w via = (u, .ok r) → exec (.walkComplete (.agent p c va w)) s = .next u) ∧
      (∀ e, v.xlate p c va.toNat w via = (u, .error e) →
        exec (.walkComplete (.agent p c va w)) s = .next (u.agentFault p c va.toNat (u.ctx p c).agentSource e)))) ∧
  (∀ (s u v : State) (k : CoreId) (h : HostCtx) (r : OutRead) (rest : List OutRead), (s.cl k.cl).ctx = some h → (s.core k).wait = r :: rest →
    r.addr / 2 ^ 60 = 8 → r.sent = true → r.faulted = false → s.vaWaits h.part h.ctx k.cl r.addr r.len false = false →
    let a := s.missVa h.part h.ctx r.addr r.len false
    (s.walkGate (clDie k.cl) h.part h.ctx a false = (v, false) → exec (.walkComplete (.coreRead k)) s = .next v) ∧
    (s.walkGate (clDie k.cl) h.part h.ctx a false = (v, true) →
      let via := s.via h.part h.ctx (clSource k.cl)
      (∀ x, v.xlate h.part h.ctx (a % 2 ^ 57) false via = (u, .ok x) → exec (.walkComplete (.coreRead k)) s = .next u) ∧
      (∀ e, v.xlate h.part h.ctx (a % 2 ^ 57) false via = (u, .error e) →
        let n := u.faultSerial h.part h.ctx
        exec (.walkComplete (.coreRead k)) s =
          .next ((u.updCore k (fun c =>
            { c with wait := c.wait.map (fun w => if w = r then { w with faulted := true, batch := n } else w) })).recordFault
              h.part h.ctx (mkFault e (a % 2 ^ 57) h.ctx h.vc k.core 0))))) ∧
  (∀ (s u v : State) (id : Nat) (w : FabWrite), s.findWrite id = some w → w.addr / 2 ^ 60 = 8 → w.sent = true → w.faulted = false →
    s.vaWaits w.part w.ctx w.k.cl w.addr 1 true = false →
    (s.walkGate (clDie w.k.cl) w.part w.ctx w.addr true = (v, false) → exec (.walkComplete (.write id)) s = .next v) ∧
    (s.walkGate (clDie w.k.cl) w.part w.ctx w.addr true = (v, true) →
      let via := s.via w.part w.ctx (clSource w.k.cl)
      (∀ x, v.xlate w.part w.ctx (w.addr % 2 ^ 57) true via = (u, .ok x) → exec (.walkComplete (.write id)) s = .next u) ∧
      (∀ e, v.xlate w.part w.ctx (w.addr % 2 ^ 57) true via = (u, .error e) →
        let n := u.faultSerial w.part w.ctx
        exec (.walkComplete (.write id)) s =
          .next ((u.updWrite w.id (fun v => { v with faulted := true, batch := n })).recordFault w.part w.ctx
            (mkFault e (w.addr % 2 ^ 57) w.ctx w.vc w.k.core 0))))) ∧
  (∀ (s : State) (pool p c addr : Nat) (w : Bool),
    let x := s.ctx p c
    let pl := tabGet {} s.walkers pool
    let q : WalkReq := { part := p, ctx := c, vpn := addr % 2 ^ 57 / 4096, write := w }
    (bitsAt x.xs1 63 60 = 0 → bitsAt x.xg 63 60 = 0 → s.walkGate pool p c addr w = (s, true)) ∧
    (tlbHit (s.part p).tlb x.xs1 x.xg (addr % 2 ^ 57) w ≠ none → s.walkGate pool p c addr w = (s, true)) ∧
    (tlbHit (s.part p).tlb x.xs1 x.xg (addr % 2 ^ 57) w = none → (bitsAt x.xs1 63 60 ≠ 0 ∨ bitsAt x.xg 63 60 ≠ 0) →
      hasMiss pl.busy q = false → hasMiss pl.waiting q = false → (if pool < 4 then 32 else 16) ≤ pl.busy.length →
      ∃ t, s.walkGate pool p c addr w = (t, false) ∧ tabGet {} t.walkers pool = { pl with waiting := pl.waiting ++ [q] })) ∧
  (∀ (s u : State) (p c va : Nat) (w : Bool) (via : Via) (hpa t : Nat), tlbHit (s.part p).tlb (s.ctx p c).xs1 (s.ctx p c).xg va w = none →
    s.walk p (s.ctx p c).xs1 (s.ctx p c).xg va w via = (u, .ok (hpa, t)) →
    let one := bitsAt (s.ctx p c).xs1 63 60 ≠ 0
    let two := bitsAt (s.ctx p c).xg 63 60 ≠ 0
    (¬one → ¬two → s.xlate p c va w via = (u, .ok (hpa, t % 4 + 8 * (t / 8)))) ∧
    (one ∨ two → ∃ v, s.xlate p c va w via = (v, .ok (hpa, t % 4 + 8 * (t / 8))) ∧
      (∃ e ∈ (v.part p).tlb, e.vpn = va / 4096 ∧ e.ppn = hpa / 4096 ∧ e.canWrite = w ∧ e.pbmt = t % 4 ∧ e.bits = t / 8 ∧
        (one → e.asid = bitsAt (s.ctx p c).xs1 59 44) ∧ (two → e.vmid = bitsAt (s.ctx p c).xg 57 44)))) ∧
  (∀ (s u : State) (p c va : Nat) (w : Bool) (via : Via) (e : XErr), s.walk p (s.ctx p c).xs1 (s.ctx p c).xg va w via = (u, .error e) →
    tlbHit (s.part p).tlb (s.ctx p c).xs1 (s.ctx p c).xg va w = none → s.xlate p c va w via = (u, .error e)) ∧
  (∀ (s : State) (p : Fin 64) (c : Fin 256),
    ((s.part p).batches.find? (s.opens p c true) = none → exec (.faultBatchTimeout p c) s = .next s) ∧
    (∀ b, (s.part p).batches.find? (s.opens p c true) = some b → ∃ t, exec (.faultBatchTimeout p c) s = .next t ∧
      { b with number := some (s.part p).nextBatch } ∈ (t.part p).batches ∧
      (t.part p).nextBatch = ((s.part p).nextBatch + 1) % 2 ^ 32 ∧ ∀ r ∈ b.recs, (t.ctx p r.ctx).faultWait = true)) ∧
  (∀ (s : State) (port : Fin 4) (p : Fin 64) (v : BitVec 64), s.vfServes port p = true →
    let n := v.toNat % 2 ^ 32
    let row := if v.toNat.testBit 63 then Instr.dblFaultFail else Instr.dblFaultRetry
    (bitsAt v.toNat 62 32 ≠ 0 → exec (row port p v) s = .next (s.updPart p (fun x => { x with dropped := satInc32 x.dropped }))) ∧
    (bitsAt v.toNat 62 32 = 0 →
      ((s.part p).batches.find? (fun b => decide (b.number = some n)) = none →
        exec (row port p v) s = .next (s.updPart p (fun x => { x with faultIgnored := satInc32 x.faultIgnored }))) ∧
      (∀ b, (s.part p).batches.find? (fun b => decide (b.number = some n)) = some b →
        let u := s.batchAnswered p b
        let again (t : State) : State := (t.faultCtxs p b).foldl (fun t c => t.answerRetry p c b) t
        (v.toNat.testBit 63 = true → exec (.dblFaultFail port p v) s =
          .next ((again (b.ctxs.foldl (fun t c => t.answerFail p c b) u)).evqPushAll p)) ∧
        (v.toNat.testBit 63 = false → exec (.dblFaultRetry port p v) s =
          .next ((b.ctxs.foldl (fun t c => t.answerGo p c b) (again u)).evqPushAll p))))) ∧
  (∀ (s : State) (p n : Nat) (b : FaultBatch), b.number = some n → ∀ d ∈ ((s.batchAnswered p b).part p).batches, d.number ≠ some n) ∧
  (∀ (s : State) (p c : Nat) (b : FaultBatch) (w : FabWrite), (s.part p).pstate ≠ .frozen → w ∈ s.writes → w.part = p → w.ctx = c →
    w.faulted = true →
    (w.batch = b.serial ∨ w.batch = 0 → { w with faulted := false } ∈ (s.answerRetry p c b).writes) ∧
    (w.batch ≠ b.serial → w.batch ≠ 0 → w ∈ (s.answerRetry p c b).writes)) ∧
  (∀ (s : State) (p c : Nat) (b : FaultBatch), (s.part p).pstate = .frozen → s.answerRetry p c b = s) ∧
  (∀ (s : State) (pool : Fin 5) (w : Nat), ∃ t, exec (.walkerFreed pool w) s = .next t ∧ { t with walkers := s.walkers } = s ∧
    (∀ q, (tabGet {} s.walkers pool).busy[w]? = some q → q.ended = true → (tabGet {} s.walkers pool).waiting = [] →
      (tabGet {} t.walkers pool).busy = (tabGet {} s.walkers pool).busy.eraseIdx w) ∧
    (∀ q, (tabGet {} s.walkers pool).busy[w]? = some q → q.ended = false → tabGet {} t.walkers pool = tabGet {} s.walkers pool))

/-- R3, R319, R352, R435: the port event queue of a populated site is enabled with PRODUCER and CONSUMER at 0 where LOG2_ENTRIES is 4 to 16,
takes RING and LOG2_ENTRIES only while it is disabled, and ignores a CONSUMER beyond PRODUCER; a function-level reset of PF0 clears ENABLE
and resets the function, which is its MSI-X table, and nothing else; one of a VF resets the function, and where it serves its partition
tears the partition down, behind the commands accepted earlier that name it; a write that unmasks a pending vector of PF0 sends its message
(the PCIe rules of log entry 30). -/
def Obligations.PortEventQueueAndResets : Prop :=
  (∀ (s : State) (port : Fin 4) (v : BitVec 64), s.sites.testBit port = false →
    exec (.admPeqEnable port v) s = .next s ∧ exec (.admPeqDisable port v) s = .next s ∧ exec (.admPeqConsumer port v) s = .next s) ∧
  (∀ (s : State) (port : Fin 4) (v : BitVec 64), s.sites.testBit port = true →
    let h := s.port port
    let n := if h.peqEnable then h.peqLog2 else v.toNat % 32
    (v.toNat.testBit 31 = true → 4 ≤ n → n ≤ 16 → exec (.admPeqEnable port v) s =
      .next (s.updPort port (fun h => { h with peqLog2 := n, peqEnable := true, peqProducer := 0, peqConsumer := 0 }))) ∧
    (v.toNat.testBit 31 = true → (n < 4 ∨ 16 < n) → exec (.admPeqEnable port v) s =
      .next (s.updPort port (fun h => { h with peqLog2 := n }))) ∧
    (v.toNat.testBit 31 = false → exec (.admPeqDisable port v) s =
      .next (s.updPort port (fun h => { h with peqLog2 := n, peqEnable := false }))) ∧
    (let m := v.toNat % 2 ^ 32
     let ahead := (m + 2 ^ 32 - h.peqConsumer) % 2 ^ 32
     let full := (h.peqProducer + 2 ^ 32 - h.peqConsumer) % 2 ^ 32
     (ahead ≤ full → ∃ t, exec (.admPeqConsumer port v) s = .next t ∧ t.port port = { h with peqConsumer := m }) ∧
     (full < ahead → ∃ t, exec (.admPeqConsumer port v) s = .next t ∧ t.port port = h))) ∧
  (∀ (s : State) (port : Fin 4),
    exec (.pf0Flr port) s = .next ((s.updPort port (fun h => { h with peqEnable := false })).msiReset port 0)) ∧
  (∀ (s : State) (port : Fin 4) (i : Fin 2), s.sites.testBit port = true →
    let v : Msix := { port := port, fn := 0, vector := i }
    s.hubRuns = true → v ∈ s.msi.pend → ∃ t, exec (.registerWrite (.pf0 port) (0x300C + 16 * i) (leBytes 4 0)) s = .next t ∧ (t.msi.entry v).mask = false ∧
      v ∉ t.msi.pend ∧ ({ port := port, addr := (t.msi.entry v).addr, data := (t.msi.entry v).data } : MsiMessage) ∈ t.msi.sent) ∧
  (∀ (s : State) (port : Fin 4) (p : Fin 64), s.vfServes port p = false → exec (.vfFlr port p) s = .next (s.msiReset port (p + 1))) ∧
  (∀ (s : State) (port : Fin 4) (p : Fin 64), s.vfServes port p = true → (s.part p).teardownStep < 6 → (s.part p).pstate = .enabled →
    let u := (s.msiReset port (p + 1)).updPort port (fun h => { h with flrs := addOnce h.flrs p })
    (s.partCommanded p = true → exec (.vfFlr port p) s = .next u) ∧
    (s.partCommanded p = false →
    ((s.part p).generation < 0xFFFF → exec (.vfFlr port p) s = .next (u.teardown p false none)) ∧
    (0xFFFF ≤ (s.part p).generation → exec (.vfFlr port p) s =
      .next ((u.teardown p true none).pmPost 0x0108 (leBytes 1 p ++ zeros 13)))))

/-- A register write reaches the registers that its offset and length name: the command buffer takes any access; a doorbell register that is not
written by one aligned 8-byte write counts the drop; a write whose row the table names does what that row does; none is reached while the hub
is in reset. R347 and R348 give the admin doorbell its outcomes. The model's choices, which no rule states: NumVFs at offset 0x10 of the SR-IOV
capability (PRESUMED, log entry 29) and what a write in a form that the register does not take does (log entry 51). -/
def Obligations.RegisterWrites : Prop :=
  (∀ (s : State) (r : RegSpace) (off : Nat) (data : List Byte), s.hubRuns = false → exec (.registerWrite r off data) s = .next s) ∧
  (∀ (s : State) (port : Fin 4) (off : Nat) (data : List Byte), s.hubRuns = true → s.sites.testBit port = true → off < 0x1000 →
    off + data.length ≤ 0x1000 →
    exec (.registerWrite (.pf0 port) off data) s = .next (s.updAdm port (fun a => { a with cmd := memWrite a.cmd off data }))) ∧
  (∀ (s : State) (port : Fin 4) (off : Nat) (data : List Byte), s.hubRuns = true → s.sites.testBit port = false →
    exec (.registerWrite (.pf0 port) off data) s = .next s) ∧
  (∀ (s : State) (port : Fin 4), s.hubRuns = true → s.sites.testBit port = true → s.admBusy port = true →
    exec (.registerWrite (.pf0 port) 0x2000 (leBytes 8 1)) s =
      .next (s.updAdm port (fun a => { a with lastRing := 3, droppedBusy := satInc32 a.droppedBusy }))) ∧
  (∀ (s : State) (port : Fin 4), s.hubRuns = true → s.sites.testBit port = true → s.admBusy port = false →
    let p := memRead (s.admch port).cmd 0 4096
    frameCheck p = none → badSubOp p = none →
    exec (.registerWrite (.pf0 port) 0x2000 (leBytes 8 1)) s = .next (s.admAccept port p)) ∧
  (∀ (s : State) (port : Fin 4) (off : Nat) (data : List Byte), s.hubRuns = true → s.sites.testBit port = true → 0x1000 ≤ off → off < 0x2008 →
    0x2000 < off + data.length → ¬ (off = 0x2000 ∧ data = leBytes 8 1) →
    exec (.registerWrite (.pf0 port) off data) s = .next (s.updAdm port (fun a => { a with droppedForm := satInc32 a.droppedForm }))) ∧
  (∀ (s : State) (port : Fin 4) (v : BitVec 64), s.hubRuns = true → s.sites.testBit port = true →
    exec (.registerWrite (.pf0 port) 0x4048 (leBytes 8 v.toNat)) s =
      (if v.toNat.testBit 31 then exec (.admPeqEnable port v) s else exec (.admPeqDisable port v) s) ∧
    exec (.registerWrite (.pf0 port) 0x4058 (leBytes 8 v.toNat)) s = exec (.admPeqConsumer port v) s ∧
    ((s.port port).peqEnable = false → ∃ t, exec (.registerWrite (.pf0 port) 0x4040 (leBytes 8 v.toNat)) s = .next t ∧
      (t.port port).peqRing = bitsAt v.toNat 51 12 * 4096) ∧
    ((s.port port).peqEnable = true → ∃ t, exec (.registerWrite (.pf0 port) 0x4040 (leBytes 8 v.toNat)) s = .next t ∧
      t.port port = s.port port)) ∧
  (∀ (s : State) (port : Fin 4) (p : Fin 64) (c : Fin 256) (v : BitVec 64), s.hubRuns = true → s.vfServes port p = true →
    exec (.registerWrite (.doorbellPage port p c) 0 (leBytes 8 v.toNat)) s = exec (.dblRing port p (some c) v) s ∧
    exec (.registerWrite (.doorbellPage port p c) 8 (leBytes 8 v.toNat)) s = exec (.dblAbort port p c v) s ∧
    exec (.registerWrite (.partitionPage port p) 0 (leBytes 8 v.toNat)) s = exec (.dblRing port p none v) s ∧
    exec (.registerWrite (.partitionPage port p) 0x10 (leBytes 8 v.toNat)) s =
      (if v.toNat.testBit 63 then exec (.dblFaultFail port p v) s else exec (.dblFaultRetry port p v) s) ∧
    exec (.registerWrite (.doorbellPage port p c) 0 (leBytes 4 v.toNat)) s =
      .next (s.updPart p (fun x => { x with dropped := satInc32 x.dropped }))) ∧
  (∀ (s : State) (port : Fin 4) (p : Fin 64) (off : Nat) (data : List Byte),
    (∀ c : Fin 256, off < 0x1000 →
      exec (.registerWrite (.vfBar0 port p) (0x1000 * c + off) data) s = exec (.registerWrite (.doorbellPage port p c) off data) s) ∧
    (off < 0x1000 → exec (.registerWrite (.vfBar0 port p) (0x100000 + off) data) s = exec (.registerWrite (.partitionPage port p) off data) s ∧
      ∀ fast : Bool, exec (.registerWrite (.vfBar0 port p) ((if fast then 0x102000 else 0x101000) + off) data) s =
        exec (.registerWrite (.claimBank port p fast) off data) s) ∧
    (0x103000 ≤ off → exec (.registerWrite (.vfBar0 port p) off data) s = .next s)) ∧
  (∀ (s : State) (port : Fin 4) (n : Nat), s.hubRuns = true → s.sites.testBit port = true → n ≤ 64 →
    exec (.registerWrite (.sriov port) 0x10 (leBytes 2 n)) s = .next (s.updPort port (fun h => { h with numVfs := n }))) ∧
  (∀ (s : State) (port : Fin 4) (p : Fin 64) (fast : Bool) (q : Fin 64) (v : BitVec 64), s.hubRuns = true →
    exec (.registerWrite (.claimBank port p fast) (16 * q + 8) (leBytes 8 v.toNat)) s = exec (.evqComplete port p fast q v) s) ∧
  (∀ (s : State) (port : Fin 4) (v : BitVec 64), s.hubRuns = true → s.sites.testBit port = true → v.toNat % 2 ^ 28 = 0 →
    ∃ t, exec (.registerWrite (.hdmBase port) 0 (leBytes 8 v.toNat)) s = .next t ∧ (t.port port).hdmBase = some v.toNat) ∧
  (∀ (s : State) (n : Fin 64) (v : BitVec 64), s.hubRuns = true → ∃ t, exec (.registerWrite .management (8 * n) (leBytes 8 v.toNat)) s = .next t ∧
    tabGet 0 t.irq.cfg n = bitsAt v.toNat 8 8 * 256 + bitsAt v.toNat 4 4 * 16 + v.toNat % 16) ∧
  (∀ (s : State) (v : BitVec 32), s.hubRuns = true → s.phase = .bootCode → s.prs.lock = false → v.toNat.testBit 0 = true → s.prs.regs.length = 128 →
    exec (.registerWrite .protection 0 (leBytes 4 v.toNat)) s = exec (.prsLock v) s)

namespace Sys2Proof.Claim

open Sys2Proof.Machine

-- queries

/-- A command that only replies: nothing differs from the state before it but its channel, the hub's order, management's interrupts and the
message or interrupt that carries the reply. -/
def OnlyReplies (s t : State) : Prop :=
  { t with adm := s.adm, hubOrder := s.hubOrder, irq := s.irq, msix := s.msix, msi := s.msi, bc := s.bc, freeCtr := s.freeCtr } = s

/-- A field of a record has a value, which the field's size cuts. -/
def Field (r : List Byte) (off size v : Nat) : Prop := fieldAt r off size = v % 2 ^ (8 * size)

/-- The command answers with a record of a length, and does nothing else. -/
def Answers (s : State) (ch : Fin 5) (p : List Byte) (c : Instr) (len : Nat) (ok : List Byte → Prop) : Prop :=
  ∃ t r, exec c s = .next t ∧ Done s t ch p r ∧ OnlyReplies s t ∧ r.length = len ∧ ok r

end Sys2Proof.Claim

/-- R32, R33, R369, R370, R371, R372, R511, R530, R540, R545: each query returns its record, field by field, and changes nothing. -/
def Obligations.QueriesAnswer : Prop :=
  ∀ (s : State) (ch : Fin 5) (pkt : List Byte), Admitted s ch pkt →
    let p := chanPacket ch pkt
    (pktOp p = 0x0001 → Answers s ch p (.identify ch pkt) 48 (fun r =>
      Field r 0 4 1 ∧ Field r 4 2 0x4820 ∧ Field r 6 2 s.fuses.stepping ∧ Field r 8 8 s.fuses.serial ∧ Field r 16 1 s.fuses.orderCode ∧
      Field r 17 1 s.sites ∧ Field r 18 1 ch ∧ Field r 19 1 (bnat (s.isPm ch)) ∧ Field r 20 2 s.shipped ∧ Field r 22 2 1 ∧
      Field r 24 8 (fwVersion (s.fw.slot s.fw.runSlot).image) ∧
      Field r 32 4 (bnat s.prs.lock + 2 * s.prs.debugLevel + 16 * s.prs.pmPorts) ∧ Field r 36 12 0)) ∧
    (pktOp p = 0x0002 → parZero p 0 8 = true → ∃ t r, exec (.inventory ch pkt) s = .next t ∧ Done s t ch p r ∧ OnlyReplies s t ∧
      Field r 0 4 1 ∧ Field r 4 4 s.pool.sequence ∧ Field r 8 8 s.fuses.serial ∧ r.length = 32 + 2 * (192 + 320 + 24) ∧
      Field r 16 1 s.fuses.orderCode ∧ Field r 17 1 s.sites ∧ Field r 18 2 s.shipped ∧
      Field r 20 2 ((natRange 0 192).filter (fun i => (s.entry 1 i).inService)).length ∧
      Field r 22 2 ((natRange 0 320).filter (fun i => (s.entry 2 i).inService)).length ∧
      (∀ e, e < 4 → Field r (24 + e) 1 ((natRange (6 * e) 6).filter (fun m => (s.lmEntry m).inService)).length) ∧ Field r 28 4 0 ∧
      (∀ i, i < 192 → Field r (32 + 2 * i) 2 (s.entryWord ch (s.entry 1 i))) ∧
      (∀ i, i < 320 → Field r (416 + 2 * i) 2 (s.entryWord ch (s.entry 2 i))) ∧
      (∀ i, i < 24 → Field r (1056 + 2 * i) 2 (s.entryWord ch (s.entry 3 i)))) ∧
    (pktOp p = 0x0003 → Answers s ch p (.status ch pkt) 32 (fun r =>
      Field r 0 2 s.devFlags ∧ Field r 2 1 s.recoveringDies ∧ (fieldAt r 3 1).testBit ch = true ∧
      (∀ c, c < 8 → c ≠ ch.val → (fieldAt r 3 1).testBit c = (decide (c < 5) && (c == 4 || s.chanExists c) && s.admBusy c)) ∧
      Field r 5 3 0 ∧ Field r 12 4 0 ∧
      Field r 4 1 (s.parts.filter (fun e => e.2.present)).length ∧ Field r 8 4 s.pool.sequence ∧ Field r 16 8 s.log.next ∧
      Field r 24 8 s.hubCycles)) ∧
    (pktOp p = 0x0004 → parZero p 1 1 = true → parZero p 6 2 = true →
      let first := par p 2 2
      let n := par p 4 2
      (∀ points most, (par p 0 1, points, most) ∈ [(0, 1076, 1016), (1, 12, 508), (2, 320, 320)] → 1 ≤ n → n ≤ most →
        first + n ≤ points → ∃ t r, exec (.sensorsRead ch pkt) s = .next t ∧ Done s t ch p r ∧ OnlyReplies s t ∧
          Field r 0 8 s.sensors.rounds ∧ Field r 8 1 (par p 0 1) ∧ Field r 9 1 0 ∧ Field r 10 2 first ∧ Field r 12 2 n ∧ Field r 14 2 0 ∧
          (∀ i v, par p 0 1 = 0 → i < n → s.reading (first + i) = some v →
            fieldAt r (16 + 4 * i) 2 = (BitVec.ofInt 16 v).toNat ∧
            fieldAt r (18 + 4 * i) 2 = 1 + 2 * bnat (decide (100 * 64 ≤ v)) + 4 * bnat (decide (110 * 64 ≤ v))) ∧
          (∀ i, par p 0 1 = 0 → i < n → s.reading (first + i) = none → (fieldAt r (18 + 4 * i) 2).testBit 0 = false ∧
            (fieldAt r (18 + 4 * i) 2).testBit 3 = (decide (first + i < 768) && !(s.clEntry ((first + i) / 4)).inService) ∧
            fieldAt r (18 + 4 * i) 2 < 16) ∧
          (∀ i x, par p 0 1 = 1 → i < n → s.sensors.rails[first + i]? = some x →
            Field r (16 + 8 * i) 2 x.millivolts ∧ Field r (18 + 8 * i) 2 x.current ∧ Field r (20 + 8 * i) 2 x.power ∧
            Field r (22 + 8 * i) 1 x.phasesOk ∧ Field r (23 + 8 * i) 1 (1 + 2 * bnat x.overcurrent)) ∧
          (∀ i, par p 0 1 = 1 → i < n → s.sensors.rails[first + i]? = none → Field r (23 + 8 * i) 1 0) ∧
          (∀ i, par p 0 1 = 2 → i < n → Field r (16 + 8 * i) 4 (s.chan (first + i)).corrected ∧
            Field r (20 + 8 * i) 4 (s.chan (first + i)).uncorrectable)) ∧
      (∀ points most, (par p 0 1, points, most) ∈ [(0, 1076, 1016), (1, 12, 508), (2, 320, 320)] → (most < n ∨ points < first + n) →
        ∃ t, exec (.sensorsRead ch pkt) s = .next t ∧ Refused s t ch p 0x0005) ∧
      ((2 < par p 0 1 ∨ n = 0) → ∃ t, exec (.sensorsRead ch pkt) s = .next t ∧ Refused s t ch p 0x0005)) ∧
    (pktOp p = 0x0005 → parZero p 10 6 = true →
      let n := par p 8 2
      (1 ≤ n → n ≤ 63 → ∃ t r, exec (.logRead ch pkt) s = .next t ∧ Done s t ch p r ∧ OnlyReplies s t ∧
        Field r 0 8 s.log.oldest ∧ Field r 8 8 s.log.next ∧
        r.drop 16 = ((s.log.ring.filter (fun e => decide (par p 0 8 ≤ fieldAt e 0 8) && s.logShown ch e)).take n).flatten) ∧
      ((n = 0 ∨ 63 < n) → ∃ t, exec (.logRead ch pkt) s = .next t ∧ Refused s t ch p 0x0005)) ∧
    (pktOp p = 0x0706 → parZero p 0 8 = true → Answers s ch p (.fwQuery ch pkt) 88 (fun r =>
      Field r 0 1 s.fw.runSlot ∧ Field r 1 1 s.fw.fusedSvn ∧ Field r 2 1 (s.fw.stageOwner.getD 0xFF) ∧ Field r 3 5 0 ∧
      Field r 8 1 s.fw.slotA.state ∧ Field r 9 3 0 ∧ Field r 12 4 s.fw.slotA.image.length ∧ Field r 16 8 (fwVersion s.fw.slotA.image) ∧
      Field r 24 1 (fwSvn s.fw.slotA.image) ∧ Field r 25 7 0 ∧
      Field r 32 1 s.fw.slotB.state ∧ Field r 33 3 0 ∧ Field r 36 4 s.fw.slotB.image.length ∧ Field r 40 8 (fwVersion s.fw.slotB.image) ∧
      Field r 48 1 (fwSvn s.fw.slotB.image) ∧ Field r 49 7 0 ∧
      ∀ d, d < 4 → Field r (56 + 8 * d) 8 (tabGet 0 s.fw.seqVersion d))) ∧
    (pktOp p = 0x0007 → parZero p 0 8 = true → Answers s ch p (.powerCapGet ch pkt) 48 (fun r =>
      Field r 0 4 s.power.bcCap ∧ Field r 4 4 s.power.pmCap ∧ Field r 8 4 s.power.effective ∧ Field r 12 4 920 ∧
      Field r 16 4 (s.power.mean / 10) ∧ Field r 20 4 (s.power.estimate / 10) ∧ Field r 24 1 s.power.level ∧
      Field r 25 1 s.power.freqMode ∧
      Field r 26 2 (bnat s.power.capUnmet + 2 * bnat s.power.untrusted + 4 * bnat s.sensorFault + 8 * bnat s.thermalLimited) ∧
      Field r 28 4 0 ∧ Field r 40 8 0 ∧
      ∀ d, d < 4 → Field r (32 + d) 1 (s.dieMaxOp d) ∧ fieldAt r (36 + d) 1 = (BitVec.ofInt 8 (s.power.trim d)).toNat)) ∧
    (pktOp p = 0x0008 → parZero p 0 8 = true → Answers s ch p (.energyRead ch pkt) 24 (fun r =>
      Field r 0 8 (s.power.energyUj / 1000) ∧ Field r 8 8 s.hubCycles ∧ Field r 16 4 (s.power.substUs / 1000) ∧ Field r 20 4 0))

/-- R526, R527, R530, R531, R534, R535, R538, R539, R541 to R544: POWER_CAP_SET checks in its order and sets the sender's cap and the
frequency mode; a step of the power loop raises the level where the controlled power exceeds the target, lowers it after 100 steps below 95 %
of it, and never leaves 0 to 22; a sample adds to the energy; VTRIM moves by one step; a point at 110 degrees sends its cluster to OP7 with
gaps; thermal limits step down and back; a cluster takes a faster OP when its rail has settled. None of this happens while the hub is in reset
or without its clock (R537, R554, R556). -/
def Obligations.PowerAndTemperature : Prop :=
  (∀ (s : State) (ch : Fin 5) (pkt : List Byte), Admitted s ch pkt →
    let p := chanPacket ch pkt
    let cap := par p 0 4
    let mode := par p 4 1
    pktOp p = 0x0006 → parZero p 5 3 = true →
      (2 < mode → ∃ t, exec (.powerCapSet ch pkt) s = .next t ∧ Refused s t ch p 0x0005 ∧ t.power = s.power) ∧
      (1 ≤ mode → mode ≤ 2 → ch.val = 4 → ∃ t, exec (.powerCapSet ch pkt) s = .next t ∧ Refused s t ch p 0x0010 ∧ t.power = s.power) ∧
      (mode ≤ 2 → (mode = 0 ∨ ch.val ≠ 4) →
        (4400 < cap → ∃ t, exec (.powerCapSet ch pkt) s = .next t ∧ Refused s t ch p 0x0502 ∧ t.power = s.power) ∧
        (0 < cap → cap < 920 → ∃ t, exec (.powerCapSet ch pkt) s = .next t ∧ Refused s t ch p 0x0501 ∧ t.power = s.power) ∧
        ((cap = 0 ∨ 920 ≤ cap ∧ cap ≤ 4400) → ∃ t, exec (.powerCapSet ch pkt) s = .next t ∧ Done s t ch p [] ∧
          t.power.bcCap = (if ch.val = 4 then cap else s.power.bcCap) ∧ t.power.pmCap = (if ch.val = 4 then s.power.pmCap else cap) ∧
          t.power.freqMode = (if mode = 0 then s.power.freqMode else mode) ∧ (mode = 2 → ∀ d, t.power.trim d = 0) ∧
          t.power.level = s.power.level))) ∧
  (∀ (s : State) (estimate m : Nat), s.hubRuns = true → s.power.window.getLast? = some m → s.power.level ≤ 22 → ∃ t,
    exec (.powerLoopStep estimate) s = .next t ∧ t.power.estimate = estimate ∧ t.power.level ≤ 22 ∧
    (let c := t.power.controlled
     let target := t.power.effective * (100 - c.2) * 10
     (target < c.1 * 100 → t.power.level = min 22 (s.power.level + 1) ∧ t.power.under = 0) ∧
     (c.1 * 100 ≤ target → target * 95 ≤ c.1 * 10000 → t.power.level = s.power.level ∧ t.power.under = 0) ∧
     (c.1 * 10000 < target * 95 → s.power.under + 1 < 100 → t.power.level = s.power.level ∧ t.power.under = s.power.under + 1) ∧
     (c.1 * 10000 < target * 95 → 100 ≤ s.power.under + 1 → t.power.level = s.power.level - 1 ∧ t.power.under = 0)) ∧
    (5000 ≤ m → s.power.implausible = false → s.power.untrusted = false → s.power.differ < 999 →
      t.power.controlled = (max estimate m, 3)) ∧
    (m < 5000 → t.power.implausible = true ∧ t.power.controlled = (estimate * 115 / 100, 10))) ∧
  (∀ (s : State) (rails : List RailReading), s.hubRuns = true → ∃ t, exec (.railSample rails) s = .next t ∧ t.sensors.rails = rails ∧
    s.power.energyUj ≤ t.power.energyUj ∧
    (∀ r, rails[11]? = some r → s.power.implausible = false → t.power.energyUj = s.power.energyUj + r.power ∧
      t.power.window.getLast? = some r.power) ∧
    { t with sensors := s.sensors, power := s.power } = s) ∧
  (∀ (s : State) (wanted : List Int), s.power.freqMode = 2 → exec (.vtrimUpdate wanted) s = .next s) ∧
  (∀ (s : State) (wanted : List Int), s.hubRuns = true → s.power.freqMode ≠ 2 → ∃ t, exec (.vtrimUpdate wanted) s = .next t ∧
    (∀ d w, d < 4 → wanted[d]? = some w → -12 ≤ s.power.trim d → s.power.trim d ≤ 6 →
      t.power.trim d = (if s.power.trim d < w ∧ s.power.trim d < 6 then s.power.trim d + 1
        else if w < s.power.trim d ∧ -12 < s.power.trim d then s.power.trim d - 1 else s.power.trim d)) ∧
    ∀ i, i < 192 → t.wantedOp i ≤ (t.cl i).op) ∧
  (∀ (s : State) (d : Fin 4), s.hubRuns = true → ∃ t, exec (.railSettled d) s = .next t ∧ { t with clusters := s.clusters } = s ∧
    (∀ i, i < 192 → i / 48 = d.val → ∀ op, (s.cl i).pendingOp = some op → (t.cl i).op = op ∧ (t.cl i).pendingOp = none) ∧
    (∀ i, (48 ≤ i - 48 * d.val ∨ i < 48 * d.val ∨ (s.cl i).pendingOp = none) → t.cl i = s.cl i)) ∧
  (∀ (s : State) (rs : List (Nat × Option Int)), s.hubRuns = true → (rs.map (fun r => r.1)).Nodup → ∃ t, exec (.sensorRound rs) s = .next t ∧
    t.sensors.rounds = s.sensors.rounds + 1 ∧ t.irq.cfg = s.irq.cfg ∧
    (∀ n v, (n, v) ∈ rs → n < 1076 → tabGet none t.sensors.temps n = v) ∧
    (∀ n, n < 1076 → (∀ r ∈ rs, r.1 ≠ n) → tabGet none t.sensors.temps n = none) ∧
    (∀ n x, (n, some x) ∈ rs → n < 768 → (s.clEntry (n / 4)).inService = true → 110 * 64 ≤ x →
      (t.cl (n / 4)).thermal = 8 ∧ 7 ≤ (t.cl (n / 4)).op ∧ 8 ≤ (t.cl (n / 4)).gap)) ∧
  (∀ (s : State), s.hubRuns = true → ∃ t, exec .thermalStepDown s = .next t ∧ (∀ i, i < 192 → t.wantedOp i ≤ (t.cl i).op) ∧
    ∀ i, i < 192 → (t.cl i).thermal =
      (if s.anyHot (clusterPoints i) 100 ∧ (s.cl i).thermal < 7 then (s.cl i).thermal + 1 else (s.cl i).thermal)) ∧
  (∀ (s : State), s.hubRuns = true → ∃ t, exec .thermalStepBack s = .next t ∧ ∀ i, i < 192 → (t.cl i).thermal =
    (if 0 < (s.cl i).thermal ∧ s.anyHot (clusterPoints i) 97 = false then (s.cl i).thermal - 1 else (s.cl i).thermal)) ∧
  (∀ (s : State) (c : Instr), s.hubRuns = false →
    (∃ n, c = .powerLoopStep n) ∨ (∃ r, c = .railSample r) ∨ (∃ w, c = .vtrimUpdate w) ∨ (∃ d, c = .railSettled d) ∨
      (∃ r, c = .sensorRound r) ∨ c = .thermalStepDown ∨ c = .thermalStepBack → exec c s = .next s)

/-- R447 to R459: TENSION_SET takes what its T_OP names, leaves force with ENABLE 0 unless a reserved bit is set, and with ENABLE 1 is refused by
the first check of R450 that fails; TENSION_QUERY returns the table, the counters and the headroom; a window's end counts each short label, cuts
and scales, and starts each label's next window under the table in force; a state update takes what has arrived into the queue, serves some of
it in the order of R455 and gives each label its state and the sources that hold requests of it their level and rate; an aged request is served
as level 8, and a queue is served by level, highest first. What was held may go after either (`State.sendAll`). The model's choices, in log entry
42: with ENABLE 0 only reserved bits are checked, the two directions of an instance are labels of their own, and traffic beyond a VD's shares is
best effort whatever its label. -/
def Obligations.TensionActs : Prop :=
  (∀ (s : State) (ch : Fin 5) (pkt : List Byte), Admitted s ch pkt →
    let p := chanPacket ch pkt
    let n := pktTarget p
    let x := (s.part n).tension
    (∀ op row, (op, row) ∈ [(1, Instr.tensionSetAllowances), (2, Instr.tensionSetLabels)] → pktOp p = 0x0301 → par p 0 1 = op →
      parZero p 1 7 = true →
      let want : TensionSt := { x with
        inForce := (par p 12 1).testBit 0, format := par p 8 4,
        hostAllow := if op = 1 then par p 16 2 else x.hostAllow, kvAllow := if op = 1 then par p 18 2 else x.kvAllow,
        mstopAllow := if op = 1 then par p 20 2 else x.mstopAllow,
        labels := if op = 1 then x.labels else (natRange 0 16).map (fun i => parBytes p (0x28 + 32 * i) 32) }
      let form := decide (par p 12 1 ≤ 1) && parZero p 13 1 && parZero p 0x16 18
      let one := form && want.format == 1 && (natRange 0 16).all (fun i => s.labelOk (want.label i))
      let two := want.allowed (s.part n).pat
      let three := s.admits (s.tables n want)
      let refusedWith (c : Nat) : Prop := ∃ t, exec (row ch pkt) s = .next t ∧ Replied s t ch p 1 c [] ∧
        (t.part n).tension = { x with reason := c } ∧ ∀ j, j ≠ n → t.part j = s.part j
      (want.inForce = false → form = true → (∀ i, i < 16 → labelForm (want.label i) = true) → ∃ t, exec (row ch pkt) s = .next t ∧
        Done s t ch p [] ∧ (t.part n).tension = want ∧ ∀ j, j ≠ n → t.part j = s.part j) ∧
      (want.inForce = false → (form = false ∨ ∃ i, i < 16 ∧ labelForm (want.label i) = false) → ∃ t, exec (row ch pkt) s = .next t ∧
        Refused s t ch p 0x0303 ∧ t.parts = s.parts) ∧
      (want.inForce = true → one = true → two = true → three = true → ∃ t, exec (row ch pkt) s = .next t ∧ Done s t ch p [] ∧
        (t.part n).tension = { want with reason := 0 } ∧ ∀ j, j ≠ n → t.part j = s.part j) ∧
      (want.inForce = true → one = false → refusedWith 0x0303) ∧
      (want.inForce = true → one = true → two = false → refusedWith 0x0302) ∧
      (want.inForce = true → one = true → two = true → three = false → refusedWith 0x0301)) ∧
    (pktOp p = 0x0302 → parZero p 0 8 = true → (∀ l ∈ x.labels, l.length = 32) → Answers s ch p (.tensionQuery ch pkt) 624 (fun r =>
      r.take 544 = x.bytes ∧ (∀ k, k < 4 → Field r (544 + 16 * k) 4 (tabGet 0 x.shortWindows k) ∧
        Field r (552 + 16 * k) 8 (tabGet 0 x.shortBytes k)) ∧ r.drop 608 = s.headroom n))) ∧
  (∀ (s : State) (r : Regulator) (obs : WindowObs), s.regAsleep r = true → exec (.tensionWindowEnd r obs) s = .next s) ∧
  (∀ (s : State) (r : Regulator) (obs : WindowObs), s.regAsleep r = false →
    let x := s.reg r
    let ls := s.regLabels r x.labels
    let shorts := ls.filter (s.labelShort x)
    let k := regClass r
    let sum := ls.foldl (fun a l => if l.mode = 1 then a + l.budget else a) 0
    let total := 10000 * ls.foldl (fun a l => a + l.served) x.mgtServed
    ∃ t : State, exec (.tensionWindowEnd r obs) s = .next t.sendAll ∧
      (∀ l, l ∈ shorts ↔ l ∈ ls ∧ l.mode = 1 ∧ l.served < l.budget ∧ (s.part l.part).pstate ≠ .frozen ∧
        ∃ q ∈ x.queue, q.part = l.part ∧ q.label = l.label ∧ q.up = l.up ∧ q.spill = l.spill) ∧
      (shorts = [] → t.parts = s.parts ∧ (t.reg r).shortRun = 0 ∧ (t.reg r).cutLow = false ∧ (t.reg r).scaleNum = (t.reg r).scaleDen) ∧
      (shorts ≠ [] → (t.reg r).shortRun = x.shortRun + 1 ∧ (t.reg r).cutLow = true ∧
        (1 ≤ x.shortRun → total < obs.busyNs * sum → (t.reg r).scaleNum = total ∧ (t.reg r).scaleDen = obs.busyNs * sum) ∧
        (x.shortRun = 0 ∨ obs.busyNs * sum ≤ total → (t.reg r).scaleNum = (t.reg r).scaleDen)) ∧
      (∀ l, shorts = [l] →
        tabGet 0 (t.part l.part).tension.shortWindows k = satInc32 (tabGet 0 (s.part l.part).tension.shortWindows k) ∧
        tabGet 0 (t.part l.part).tension.shortBytes k =
          (tabGet 0 (s.part l.part).tension.shortBytes k + (l.budget - l.served)) % 2 ^ 64) ∧
      (t.reg r).mgtServed = 0 ∧ (t.reg r).queue = x.queue ∧ (t.reg r).labels.length = ls.length ∧
      (∀ (i : Nat) (l : LabelSt), ls[i]? = some l → ∃ m : LabelSt, (t.reg r).labels[i]? = some m ∧ m.isOf l.part l.label l.up l.spill = true ∧ m.served = 0 ∧
        m.debt = (if l.cap = 0 then 0 else l.served + l.debt - l.cap) ∧
        (l.mode = 2 → m.mode = 2 → l.lat ≠ 0 → ∀ o, obsOf obs.labels l = some o → m.level = min 7 (1 + 6 * o / (10 * l.lat))) ∧
        (l.mode = 2 → m.mode = 2 → obsOf obs.labels l = none → m.level = l.level) ∧ (l.mode ≠ 2 → m.level = 1)) ∧
      (∀ l ∈ (t.reg r).labels, ((s.part l.part).tension.inForce = false ∨ l.spill = true) → l.mode = 0 ∧ l.budget = 0 ∧ l.cap = 0) ∧
      (∀ l ∈ (t.reg r).labels, (s.part l.part).tension.inForce = true → l.spill = false →
        l.mode = labelMode ((s.part l.part).tension.label l.label) ∧
        (l.mode ≠ 1 → l.budget = 0) ∧
        (l.mode = 1 → r = .kv → l.budget = 10000 * labelGuar ((s.part l.part).tension.label l.label) 2))) ∧
  (∀ (s : State) (r : Regulator) (arrived : List QueuedReq) (q : QueueObs), s.regAsleep r = true →
    exec (.tensionStateUpdate r arrived q) s = .next s) ∧
  (∀ (s : State) (r : Regulator) (arrived : List QueuedReq) (q : QueueObs), s.regAsleep r = false →
    let x := s.reg r
    let y : RegSt := { x with queue := x.queue ++ arrived.map QueuedReq.entry }
    ∃ t : State, exec (.tensionStateUpdate r arrived q) s = .next t.sendAll ∧ { t with regulators := s.regulators } = s ∧
      (t.reg r).queue = (y.serveOrder.take q.served).foldl (fun l a => l.erase a) y.queue ∧
      (q.served = 0 → (t.reg r).queue = y.queue) ∧
      (t.reg r).queueLevel = min 7 (8 * (t.reg r).queue.length / q.size) ∧
      (∀ l ∈ (t.reg r).labels,
        let capped := l.cap ≠ 0 ∧ l.cap ≤ l.served + l.debt
        let under := l.mode = 1 ∧ l.served < l.budget * x.scaleNum / x.scaleDen
        (capped → l.state = 2) ∧ (¬ capped → under → l.state = 0) ∧ (¬ capped → ¬ under → l.state = 1)) ∧
      (∀ (i : Nat) (e : SentSt), x.sent[i]? = some e → ∃ f : SentSt, (t.reg r).sent[i]? = some f ∧ f.isOf e.src e.part e.label e.up e.spill = true ∧
        (s.holds r e = false → f = e) ∧
        (∀ l, s.holds r e = true → (t.reg r).labels.find? (fun l => l.isOf e.part e.label e.up e.spill) = some l →
          let q := (t.reg r).queueLevel
          f.state = l.state ∧ f.q = q ∧ (l.state = 0 → f.level = 8 ∧ f.rate = 16) ∧ (l.state = 2 → f.rate = 0) ∧
          (l.state = 1 → l.mode = 2 → f.level = l.level ∧ f.rate = if q = 7 ∨ x.cutLow then 0 else 16) ∧
          (l.state = 1 → l.mode ≠ 2 → f.level = 0 ∧
            f.rate = if q = 7 ∨ x.cutLow then 0 else [16, 16, 16, 16, 8, 4, 1].getD q 0)))) ∧
  (∀ (s : State) (r : Regulator) (slot : Nat), ∃ t, exec (.requestAgePromotion r slot) s = .next t ∧
    { t with regulators := s.regulators } = s ∧ (t.reg r).queue.length = (s.reg r).queue.length ∧
    (∀ i, i ≠ slot → (t.reg r).queue[i]? = (s.reg r).queue[i]?) ∧
    (∀ x, (s.reg r).queue[slot]? = some x →
      ∃ y, (t.reg r).queue[slot]? = some y ∧ y.part = x.part ∧ y.label = x.label ∧ (t.reg r).reqLevel y = 8)) ∧
  (∀ (x : RegSt), x.serveOrder.Pairwise (fun a b => x.reqLevel b ≤ x.reqLevel a) ∧ ∀ q ∈ x.serveOrder, q ∈ x.queue)

namespace Sys2Proof.Claim

open Sys2Proof.Machine

-- receipts and images

/-- What PREPARE makes in the state it runs in: the state with its migration session, and the receipt (R439). -/
def prepared (a : State) (n : Nat) : State × List Byte :=
  let id := padTo 32 (Config.entropy a.freeCtr 32)
  let ek := padTo 1568 (Config.kemKey a.freeCtr)
  let r := ({ a with freeCtr := a.freeCtr + 1 }).takeReport n (sha256 (id ++ ek))
  (r.1.updPart n (fun x => { x with mig := some { rcId := id, key := a.freeCtr } }),
   leBytes 4 0x50434552 ++ leBytes 4 13280 ++ leBytes 8 a.fuses.serial ++ leBytes 1 n ++ zeros 15 ++ id ++ ek ++ r.2)

/-- The image of a frozen partition sealed for a receipt (R441): header, then each chunk's ciphertext and tag. -/
def sealedImage (u : State) (n : Nat) (receipt : List Byte) : List Byte :=
  let plain := u.imagePlain n
  let ek := (receipt.drop 0x40).take 1568
  let head := u.imageHeader n receipt (Config.kemCipher ek u.freeCtr) plain.length
  head ++ sealBody (padTo 32 (Config.kemSecret ek u.freeCtr)) head plain

end Sys2Proof.Claim

/-- R439 to R443: PART_SAVE states the length of an image, refuses a partition that is not FROZEN, a receipt that does not verify and too
little room, and writes the sealed image; PART_RESTORE PREPARE writes a receipt for a new migration session; LOAD ends that session, refuses
a partition that is not empty and ENABLED and an image of another receipt, and leaves the partition FROZEN with what the image holds. Each takes
effect as a whole within its one command (DESIGN CHOICE, log entry 38). -/
def Obligations.PartitionsMove : Prop :=
  ∀ (s : State) (ch : Fin 5) (pkt : List Byte), Admitted s ch pkt →
    let p := chanPacket ch pkt
    let n := pktTarget p
    let a := accepted s ch p
    (pktOp p = 0x0107 → parZero p 1 7 = true → parZero p 0x24 4 = true →
      (par p 0 1 = 1 → ∃ t, exec (.partSaveSizeOnly ch pkt) s = .next t ∧ OnlyReplies s t ∧
        Done s t ch p (leBytes 8 (0x680 + (a.imagePlain n).length + 16 * ceilDiv (a.imagePlain n).length (2 ^ 26)))) ∧
      (par p 0 1 = 0 → (s.part n).pstate ≠ .frozen → ∃ t, exec (.partSave ch pkt) s = .next t ∧ Refused s t ch p 0x0104) ∧
      (par p 0 1 = 0 → (s.part n).pstate = .frozen → isHpa (par p 8 8) = true → par p 8 8 % 256 = 0 → isHpa (par p 0x18 8) = true →
        ∀ x r poison, a.agentRead n 0 (par p 0x18 8) (par p 0x20 4) true (some 0) = (x, .ok (r, poison)) →
          let u := x.imageSync n
          ((poison = true ∨ receiptOk r = false) → exec (.partSave ch pkt) s = .next (u.refuse ch 0x0121)) ∧
          (poison = false → receiptOk r = true → par p 0x10 8 < imageLen (u.imagePlain n).length →
            exec (.partSave ch pkt) s = .next (u.refuse ch 0x0123)) ∧
          (∀ v, poison = false → receiptOk r = true → imageLen (u.imagePlain n).length ≤ par p 0x10 8 →
            ({ u with freeCtr := u.freeCtr + 1 }).agentWrite n 0 (par p 8 8) (sealedImage u n r) false true (some 0) = (v, .ok ()) →
            exec (.partSave ch pkt) s = .next (v.done ch (leBytes 8 (imageLen (u.imagePlain n).length)))))) ∧
    (pktOp p = 0x0108 → par p 0 1 = 1 → restoreCode p = none →
      (par p 0x10 8 < 13280 → ∃ t, exec (.partRestorePrepare ch pkt) s = .next t ∧ Refused s t ch p 0x0123) ∧
      (∀ c, 13280 ≤ par p 0x10 8 → s.leafCode = some c → ∃ t, exec (.partRestorePrepare ch pkt) s = .next t ∧ Refused s t ch p c) ∧
      (∀ v, 13280 ≤ par p 0x10 8 → s.leafCode = none →
        (prepared a n).1.agentWrite n 0 (par p 8 8) (prepared a n).2 false true (some 0) = (v, .ok ()) →
        exec (.partRestorePrepare ch pkt) s = .next (v.done ch (leBytes 4 13280 ++ zeros 4)))) ∧
    (pktOp p = 0x0108 → par p 0 1 = 2 → restoreCode p = none →
      let a := a.updPart n (fun x => { x with mig := none })
      let x := s.part n
      let empty := decide (x.pstate = .enabled) && x.dir.isNone && x.ctxs.all (fun e => decide (e.2.state = 0))
      (empty = false → ∃ t, exec (.partRestoreLoad ch pkt) s = .next t ∧ Replied s t ch p 1 0x0104 [] ∧ (t.part n).mig = none) ∧
      (∀ u h e, empty = true → a.agentRead n 0 (par p 8 8) 0x680 true (some 0) = (u, .ok (h, e)) →
        ((∀ m, x.mig = some m → (h.drop 0x20).take 32 ≠ m.rcId) → exec (.partRestoreLoad ch pkt) s = .next (u.refuse ch 0x0121)) ∧
        (∀ m v img f i, x.mig = some m → (h.drop 0x20).take 32 = m.rcId → fieldAt h 0 4 = 0x474D494D → fieldAt h 0x19 1 = n →
          fieldAt h 8 8 ≤ par p 0x10 8 → u.agentRead n 0 (par p 8 8) (fieldAt h 8 8) true (some 0) = (v, .ok (img, f)) → fieldAt h 4 4 = 1 →
          let plain := fieldAt h 0x660 8
          let key := padTo 32 (Config.kemOpen m.key ((h.drop 0x40).take 1568))
          let secs := sectionsOf (openBody key img plain)
          (∀ j, j < chunksOf plain → chunkOk key img plain j = true) → 0 < plain →
          Config.unpackSections (secs.getD 0 []) (secs.getD 1 []) (secs.getD 2 []) = some i → v.shapeOk n i = true →
          let w := (plaFill n x.pat.map (secs.getD 3 []) v).loadImageOf n (par p 0x18 8) i
          exec (.partRestoreLoad ch pkt) s =
            .next (w.fresh.2.done ch (leBytes 4 w.fresh.1 ++ zeros 4)))))

/-- R515, R516, R519, R520: a report is signed with the next lower leaf and kept in the channel's buffer, from which READ takes it; a session
opens on a key that passes FIPS 203, at most 16 of a partition, and ends with SESSION_CLOSE, or is marked closed while a COPY uses it. -/
def Obligations.ReportsAndSessions : Prop :=
  ∀ (s : State) (ch : Fin 5) (pkt : List Byte), Admitted s ch pkt →
    let p := chanPacket ch pkt
    let n := pktTarget p
    (∀ c, (s.fw.bootLeaf = none ∧ c = 0x0710 ∨ s.fw.bootLeaf ≠ none ∧ 1048575 < s.fw.lowerLeaf ∧ c = 0x0711) →
      (pktOp p = 0x0701 → par p 0 1 = 1 → parZero p 1 15 = true → par p 0x10 8 = 0 →
        ∃ t, exec (.attestReportGenerate ch pkt) s = .next t ∧ Refused s t ch p c ∧ t.fw = s.fw) ∧
      (pktOp p = 0x0702 → parZero p 1568 8 = true → kemOk (parBytes p 0 1568) = true → s.openSessions n < 16 →
        ∃ t, exec (.sessionOpen ch pkt) s = .next t ∧ Refused s t ch p c ∧ t.sessions = s.sessions)) ∧
    (pktOp p = 0x0701 → par p 0 1 = 1 → parZero p 1 15 = true → par p 0x10 8 = 0 → s.fw.bootLeaf ≠ none → s.fw.lowerLeaf ≤ 1048575 →
      ∃ t, exec (.attestReportGenerate ch pkt) s = .next t ∧ Done s t ch p (leBytes 4 11648 ++ leBytes 4 (s.fw.bootLeaf.getD 0)) ∧
        t.fw = { s.fw with lowerLeaf := s.fw.lowerLeaf + 1 } ∧ (t.admch ch).reportPart = n ∧
        let r := (t.admch ch).report
        r.length = 11648 ∧ Field r 0 4 0x54505241 ∧ Field r 8 4 11648 ∧ Field r 0x18 1 n ∧ Field r 0x20 4 s.fw.lowerLeaf ∧
        (r.drop 0x30).take 32 = parBytes p 0x18 32 ∧ (r.drop 0x160).take 128 = padTo 128 s.prs.regs ∧
        (r.drop 0x270).take 5556 = s.fw.reportSig s.fw.lowerLeaf (r.take 0x270)) ∧
    (pktOp p = 0x0701 → par p 0 1 = 2 → parZero p 1 3 = true → parZero p 0x0C 44 = true →
      let r := (s.admch ch).report
      (1 ≤ par p 8 4 → par p 8 4 ≤ 4080 → (s.admch ch).reportPart = n → par p 4 4 < r.length →
        ∃ t, exec (.attestReportRead ch pkt) s = .next t ∧ Done s t ch p ((r.drop (par p 4 4)).take (par p 8 4)) ∧ OnlyReplies s t) ∧
      (1 ≤ par p 8 4 → par p 8 4 ≤ 4080 → ((s.admch ch).reportPart ≠ n ∨ r.length ≤ par p 4 4) →
        ∃ t, exec (.attestReportRead ch pkt) s = .next t ∧ Refused s t ch p 0x0712) ∧
      ((par p 8 4 = 0 ∨ 4080 < par p 8 4) → ∃ t, exec (.attestReportRead ch pkt) s = .next t ∧ Refused s t ch p 0x0005)) ∧
    (pktOp p = 0x0702 → parZero p 1568 8 = true →
      let ek := parBytes p 0 1568
      (kemOk ek = false → ∃ t, exec (.sessionOpen ch pkt) s = .next t ∧ Refused s t ch p 0x0715) ∧
      (kemOk ek = true → 16 ≤ s.openSessions n → ∃ t, exec (.sessionOpen ch pkt) s = .next t ∧ Refused s t ch p 0x0713) ∧
      (kemOk ek = true → s.openSessions n < 16 → s.fw.bootLeaf ≠ none → s.fw.lowerLeaf ≤ 1048575 →
        ∃ t ct key, exec (.sessionOpen ch pkt) s = .next t ∧ ct.length = 1568 ∧
          Done s t ch p (leBytes 4 s.fw.nextSession ++ zeros 4 ++ ct ++ leBytes 4 11648 ++ zeros 4) ∧
          t.sessions = s.sessions ++ [{ id := s.fw.nextSession, part := n, secret := key }] ∧
          t.fw.lowerLeaf = s.fw.lowerLeaf + 1 ∧
          t.fw.nextSession = (if s.fw.nextSession = 2 ^ 32 - 1 then 1 else s.fw.nextSession + 1) ∧ (t.admch ch).reportPart = n ∧
          ((t.admch ch).report.drop 0x30).take 32 = padTo 32 (sha256 (ek ++ ct ++ leBytes 4 s.fw.nextSession)))) ∧
    (pktOp p = 0x0703 → parZero p 4 4 = true →
      let id := par p 0 4
      (s.openSession n id = none → ∃ t, exec (.sessionClose ch pkt) s = .next t ∧ Refused s t ch p 0x0714) ∧
      (s.openSession n id ≠ none → s.sessionUsed n id = false → ∃ t, exec (.sessionClose ch pkt) s = .next t ∧ Done s t ch p [] ∧
        t.sessions = s.sessions.filter (fun x => decide (x.id ≠ id))) ∧
      (s.openSession n id ≠ none → s.sessionUsed n id = true → ∃ t, exec (.sessionClose ch pkt) s = .next t ∧ Done s t ch p [] ∧
        t.sessions = s.sessions.map (fun x => if x.id = id then { x with closed := true } else x)))

namespace Sys2Proof.Claim

open Sys2Proof.Machine

-- firmware

/-- The slot that is not ACTIVE. -/
def spare (s : State) : FwSlot := s.fw.slot s.fw.inactive

/-- The staging slot and the session's owner become so; the other slot, the running firmware and the fuses stand (R505). -/
def Staged (s t : State) (x : FwSlot) (owner : Option Nat) : Prop :=
  t.fw.slot s.fw.inactive = x ∧ t.fw.stageOwner = owner ∧ t.fw.slot (1 - s.fw.inactive) = s.fw.slot (1 - s.fw.inactive) ∧
  t.fw.runSlot = s.fw.runSlot ∧ t.fw.fusedSvn = s.fw.fusedSvn

/-- A staging row is refused: the firmware state stands but for the session's time. -/
def StageRefused (s : State) (ch : Fin 5) (p : List Byte) (c : Instr) (code : Nat) : Prop :=
  ∃ t, exec c s = .next t ∧ Refused s t ch p code ∧ { t.fw with stageAt := s.fw.stageAt } = s.fw

end Sys2Proof.Claim

/-- R505: staging. BEGIN empties the inactive slot and takes the session, WRITE appends in order, END checks the image and leaves it STAGED,
ABORT leaves it INVALID; each refusal has its code; the session of a silent owner is aborted. A flash operation that fails leaves the slot
INVALID; that it also ends the session, and that a BEGIN that fails leaves the slot empty, is the model's choice (log entry 85). -/
def Obligations.FirmwareStages : Prop :=
  (∀ (s : State) (ch : Fin 5) (pkt : List Byte) (ok : Bool), Admitted s ch pkt →
    let p := chanPacket ch pkt
    let x := spare s
    pktOp p = 0x0704 → parZero p 1 3 = true →
    let rows (ok : Bool) : List (Nat × Instr) :=
      [(1, .fwStageBegin ch pkt ok), (2, .fwStageWrite ch pkt ok), (3, .fwStageEnd ch pkt), (4, .fwStageAbort ch pkt)]
    (∀ op c o, (op, c) ∈ rows ok → par p 0 1 = op → s.fw.stageOwner = some o → o ≠ ch.val → StageRefused s ch p c 0x0702) ∧
    (∀ op c, (op, c) ∈ rows ok → par p 0 1 = op → op ≠ 1 → s.fw.stageOwner = none → StageRefused s ch p c 0x0701) ∧
    (par p 0 1 = 1 → (∀ o, s.fw.stageOwner = some o → o = ch.val) → par p 4 4 = 0 → par p 8 8 = 0 →
      (∃ t, exec (.fwStageBegin ch pkt true) s = .next t ∧ Done s t ch p [] ∧ Staged s t { state := 1 } (some ch.val)) ∧
      (∃ t, exec (.fwStageBegin ch pkt false) s = .next t ∧ Replied s t ch p 4 0x8702 [] ∧ Staged s t { state := 5 } none)) ∧
    (s.fw.stageOwner = some ch.val →
      (par p 0 1 = 2 →
        let n := par p 4 4
        let fits := decide (1 ≤ n) && decide (n ≤ 4048) && par p 8 8 == x.image.length && decide (x.image.length + n ≤ 2 ^ 26)
        (fits = true → (∃ t, exec (.fwStageWrite ch pkt true) s = .next t ∧ Done s t ch p [] ∧
            Staged s t { x with image := x.image ++ parBytes p 16 n } (some ch.val)) ∧
          (∃ t, exec (.fwStageWrite ch pkt false) s = .next t ∧ Replied s t ch p 4 0x8702 [] ∧ Staged s t { x with state := 5 } none)) ∧
        (fits = false → StageRefused s ch p (.fwStageWrite ch pkt ok) 0x0703)) ∧
      (par p 0 1 = 3 →
        (fwLayoutOk x.image = true → fieldAt x.image 0x18 4 = x.image.length →
          ∃ t, exec (.fwStageEnd ch pkt) s = .next t ∧ Done s t ch p [] ∧ Staged s t { x with state := 2 } none) ∧
        ((fwLayoutOk x.image = false ∨ fieldAt x.image 0x18 4 ≠ x.image.length) → StageRefused s ch p (.fwStageEnd ch pkt) 0x0704)) ∧
      (par p 0 1 = 4 → ∃ t, exec (.fwStageAbort ch pkt) s = .next t ∧ Done s t ch p [] ∧ Staged s t { x with state := 5 } none))) ∧
  (∀ (s : State), s.fw.stageOwner = none → exec .fwStageSessionTimeout s = .next s) ∧
  (∀ (s : State) (o : Nat), s.fw.stageOwner = some o →
    ∃ t, exec .fwStageSessionTimeout s = .next t ∧ Staged s t { spare s with state := 5 } none ∧ t.parts = s.parts)

/-- R29, R482, R496, R498, R506 to R509, R513: ACTIVATE_MGT runs a valid STAGED image, whose firmware takes over by servicing the watchdog or
is reverted; ACTIVATE_DIE loads a sequencer that is not busy; COMMIT_SVN and a retirement reply when the fuse controller is done; the
watchdog's expiry restarts the firmware, or starts L3 during a recovery. The model's choices: the severity of the watchdog's log entry (DESIGN
CHOICE, log entry 13), and that a leaf's second and third blow take the next leaves that read unblown (DEDUCED, log entry 40). -/
def Obligations.FirmwareActivates : Prop :=
  (∀ (s : State) (ch : Fin 5) (pkt : List Byte), Admitted s ch pkt →
    let p := chanPacket ch pkt
    let x := spare s
    (pktOp p = 0x0705 → par p 0 1 = 1 → parZero p 1 7 = true →
      let old := (natRange 0 4).any (fun d => decide (tabGet 0 s.fw.seqVersion d / 65536 < fieldAt x.image 0x10 8 / 65536))
      let refusedWith (c : Nat) : Prop := ∃ t, exec (.activateMgt ch pkt) s = .next t ∧ Refused s t ch p c ∧ t.fw = s.fw
      (x.state ≠ 2 → refusedWith 0x0708) ∧
      (x.state = 2 → fwValid x.image = false → refusedWith 0x0705) ∧
      (x.state = 2 → fwValid x.image = true → fwSvn x.image < s.fw.fusedSvn → refusedWith 0x0706) ∧
      (x.state = 2 → fwValid x.image = true → s.fw.fusedSvn ≤ fwSvn x.image → old = true → refusedWith 0x0707) ∧
      (x.state = 2 → fwValid x.image = true → s.fw.fusedSvn ≤ fwSvn x.image → old = false →
        ∃ t, exec (.activateMgt ch pkt) s = .next t ∧ Waits t ch p ∧
          t.fw = { s.fw with runSlot := s.fw.inactive, meas2 := fwMgtDigest x.image, handover := some ch.val } ∧ t.mgtWatch = s.ticks ∧
          (∀ c, c < 4 → (tabGet {} t.mgtCores c).running = true) ∧
          ∀ j, j < 5 → j ≠ ch.val → (t.admch j).deviceBusy = true)) ∧
    (pktOp p = 0x0705 → par p 0 1 = 2 → parZero p 1 1 = true → parZero p 4 4 = true →
      let d := par p 2 2
      let img := (s.fw.slot s.fw.active).image
      (3 < d → ∃ t, exec (.activateDie ch pkt) s = .next t ∧ Refused s t ch p 0x0005 ∧ t.fw = s.fw) ∧
      (d ≤ 3 → s.dieBusy d = true → ∃ t, exec (.activateDie ch pkt) s = .next t ∧ Refused s t ch p 0x0709 ∧ t.fw = s.fw) ∧
      (d ≤ 3 → s.dieBusy d = false → ∃ t, exec (.activateDie ch pkt) s = .next t ∧ Done s t ch p [] ∧
        tabGet 0 t.fw.seqVersion d = fwVersion img ∧ tabGet [] t.fw.seqDigest d = fwSeqDigest img ∧
        ∀ e, e ≠ d → tabGet 0 t.fw.seqVersion e = tabGet 0 s.fw.seqVersion e)) ∧
    (pktOp p = 0x0705 → par p 0 1 = 3 → parZero p 1 7 = true →
      let svn := fwSvn (s.fw.slot s.fw.active).image
      (svn ≤ s.fw.fusedSvn → ∃ t, exec (.commitSvn ch pkt) s = .next t ∧ Done s t ch p [] ∧ t.fw = s.fw) ∧
      (s.fw.fusedSvn < svn → ∃ t, exec (.commitSvn ch pkt) s = .next t ∧ Waits t ch p ∧ t.fw = { s.fw with svnCh := some ch.val }))) ∧
  (∀ (s : State) (ch : Nat), s.phase = .ready → s.fw.handover = some ch → s.fw.runSlot ≤ 1 →
    (∀ a, bootCopy s.fw.bootA = some a ∨ bootCopy s.fw.bootB = some a → a.1 + 1 < 2 ^ 32) → ∃ t, exec .mgtWatchdogService s = .next t ∧
    AnsweredDone s t ch [] ∧ (t.fw.slot s.fw.runSlot).state = 3 ∧ (t.fw.slot (1 - s.fw.runSlot)).state = 4 ∧
    t.fw.bootSlot = s.fw.runSlot ∧ t.fw.handover = none ∧ t.mgtWatch = s.ticks) ∧
  (∀ (s : State), s.phase = .ready → s.fw.handover = none → exec .mgtWatchdogService s = .next { s with mgtWatch := s.ticks }) ∧
  (∀ (s : State) (ch : Nat) (c : Instr), c = .handoverTimeout ∨ c = .mgtWatchdogExpiry ∧ s.phase = .ready → s.fw.handover = some ch →
    s.fw.runSlot ≤ 1 → ∃ t, exec c s = .next t ∧ (t.admch ch).replyStatus = 4 ∧ (t.admch ch).running = false ∧
      (t.fw.slot s.fw.runSlot).state = 5 ∧ t.fw.runSlot = 1 - s.fw.runSlot ∧
      t.fw.meas2 = fwMgtDigest (s.fw.slot (1 - s.fw.runSlot)).image ∧ t.fw.bootA = s.fw.bootA ∧ t.fw.bootB = s.fw.bootB) ∧
  (∀ (s : State), exec .mgtWatchdogWarning s = .next (if s.phase = .ready then s.irqRaise 9 else s)) ∧
  (∀ (s : State), s.phase = .ready → s.fw.handover = none →
    let u := s.logCondition 4 2 0x804A []
    (s.recovering = false → exec .mgtWatchdogExpiry s = .next { u with mgtWatch := s.ticks }) ∧
    (s.recovering = true → exec .mgtWatchdogExpiry s = .next u.l3Recovering ∧ exec .managementError s = .next s.l3Recovering) ∧
    (s.recovering = false → exec .managementError s = .next s)) ∧
  (∀ (s : State) (ch : Nat), s.phase = .ready → s.fw.svnCh = some ch → ∃ t, exec (.fuseOperationDone true) s = .next t ∧
    AnsweredDone s t ch [] ∧ t.fw.svnCh = none ∧
    t.fw.fusedSvn = max s.fw.fusedSvn (fwSvn (s.fw.slot s.fw.active).image) ∧
    (∀ i, i < 2 → 2 ≤ (s.fw.slot i).state ∨ (s.fw.slot i).state = 1 ∧ 0x1C < (s.fw.slot i).image.length →
      fwSvn (s.fw.slot i).image < t.fw.fusedSvn → (t.fw.slot i).state = 5)) ∧
  (∀ (s : State) (r : Nat × Nat × Nat), s.phase = .ready → s.fw.svnCh = none → s.retireReady = some r →
    ∃ t, exec (.fuseOperationDone true) s = .next t ∧ (r.2.2 < 5 → AnsweredDone s t r.2.2 []) ∧ r ∉ t.recov.retiring ∧
      ((s.entry r.1 r.2.1).state ≠ .retired → 1 ≤ r.1 → r.1 ≤ 3 →
        t.entry r.1 r.2.1 = { state := .retired, cause := (s.entry r.1 r.2.1).retireAs } ∧
        t.fuses.retired.any (fun x => decide (x.1 = r.1 ∧ x.2.1 = r.2.1)) = true)) ∧
  (∀ (s : State) (q tries : Nat), s.phase = .identity → s.fw.leafTry = some (q, tries) →
    (∃ t, exec (.fuseOperationDone true) s = .next t ∧ t.fw.bootLeaf = some q ∧ t.fw.leafFuses.testBit q = true ∧ t.fw.lowerLeaf = 0 ∧
      t.fw.leafTry = none) ∧
    (∀ r, tries < 3 → s.fw.leafFrom (q + 1) = some r → ∃ t, exec (.fuseOperationDone false) s = .next t ∧ t.phase = .identity ∧
      t.fw.leafTry = some (r, tries + 1)) ∧
    (3 ≤ tries → ∃ t, exec (.fuseOperationDone false) s = .next t ∧ t.fw.bootLeaf = s.fw.bootLeaf ∧ t.fw.leafTry = none ∧
      t.fw.leafFuses = s.fw.leafFuses))

namespace Sys2Proof.Claim

open Sys2Proof.Machine

-- recovery

/-- The domain is taped off from now on, at step 1 of its recovery, begun so and with a dump or without (R465, R471). -/
def Down (t : State) (d : Domain) (origin : Nat) (dump : Bool) (waiters : List Nat) : Prop :=
  ∃ r, t.findRun d = some r ∧ r.step = 1 ∧ r.origin = origin ∧ r.dump = dump ∧ r.waiters = waiters

/-- The run of a domain, as it stands, becomes another; the other domains stand. -/
def RunBecomes (s t : State) (d : Domain) (r : DomainRun) : Prop :=
  t.findRun d = some r ∧ ∀ e, e ≠ d → t.findRun e = s.findRun e

end Sys2Proof.Claim

/-- R464, R465, R468, R471, R474, R479 to R481, R488: what starts a recovery and what its steps do. An error tapes its domain off, and one
that meets a recovery escalates it; the drain's end answers what is left and notifies; a dump passes its silent units by; a reset clears the
domain or escalates; at its end the tape goes and the commands reply. A timed-out transaction is counted and ends; a core without progress
for WATCHDOG_MS ends its packet, and a cluster that does not freeze is recovered. -/
def Obligations.RecoveriesRun : Prop :=
  (∀ (s : State) (cl : Fin 192), s.phase = .ready → (s.clEntry cl).inService = true →
    (s.recov.domains = [] → ∃ t, exec (.clusterControlError cl) s = .next t ∧ Down t (.l1 cl) 2 true [] ∧ t.clTaped cl = true ∧
      ∀ j, j ≠ cl.val → t.clTaped j = s.clTaped j) ∧
    (∀ r, s.recov.domains = [r] → r.dom = .l1 cl → r.step ≠ 9 → ∃ t, exec (.clusterControlError cl) s = .next t ∧
      Down t (.l2 (dieOf cl)) 2 true [] ∧ t.findRun (.l1 cl) = none ∧ t.recov.nested = satInc32 s.recov.nested ∧
      ∀ ch ∈ r.waiters, (t.admch ch).running = false ∧ (t.admch ch).replyStatus = 4)) ∧
  (∀ (s : State) (d : Fin 4), s.phase = .ready →
    (s.recov.domains = [] → ∃ t, exec (.dieControlError d) s = .next t ∧ Down t (.l2 d) 2 true [] ∧ t.dieTaped d = true ∧
      t.faultLow = true) ∧
    (s.recov.domains = [] → ∃ t, exec (.sequencerWatchMiss d) s = .next t ∧ Down t (.l2 d) 2 true []) ∧
    (∀ r, s.findRun (.l2 d) = some r → r.step ≠ 9 →
      exec (.dieControlError d) s = .next (if r.origin = 0 then (s.countNested (.l2 d)).l3
        else ((s.countNested (.l2 d)).failWaiters r.waiters).l3) ∧
      exec (.sequencerWatchMiss d) s = .next s)) ∧
  (∀ (s : State), exec .hubControlError s = .next (if s.phase = .ready then s.l3Recovering else s)) ∧
  (∀ (s : State) (d : Domain) (r : DomainRun), s.recov.domains = [r] → r.dom = d →
    (r.step = 1 → r.origin ≠ 3 → ∃ t vds, exec (.tapeOffDrainEnd d) s = .next t ∧
      RunBecomes s t d { r with notified := vds, stood := if r.dump then s.clusters.filter (fun e => domHasCluster d e.1) else [],
                                step := if r.dump then 3 else 4 } ∧ vds = (s.domainAborts d).affectedVds d ∧
      (∀ w ∈ t.writes, domHasCluster d w.k.cl = false)) ∧
    (r.step ≠ 1 → exec (.tapeOffDrainEnd d) s = .next s) ∧
    (∀ unit, ∃ t, exec (.dumpAccessTimeout d unit) s = .next t ∧
      RunBecomes s t d (if r.step = 3 ∧ unit < (dumpUnits d).length then { r with silent := addOnce r.silent unit } else r)) ∧
    (r.step = 3 → r.origin ≠ 0 → ∃ t, exec (.dumpComplete d) s = .next t ∧ RunBecomes s t d { r with step := 4 }) ∧
    (∀ ch : Fin 5, r.step = 3 → r.origin = 0 → r.waiters = [ch.val] → ∃ t res, exec (.dumpComplete d) s = .next t ∧
      RunBecomes s t d { r with step := 9, waiters := [] } ∧ (t.admch ch).running = false ∧ (t.admch ch).replyValid = true ∧
      (t.admch ch).reply = replyBytes (pktOp (s.admch ch).copy) 0 0 ((s.admch ch).accepted % 65536) (fieldAt (s.admch ch).copy 8 4) res ∧
      Field res 0 4 r.dumpId ∧ Field res 4 2 (if domLevel d = 1 then 1 else 77) ∧
      Field res 6 2 (r.silent.filter (fun u => decide (u < (dumpUnits d).length))).length) ∧
    (r.step = 4 → ∃ t, exec (.domainResetComplete d true) s = .next t ∧ RunBecomes s t d { r with step := 5 } ∧
      (∀ i, i < 192 → domHasCluster d i = true → (t.cl i).cmem = [] ∧ (t.cl i).cores = [] ∧ (t.cl i).ctx = none) ∧
      (∀ i, i < 320 → domHasChannel d i = true → (t.chan i).mem = [])) ∧
    (∀ cl, d = .l1 cl → r.step = 4 → ∃ t, exec (.domainResetComplete d false) s = .next t ∧ Down t (.l2 (dieOf cl)) 2 true [] ∧
      t.findRun d = none) ∧
    (∀ die, d = .l2 die → r.step = 4 →
      exec (.domainResetComplete d false) s =
        .next (if r.origin = 0 then (s.countNested d).l3 else ((s.countNested d).failWaiters r.waiters).l3)) ∧
    (r.step = 5 → r.retire = [] → ∃ t, exec (.domainRestored d) s = .next t ∧ t.findRun d = none ∧
      t.recov.l1Count = (if domLevel d = 1 then satInc32 s.recov.l1Count else s.recov.l1Count) ∧
      t.recov.l2Count = (if domLevel d = 1 then s.recov.l2Count else satInc32 s.recov.l2Count) ∧
      (∀ ch ∈ r.waiters, (t.admch ch).replyValid = true ∧ (t.admch ch).replyStatus = 0 ∧ (t.admch ch).running = false)) ∧
    (r.step ≠ 5 → exec (.domainRestored d) s = .next s)) ∧
  (∀ (s : State) (k : CoreId) (h : HostCtx), (s.cl k.cl).ctx = some h →
    (∀ r rest, (s.core k).wait = r :: rest → r.faulted = false → r.sent = true → ∃ t,
      exec (.fabricTransactionTimeout (.coreRead k)) s = .next t ∧ t.recov.timeouts = satInc32 s.recov.timeouts) ∧
    (∀ id w, s.findWrite id = some w → w.k = k → w.faulted = false → w.sent = true → ∃ t,
      exec (.fabricTransactionTimeout (.write id)) s = .next t ∧ t.recov.timeouts = satInc32 s.recov.timeouts ∧ t.findWrite id = none) ∧
    (∀ (q : Fin 16) (tx i : Nat) (e : DmaEntry) (n a b m : Nat), findTx ((s.core k).dma q) 0 tx = some (i, e, n) → e.isDone n = false →
      (e.faultsOf n).isEmpty = true → e.sides (s.core k) n = some (a, b, m) →
      ((s.txGate k h e n a b).2 = true → ∀ c, c = TimedReq.dma k q tx ∨ c = TimedReq.dmaWrite k q tx →
        ∃ t, exec (.fabricTransactionTimeout c) s = .next t ∧ t.recov.timeouts = satInc32 s.recov.timeouts) ∧
      ((s.txGate k h e n a b).2 = false → ∀ c, c = TimedReq.dma k q tx ∨ c = TimedReq.dmaWrite k q tx →
        exec (.fabricTransactionTimeout c) s = .next s))) ∧
  (∀ (s : State) (q : QRef) (r : PacketRun), (s.queue q.part q.ctx q.queue).cur = some r → r.typ ∈ [3, 4, 0x0B, 0x0C] → r.waiting = false →
    (s.packetHeld q.part q.ctx r = true → ∃ t, exec (.fabricTransactionTimeout (.agent q)) s = .next t ∧
      t.recov.timeouts = s.recov.timeouts ∧ (t.queue q.part q.ctx q.queue).cur = some r) ∧
    (s.packetHeld q.part q.ctx r = false → ∃ t, exec (.fabricTransactionTimeout (.agent q)) s = .next t ∧
      t.recov.timeouts = satInc32 s.recov.timeouts ∧ (t.queue q.part q.ctx q.queue).cur = none)) ∧
  (∀ (s : State) (d : Fin 4), ∃ t, exec (.progressSample d) s = .next t ∧ { t with clusters := s.clusters } = s ∧
    ∀ (k : CoreId) (h : HostCtx), (s.cl k.cl).ctx = some h →
      let c := s.core k
      let idle := decide (c.run ≠ .running ∧ c.run ≠ .halting) || decide (c.issued ≠ c.sampleIssued) || s.excused h c
      (k.cl.val / 48 ≠ d.val → t.core k = c) ∧
      (k.cl.val / 48 = d.val → (∃ e ∈ (s.cl k.cl).cores, e.1 = k.core.val) →
        (t.core k).sampleMs = (if idle then 0 else c.sampleMs + 1) ∧ (t.core k).sampleIssued = c.issued)) ∧
  (∀ (s : State) (p : Fin 64) (c : Fin 256),
    let late := (s.runClusters p c).any (fun i => (s.cl i).cores.any (fun e =>
      decide (s.recov.watchdogMs ≤ e.2.sampleMs) && decide (e.2.run = .running ∨ e.2.run = .halting)))
    ((s.ctx p c).resident = false ∨ late = false → exec (.watchdogExpired p c) s = .next s) ∧
    ((s.ctx p c).resident = true → late = true → ∃ t, exec (.watchdogExpired p c) s = .next t ∧
      t.recov.watchdogCount = satInc32 s.recov.watchdogCount ∧ (t.ctx p c).resident = false ∧
      ∀ i ∈ s.runClusters p c, (t.cl i).expired = some (p.val, c.val))) ∧
  (∀ (s : State) (cl : Fin 192),
    ((s.cl cl).expired = none → exec (.coreHung cl) s = .next s) ∧
    (∀ p c, (s.cl cl).expired = some (p, c) → s.recov.domains = [] → (s.clEntry cl).isOut = false →
      ∃ t, exec (.coreHung cl) s = .next t ∧ Down t (.l1 cl) 2 true [] ∧ (t.cl cl).expired = none))

/-- R485 to R489, R492, R493: DOMAIN_RECOVER queries, joins a recovery that covers its domain, goes on with one held, or starts one;
DUMP_COLLECT tapes its domain off for a dump and dumps a held one again; DUMP_READ returns a stored dump's bytes and may release it;
RETIRE_UNIT takes the unit out of service and waits for its fuse, after the tape-off of a BOUND cluster. -/
def Obligations.RecoveryCommands : Prop :=
  ∀ (s : State) (ch : Fin 5) (pkt : List Byte), Admitted s ch pkt →
    let p := chanPacket ch pkt
    let unit := par p 2 2
    let flags := par p 1 1
    let rows : List (Nat × Instr) := [(1, .domainRecoverL1 ch pkt), (2, .domainRecoverL2 ch pkt)]
    (pktOp p = 0x0801 → flags < 4 → parZero p 6 2 = true →
      (par p 0 1 = 0 → flags.testBit 0 = false → unit = 0 →
        let ms := par p 4 2
        ((if flags.testBit 1 then 10 ≤ ms ∧ ms ≤ 1000 else ms = 0) → ∃ t r, exec (.domainRecoverQuery ch pkt) s = .next t ∧
          Done s t ch p r ∧ r.length = 112 ∧ t.recov = { s.recov with watchdogMs := if flags.testBit 1 then ms else s.recov.watchdogMs } ∧
          Field r 0 4 1 ∧ Field r 4 2 t.recov.watchdogMs ∧ (∀ d, d < 4 → Field r (8 + d) 1 (s.dieState d)) ∧
          (∀ d, d < 5 → Field r (48 + 8 * d) 8 (tabGet 0 s.recov.stitches d)) ∧ Field r 0x58 4 s.recov.l1Count ∧
          Field r 0x5C 4 s.recov.l2Count ∧ Field r 0x60 4 s.recov.nested ∧ Field r 0x64 4 s.recov.timeouts ∧
          Field r 0x68 4 s.recov.watchdogCount ∧ Field r 6 2 0 ∧ Field r 0x0F 1 0 ∧ Field r 0x28 8 0 ∧ Field r 0x6C 4 0 ∧
          (∀ i, i < 24 → (fieldAt r 0x0C 3).testBit i = hasNat s.recov.linkOut i) ∧
          (∀ c, c < 192 → (fieldAt r 0x10 24).testBit c = s.recov.domains.any (fun x => domHasCluster x.dom c))) ∧
        ((if flags.testBit 1 then ms < 10 ∨ 1000 < ms else ms ≠ 0) →
          ∃ t, exec (.domainRecoverQuery ch pkt) s = .next t ∧ Refused s t ch p 0x0005 ∧ t.recov = s.recov)) ∧
      (∀ level c d, (level, c) ∈ rows → par p 0 1 = level → flags < 2 → par p 4 2 = 0 → s.namedDomain level unit = some d →
        (s.recov.domains = [] → ∃ t, exec c s = .next t ∧ Waits t ch p ∧ Down t d 1 (flags.testBit 0) [ch.val]) ∧
        (∀ r, s.recov.domains = [r] → r.dom = d → r.step ≠ 9 → r.origin ≠ 0 → ∃ t, exec c s = .next t ∧ Waits t ch p ∧
          RunBecomes s t d { r with waiters := r.waiters ++ [ch.val], origin := if r.origin = 3 then 1 else r.origin }) ∧
        (∀ r, s.recov.domains = [r] → r.dom = d → r.step = 9 → ∃ t, exec c s = .next t ∧ Waits t ch p ∧
          RunBecomes s t d { r with step := 4, origin := 1, waiters := [ch.val] })) ∧
      (∀ level c, (level, c) ∈ rows → par p 0 1 = level → (s.namedDomain level unit = none ∨ flags.testBit 1 = true ∨ par p 4 2 ≠ 0) →
        ∃ t, exec c s = .next t ∧ Refused s t ch p 0x0005 ∧ t.recov = s.recov) ∧
      (par p 0 1 = 3 → flags = 0 → unit = 0 → par p 4 2 = 0 → ∃ u, exec (.domainRecoverL3 ch pkt) s = .next u.l3Recovering ∧ Done s u ch p [] ∧
        u.parts = s.parts)) ∧
    (pktOp p = 0x0802 → parZero p 1 1 = true → parZero p 4 4 = true →
      (s.namedDomain (par p 0 1) unit = none → ∃ t, exec (.dumpCollect ch pkt) s = .next t ∧ Refused s t ch p 0x0005) ∧
      (∀ d, s.namedDomain (par p 0 1) unit = some d →
        (s.recov.domains = [] → ∃ t, exec (.dumpCollect ch pkt) s = .next t ∧ Waits t ch p ∧ Down t d 0 true [ch.val] ∧
          t.recov.nextDump = s.recov.nextDump + 1) ∧
        (∀ r, s.recov.domains = [r] → r.dom = d → r.step = 9 → ∃ t, exec (.dumpCollect ch pkt) s = .next t ∧ Waits t ch p ∧
          RunBecomes s t d { r with step := 3, origin := 0, dump := true, dumpId := s.recov.nextDump, logSeq := s.log.next, silent := [],
                                    waiters := [ch.val] }))) ∧
    (pktOp p = 0x0803 → par p 4 1 ≤ 1 → parZero p 5 3 = true → parZero p 0x14 4 = true →
      let n := par p 0x10 4
      (1 ≤ n → n ≤ 4080 → (∀ d ∈ s.recov.dumps, d.id ≠ par p 0 4) → ∃ t, exec (.dumpRead ch pkt) s = .next t ∧
        Replied s t ch p 4 0x8023 [] ∧ t.recov = s.recov) ∧
      (∀ d, 1 ≤ n → n ≤ 4080 → s.recov.dumps.find? (fun d => decide (d.id = par p 0 4)) = some d →
        ∃ t, exec (.dumpRead ch pkt) s = .next t ∧ Done s t ch p ((d.bytes.drop (par p 8 8)).take n) ∧
          t.recov = (if par p 4 1 = 1 then { s.recov with dumps := s.recov.dumps.filter (fun x => decide (x.id ≠ d.id)) } else s.recov))) ∧
    (pktOp p = 0x0804 → parZero p 1 1 = true → parZero p 4 4 = true → 1 ≤ par p 0 1 → par p 0 1 ≤ 3 →
      let kind := par p 0 1
      let e := s.entry kind unit
      (unit ≥ (if kind = 1 then 192 else if kind = 2 then 320 else 24) →
        ∃ t, exec (.retireUnit ch pkt) s = .next t ∧ Refused s t ch p 0x0005) ∧
      (unit < (if kind = 1 then 192 else if kind = 2 then 320 else 24) → s.recov.domains = [] →
        ((e.state = .disabled ∨ e.state = .retired) → ∃ t, exec (.retireUnit ch pkt) s = .next t ∧ Done s t ch p [] ∧ OnlyReplies s t) ∧
        (kind = 1 → e.state = .bound → ∃ t d, exec (.retireUnit ch pkt) s = .next t ∧ Waits t ch p ∧ s.namedDomain 1 unit = some d ∧
          Down t d 3 false [] ∧ ∀ r, t.findRun d = some r → r.retire = [(1, unit, ch.val)]) ∧
        (e.state = .free → ∃ t, exec (.retireUnit ch pkt) s = .next t ∧ Waits t ch p ∧
          t.entry kind unit = { e with retireAs := 1, stripped := e.stripFailed } ∧ (kind, unit, ch.val) ∈ t.recov.retiring) ∧
        (kind = 3 → e.state = .bound → ∃ t, exec (.retireUnit ch pkt) s = .next t ∧ Waits t ch p ∧
          t.entry kind unit = { e with retireAs := 1, stripped := e.stripFailed } ∧ (kind, unit, ch.val) ∈ t.recov.retiring ∧
          (e.retireAs = 0 → hasNat t.recov.linkOut unit = true)) ∧
        (e.state = .stripping → ∃ t, exec (.retireUnit ch pkt) s = .next t ∧ Waits t ch p ∧
          t.entry kind unit = { e with retireAs := 1, stripped := e.stripFailed } ∧ (kind, unit, ch.val) ∈ t.recov.retiring)))

namespace Sys2Proof.Claim

open Sys2Proof.Machine

-- the package

/-- What every reset of the package leaves (R353, R472, R514, R564): the persistent state and the pins that are named stand, a leaf whose
blow the reset cuts off counts as used, and nothing is left of the work in progress. -/
structure PackageCleared (s t : State) : Prop where
  clusters : t.clusters = []
  channels : t.channels = []
  parts : t.parts = []
  slots : t.kv.slots = []
  sessions : t.sessions = []
  stores : t.writes = []
  order : t.hubOrder = []
  domains : t.recov.domains = []
  fuses : t.fuses = s.fuses
  leaves : t.fw.leafFuses = s.fw.leavesKept
  svn : t.fw.fusedSvn = s.fw.fusedSvn
  images : t.fw.slotA.image = s.fw.slotA.image ∧ t.fw.slotB.image = s.fw.slotB.image

/-- A package start that finds its boot area right (R556 to R561): the boot code runs and has been measured, or the part stays in RELEASE
mode. What the board has programmed into the flash is there (R557; the model's reading of it is log entry 23). -/
def Starts (s t : State) (b : StartInfo) : Prop :=
  PackageCleared (s.boardWrote b) t ∧ t.pins.pgood = true ∧ t.boot = { b with board := none } ∧
  (∀ x, b.board = some x → t.fw.slotA.image = x.slotA ∧ t.fw.bootA = x.recordA ∧ t.fw.bootB = x.recordB) ∧
  (b.board = none → t.fw.bootA = s.fw.bootA ∧ t.fw.bootB = s.fw.bootB) ∧
  (b.bootSrc ≠ 0 → t.phase = .release ∧ t.faultLow = true) ∧
  (b.bootSrc = 0 → t.phase = .bootCode ∧ t.fw.meas1 = sha256 (bootCopied b.bootArea))

end Sys2Proof.Claim

/-- R483, R524, R537, R553, R556, R557, R559, R564: the 36 V input, RST_N, the clocks and the trip reset, stop and restart the part; what
survives is what R564 names. What the straps read at a start that no command brings is a free value (log entry 23). -/
def Obligations.PackageStartsAndStops : Prop :=
  (∀ (s : State) (b : StartInfo), (b.bootSrc = 0 → bootHeaderOk b.bootArea = true) → s.pins.thermtripN = true →
    (s.phase = .held → s.power.pllLocked = true → s.pins.pgood = true →
      ∃ t, exec (.rstNRelease b) s = .next t ∧ t.pins.rstN = true ∧ Starts s t b) ∧
    (s.phase = .held → s.power.pllLocked = false → s.pins.pgood = true → s.pins.rstN = true →
      ∃ t, exec (.refclkStable b) s = .next t ∧ t.power.pllLocked = true ∧ Starts s t b) ∧
    (s.phase = .off → s.power.pllLocked = true → s.pins.rstN = true →
      ∃ t, exec (.vin36Rise b) s = .next t ∧ Starts s t b) ∧
    (s.phase = .overvoltage → s.power.pllLocked = true → s.pins.rstN = true →
      ∃ t, exec (.vin36OvervoltageRestart b) s = .next t ∧ Starts s t b) ∧
    (s.phase ≠ .off → exec (.vin36Rise b) s = .next s) ∧ (s.phase ≠ .overvoltage → exec (.vin36OvervoltageRestart b) s = .next s) ∧
    (s.phase ≠ .held → exec (.rstNRelease b) s = .next { s with pins := { s.pins with rstN := true } })) ∧
  (∀ (s : State), (∃ t, exec .vin36Undervoltage s = .next t ∧ PackageCleared s t ∧ t.phase = .off ∧ t.pins.pgood = false ∧
      t.pins.thermtripN = true ∧ t.recov.failedStarts = 0) ∧
    (s.phase ≠ .off → ∃ t, exec .vin36Overvoltage s = .next t ∧ PackageCleared s t ∧ t.phase = .overvoltage ∧ t.pins.pgood = false ∧
      t.pins.thermtripN = s.pins.thermtripN) ∧
    (s.phase ≠ .off → s.phase ≠ .overvoltage → ∃ t, exec .rstNAssert s = .next t ∧ PackageCleared s t ∧ t.pins.rstN = false ∧
      t.pins.pgood = s.pins.pgood ∧ t.pins.thermtripN = s.pins.thermtripN ∧ t.phase = (if s.pins.thermtripN then .held else .tripped) ∧
      t.recov.failedStarts = if s.phase = .dead then 0 else s.recov.failedStarts) ∧
    (s.powered = true → s.pins.pgood = true → ∃ t, exec .thermtrip s = .next t ∧ PackageCleared s t ∧ t.phase = .tripped ∧
      t.pins.thermtripN = false) ∧
    (s.powered = true → s.phase ≠ .tripped → ∃ t, exec .pllLossOfLock s = .next t ∧ PackageCleared s t ∧ t.phase = .held ∧
      t.power.pllLocked = false ∧ t.faultLow = true) ∧
    (s.powered = true → s.pins.pgood = true → s.railFailed = true → ∃ t, exec .railOutOfRegulation s = .next t ∧ PackageCleared s t ∧
      t.pins.pgood = false ∧ t.phase = (if s.pins.thermtripN then .held else .tripped)) ∧
    (s.powered = true → s.pins.pgood = true → s.railFailed = false → s.power.pllLocked = true → s.pins.rstN = true →
      s.pins.thermtripN = true → bootHeaderOk s.boot.bootArea = true →
      ∃ t src, exec .railOutOfRegulation s = .next t ∧ t.railFailed = true ∧ Starts s t { s.boot with bootSrc := src, board := none }) ∧
    (s.phase = .bootCode ∨ s.phase = .identity ∨ s.phase = .stuck →
      (2 ≤ s.recov.failedStarts → ∃ t, exec .startFailure s = .next t ∧ PackageCleared s t ∧ t.phase = .dead ∧ t.faultLow = true) ∧
      (s.recov.failedStarts < 2 → s.boot.bootSrc = 0 → bootHeaderOk s.boot.bootArea = true → ∃ t, exec .startFailure s = .next t ∧
        PackageCleared s t ∧ t.phase = .bootCode ∧ t.recov.failedStarts = s.recov.failedStarts + 1))) ∧
  (∀ (s : State) (lm : Fin 24), s.lmUp lm = true → ∃ t, exec (.linkPllLossOfLock [.d2d lm]) s = .next t ∧ lm.val ∈ t.recov.linkOut ∧
    { t with recov := s.recov } = s)

/-- R363 to R366, R497, R498, R500, R501, R563: the side-band bus assigns an address and answers the control messages; a request message is
assembled from its packets, and discarded, answered BUSY, refused for its form, or accepted as a command; its reply goes to its sender with
its tag. Management sources are raised, claimed and completed; the log's second ends with what it suppressed, and the ring is copied to the
flash; while the hub is in reset none of these happens. -/
def Obligations.BusAndManagement : Prop :=
  (∀ (s : State) (a : BitVec 7),
    (s.bcUp = true → (s.bc.address = none ∨ s.bc.hotJoin = true) → exec (.entdaa a) s =
      .next { s with bc := { s.bc with address := some a.toNat, hotJoin := false } }) ∧
    ((s.bcUp = false ∨ s.bc.address ≠ none ∧ s.bc.hotJoin = false) → exec (.entdaa a) s = .next s)) ∧
  (∀ (s : State) (x : Byte), s.bcReached = true →
    let replies (c : Instr) (bs : List Nat) : Prop :=
      exec c s = .next { s with bc := { s.bc with ctlReply := bs.flatMap (leBytes 1) } }
    replies .getEndpointId [0, s.bc.eid, 0, 0] ∧
    (8 ≤ x.toNat → x.toNat ≠ 0xFF → exec (.setEndpointId x) s =
      .next { s with bc := { s.bc with eid := x.toNat, ctlReply := [0, 0, x.toNat, 0].flatMap (leBytes 1) } }) ∧
    ((x.toNat < 8 ∨ x.toNat = 0xFF) → replies (.setEndpointId x) [2]) ∧
    ((x.toNat = 0xFF ∨ x.toNat = 0 ∨ x.toNat = 0x7F) → ∃ t vs, exec (.getMctpVersionSupport x) s = .next t ∧
      t.bc.ctlReply = leBytes 1 0 ++ vs ∧ { t with bc := s.bc } = s) ∧
    (x.toNat ≠ 0xFF → x.toNat ≠ 0 → x.toNat ≠ 0x7F → replies (.getMctpVersionSupport x) [0x80]) ∧
    replies .getMessageTypeSupport [0, 2, 0, 0x7F] ∧
    (x.toNat ≠ 0 → replies (.getVendorDefinedMessageSupport x) [2]) ∧
    (x.toNat = 0 → ∃ t vs, exec (.getVendorDefinedMessageSupport x) s = .next t ∧ { t with bc := s.bc } = s ∧
      t.bc.ctlReply = [0, 0xFF, 1].flatMap (leBytes 1) ++ (leBytes 4 s.fuses.iana).reverse ++ vs)) ∧
  (∀ (s : State) (src tag seq : Nat) (msg : List Byte), s.bc.eid < 256 → src < 256 → tag < 8 → 1 ≤ msg.length → msg.length ≤ 64 →
    mctpAssemble s.bc.eid [mctpHeader s.bc.eid src seq tag true true true ++ msg] = some (src, tag, msg)) ∧
  (∀ (s : State) (ps : List (List Byte)),
    (s.bcReached = false ∨ mctpAssemble s.bc.eid ps = none → exec (.bcRequestMessage ps) s = .next s) ∧
    (∀ src tag msg, s.bcReached = true → mctpAssemble s.bc.eid ps = some (src, tag, msg) →
      let u := { s with bc := { s.bc with asked := (src, tag) } }
      let ours := 5 ≤ msg.length ∧ fieldAt msg 0 1 % 128 = 0x7F ∧ fieldAt (((msg.drop 1).take 4).reverse) 0 4 = s.fuses.iana
      let p := msg.drop 5
      let whole := fieldAt msg 0 1 < 128 ∧ 37 ≤ msg.length ∧ msg.length = 37 + pktLen p
      (¬ ours → exec (.bcRequestMessage ps) s = .next u) ∧
      (ours → s.admBusy 4 = true → ∃ t, exec (.bcRequestMessage ps) s = .next t ∧ t.bc.ibi = true ∧
        t.bc.out = s.bc.out ++ [{ dst := src, tag := tag, bytes := s.bcHead ++ replyBytes 0 3 0 0 0 [] }] ∧ { t with bc := s.bc } = s) ∧
      (ours → s.admBusy 4 = false → whole → frameCheck p = none → badSubOp p = none →
        exec (.bcRequestMessage ps) s = .next (u.admAccept 4 p) ∧ (u.admAccept 4 p).bc.reply = (src, tag)) ∧
      (ours → s.admBusy 4 = false → ¬ whole → ∃ t m, exec (.bcRequestMessage ps) s = .next t ∧ (t.admch 4).replyValid = true ∧
        (t.admch 4).running = false ∧ (t.admch 4).replyStatus = 5 ∧ t.parts = s.parts ∧ t.bc.out = s.bc.out ++ [m] ∧
        m.dst = src ∧ m.tag = tag))) ∧
  (∀ (s : State) (src : Fin 64),
    let cfg := tabGet 0 s.irq.cfg src
    (20 ≤ src.val ∨ cfg.testBit 8 = false → exec (.mgtIrqSourceRaise src) s = .next s) ∧
    (s.hubRuns = true → src.val < 20 → cfg.testBit 8 = true → s.irq.claimed.any (fun x => decide (x.1 = src.val)) = false →
      ∃ t, exec (.mgtIrqSourceRaise src) s = .next t ∧ src.val ∈ t.irq.pending ∧ { t with irq := s.irq } = s) ∧
    (s.hubRuns = true → src.val < 20 → cfg.testBit 8 = true → s.irq.claimed.any (fun x => decide (x.1 = src.val)) = true →
      ∃ t, exec (.mgtIrqSourceRaise src) s = .next t ∧ src.val ∈ t.irq.again ∧ t.irq.pending = s.irq.pending)) ∧
  (∀ (s : State) (core : Fin 4) (fast : Bool),
    (s.hubRuns = true → s.irq.pendingFor core fast = [] → exec (.mgtIrqClaim core fast) s = .next { s with irq := { s.irq with lastClaim := 0xFFFFFFFF } }) ∧
    (∀ x, s.hubRuns = true → x < 64 → x ∈ s.irq.pendingFor core fast → (∀ y ∈ s.irq.pendingFor core fast, x ≤ y) →
      ∃ t, exec (.mgtIrqClaim core fast) s = .next t ∧ t.irq.lastClaim = x ∧ (x, core.val) ∈ t.irq.claimed ∧ x ∉ t.irq.pending)) ∧
  (∀ (s : State) (core : Fin 4) (fast : Bool) (v : BitVec 64),
    let src := v.toNat % 64
    (s.irq.claimed.any (fun x => decide (x.1 = src)) = false → exec (.mgtIrqComplete core fast v) s = .next s) ∧
    (s.hubRuns = true → s.irq.claimed.any (fun x => decide (x.1 = src)) = true → (tabGet 0 s.irq.cfg src).testBit 4 = fast →
      ∃ t, exec (.mgtIrqComplete core fast v) s = .next t ∧ t.irq.claimed = s.irq.claimed.filter (fun x => decide (x.1 ≠ src)) ∧
        (src ∈ s.irq.again → src < 20 → (tabGet 0 s.irq.cfg src).testBit 8 = true → src ∈ t.irq.pending))) ∧
  (∀ (s : State), s.hubRuns = true →
    (s.log.suppressed = 0 → exec .logSecondEnd s = .next { s with log := { s.log with second := 0 } }) ∧
    (0 < s.log.suppressed → ∃ t e, exec .logSecondEnd s = .next t ∧ t.log.suppressed = 0 ∧ t.log.second = 1 ∧
      t.log.next = s.log.next + 1 ∧ t.log.ring.getLast? = some e ∧ Field e 0x12 2 6 ∧ Field e 0x20 4 s.log.suppressed) ∧
    (∃ t, exec .logFlashCopy s = .next t ∧ t.log.reserved = s.log.next + 32768 ∧ t.log.uncopied = 0 ∧ t.log.ring = s.log.ring ∧
      t.log.flash.length ≤ 262144 ∧ { t with log := s.log, irq := s.irq } = s ∧
      ((tabGet 0 s.irq.cfg 12).testBit 8 = true → s.irq.claimed.any (fun x => decide (x.1 = 12)) = false → 12 ∈ t.irq.pending))) ∧
  (∀ (s : State) (c : Instr), s.hubRuns = false →
    (∃ i, c = .mgtIrqSourceRaise i) ∨ (∃ k f, c = .mgtIrqClaim k f) ∨ (∃ k f v, c = .mgtIrqComplete k f v) ∨ c = .logSecondEnd ∨
      c = .logFlashCopy → exec c s = .next s)

namespace Sys2Proof.Claim

open Sys2Proof.Machine

-- residency

/-- The save of a context (R424, R425): the state it is taken in, and the bytes of its save area. -/
def saveArea (s : State) (p c : Nat) (r : PacketRun) : State × List Byte :=
  let s := s.batchPost p c false
  let cls := s.runClusters p c
  let ws := s.takeWrites cls
  let f := s.fresh
  let wait := (f.2.part p).batches.any (fun b => b.number.isSome && b.recs.any (fun r => decide (r.ctx = c)))
  (f.2, saveBytes c cls.length r.typ wait (f.2.part p).revision (fieldAt r.bytes 0x18 8)
    (if (s.ctx p c).genr.isSome then Config.ownFormat 1 f.1 else [])
    ((cls.zip (natRange 0 cls.length)).map (fun e => (f.2.cl e.1).record e.2 (fieldAt r.bytes 4 2)
      (ws.filter (fun w => decide (w.k.cl.val = e.2))))).flatten)

-- admin channels

/-- Every row that a command packet of an admin channel spells (R368), the rows of `admRows` and those of the later chapters. -/
def allRows : List AdmRow :=
  admRows ++
  [ ⟨.powerCapSet, 0x0006, fun _ => true⟩, ⟨.powerCapGet, 0x0007, fun _ => true⟩, ⟨.energyRead, 0x0008, fun _ => true⟩,
    ⟨.partSaveSizeOnly, 0x0107, fun p => (par p 0 1).testBit 0⟩, ⟨.partSave, 0x0107, fun p => !(par p 0 1).testBit 0⟩,
    ⟨.partRestorePrepare, 0x0108, fun p => par p 0 1 == 1⟩, ⟨.partRestoreLoad, 0x0108, fun p => par p 0 1 == 2⟩,
    ⟨.tensionSetAllowances, 0x0301, fun p => par p 0 1 == 1⟩, ⟨.tensionSetLabels, 0x0301, fun p => par p 0 1 == 2⟩,
    ⟨.tensionQuery, 0x0302, fun _ => true⟩, ⟨.attestReportGenerate, 0x0701, fun p => par p 0 1 == 1⟩,
    ⟨.attestReportRead, 0x0701, fun p => par p 0 1 == 2⟩, ⟨.sessionOpen, 0x0702, fun _ => true⟩, ⟨.sessionClose, 0x0703, fun _ => true⟩,
    ⟨fun ch p => .fwStageBegin ch p true, 0x0704, fun p => par p 0 1 == 1⟩,
    ⟨fun ch p => .fwStageWrite ch p true, 0x0704, fun p => par p 0 1 == 2⟩, ⟨.fwStageEnd, 0x0704, fun p => par p 0 1 == 3⟩,
    ⟨.fwStageAbort, 0x0704, fun p => par p 0 1 == 4⟩, ⟨.activateMgt, 0x0705, fun p => par p 0 1 == 1⟩,
    ⟨.activateDie, 0x0705, fun p => par p 0 1 == 2⟩, ⟨.commitSvn, 0x0705, fun p => par p 0 1 == 3⟩, ⟨.fwQuery, 0x0706, fun _ => true⟩,
    ⟨.domainRecoverQuery, 0x0801, fun p => par p 0 1 == 0⟩, ⟨.domainRecoverL1, 0x0801, fun p => par p 0 1 == 1⟩,
    ⟨.domainRecoverL2, 0x0801, fun p => par p 0 1 == 2⟩, ⟨.domainRecoverL3, 0x0801, fun p => par p 0 1 == 3⟩,
    ⟨.dumpCollect, 0x0802, fun _ => true⟩, ⟨.dumpRead, 0x0803, fun _ => true⟩, ⟨.retireUnit, 0x0804, fun _ => true⟩ ]

end Sys2Proof.Claim

/-- R284, R348, R349, R357, R359, R362, R366, R367: what every command of an admin channel meets before its own meaning: a busy channel drops
it; a packet that breaks its framing, that its channel may not issue, or that its partition's state does not take is answered with the code of
the first such check and has no effect; one that commands ahead of it hold is kept. -/
def Obligations.AdminChecksApply : Prop :=
  ∀ r ∈ allRows, ∀ (s : State) (ch : Fin 5) (pkt : List Byte),
    let p := chanPacket ch pkt
    (s.chanExists ch = false → exec (r.cmd ch pkt) s = .next s) ∧
    (s.chanExists ch = true → pktOp p = r.op → r.own p = true → packetWhole ch p = true →
      (s.admBusy ch = true → ((s.admch ch).running = false ∨ (s.admch ch).started = true ∨ (s.admch ch).copy ≠ p) →
        exec (r.cmd ch pkt) s = .next (s.admDrop ch)) ∧
      (s.admBusy ch = false →
        (∀ c, frameCheck p = some c → ∃ t, exec (r.cmd ch pkt) s = .next t ∧ Refused s t ch p c) ∧
        (frameCheck p = none → (s.admAccept ch p).mustWait ch = true → ∃ t, exec (r.cmd ch pkt) s = .next t ∧
          (t.admch ch).running = true ∧ (t.admch ch).started = false ∧ (t.admch ch).copy = p ∧ t.parts = s.parts ∧ t.pool = s.pool) ∧
        (∀ c, frameCheck p = none → (s.admAccept ch p).mustWait ch = false → s.permCode ch p = some c →
          ∃ t, exec (r.cmd ch pkt) s = .next t ∧ Refused s t ch p c) ∧
        (∀ c, frameCheck p = none → (s.admAccept ch p).mustWait ch = false → s.permCode ch p = none → s.partStateCode p = some c →
          ∃ t, exec (r.cmd ch pkt) s = .next t ∧ Refused s t ch p c)))

/-- R417 to R420, R422, R424, R428, R434, R475, R476: a runnable context whose clusters are free becomes resident; at the end of its slice it is
switched out where the oldest runnable context needs one of its clusters, unless a commit holds it; a frozen context is saved and its clusters
are free, its save object holding the bytes that R426 gives; a saved one is restored from the records that its object holds; one whose VD has
changed its size enters in its new shape; a completion with an old tag or generation, or for a taped-off die whose requests have been answered,
is discarded and counted. -/
def Obligations.ContextsTakeTurns : Prop :=
  (∀ (s : State) (p : Fin 64) (c : Fin 256),
    ((s.ctx p c).running = none → exec (.contextResident p c) s = .next s ∧ exec (.switchRestore p c) s = .next s) ∧
    (s.mayEnter p c = false → exec (.contextResident p c) s = .next s) ∧
    (∀ q r, (s.ctx p c).running = some (q, r) → s.mayEnter p c = true →
      ((s.ctx p c).saved = true → ∃ t, exec (.contextResident p c) s = .next t ∧ (t.ctx p c).resident = true ∧
        (t.ctx p c).residentVd = s.vdOf p c ∧ (t.ctx p c).switching = 2 ∧ c.val ∉ (t.part p).runnable) ∧
      ((s.ctx p c).saved = false →
        let u := s.updPart p (fun x => { x with runnable := dropAll x.runnable c, incoming := dropAll x.incoming c })
        (s.entersReshaped p c r = false → exec (.contextResident p c) s = .next ((u.loadImage p c q r).freezeIn p c)) ∧
        (s.entersReshaped p c r = true → exec (.contextResident p c) s = .next (u.reshape p c q r)))) ∧
    ((s.ctx p c).resident = true → (s.part p).runs = true → (s.part p).holds c = false → (s.ctx p c).frozen = false →
      (s.oldestNeeds p c = true → s.maySwitch p c = true → ∃ t, exec (.sliceEnd p c) s = .next t ∧ (t.ctx p c).switching = 1 ∧
        (t.ctx p c).frozen = true ∧ (t.ctx p c).resident = true ∧ ∃ o, (s.part p).runnable.head? = some o ∧ o ∈ (t.part p).incoming) ∧
      (s.oldestNeeds p c = false → exec (.sliceEnd p c) s =
        .next (s.updCtx p c (fun x => { x with sliceFrom := s.ticks, sliceOver := false })))) ∧
    ((s.ctx p c).resident = true → (s.part p).runs = true → (s.part p).holds c = true →
      exec (.sliceEnd p c) s = .next (s.updCtx p c (fun x => { x with sliceOver := true }))) ∧
    (((s.ctx p c).resident = false ∨ (s.part p).runs = false ∨ (s.part p).holds c = false ∧ (s.ctx p c).frozen = true) →
      exec (.sliceEnd p c) s = .next s) ∧
    (∀ q r base u bs v, (s.ctx p c).running = some (q, r) → s.saveObject p c = some base → (s.ctx p c).resident = true →
      (s.ctx p c).switching = 1 → s.freezeDone p c = true → (s.ctx p c).faulted = none → saveArea s p c r = (u, bs) →
      u.agentWrite p c (plaAddr base) bs false = (v, .ok ()) →
      let a := s.batchPost p c false
      let cls := a.runClusters p c
      ∃ t, exec (.contextSwitch p c) s = .next t ∧ t = v.savedOut p c cls (a.takeWrites cls) ∧
        (t.ctx p c).savedCls = cls.map (fun i => { v.cl i with landedNow := [], fencesNow := [], readNow := false }) ∧ (t.ctx p c).savedWrites = a.takeWrites cls ∧
        (t.ctx p c).resident = false ∧ (t.ctx p c).residentVd = [] ∧ (t.ctx p c).saved = true ∧ (t.ctx p c).switching = 0 ∧
        ∀ i ∈ s.runClusters p c, (t.cl i).ctx = none) ∧
    (∀ q r u h v bs cs ws,
      let x := s.ctx p c
      let base := fieldAt (s.memRec p c) 0 8 % 2 ^ 44
      x.running = some (q, r) → x.resident = true → x.switching = 2 → x.faulted = none → s.agentRead p c (plaAddr base) 0x1000 = (u, .ok (h, false)) →
      fieldAt h 0 4 = 1 → fieldAt h 4 2 = c.val → fieldAt h 8 1 = r.typ → fieldAt h 6 2 = x.residentVd.length →
      x.savedCls.length = x.residentVd.length → u.agentRead p c (plaAddr base) (saveLen x.savedCls.length) = (v, .ok (bs, false)) →
      restoreRecords x.savedCls x.savedWrites bs = some (cs, ws) → ∃ t, exec (.switchRestore p c) s = .next t ∧
        t = v.restored p c q r cs ws ∧ (t.ctx p c).switching = 0 ∧ (t.ctx p c).resident = true ∧
        ((s.part p).runs = true → (s.part p).holds c = false → (t.ctx p c).frozen = false))) ∧
  (∀ (s : State) (d : Fin 5) (entry : Nat) (tag : Byte) (part : Fin 64) (gen : BitVec 16),
    let old := tabGet 0 (s.tracker d).tags entry % 256 ≠ tag.toNat ∨ (s.part part).generation ≠ gen.toNat ∨
      s.recov.domains.any (fun r => decide (r.step ≠ 1) && domIsDie r.dom d) = true
    (old → ∃ t, exec (.fabricCompletion d entry tag part gen) s = .next t ∧
      tabGet 0 t.recov.stitches d = min (tabGet 0 s.recov.stitches d + 1) (2 ^ 64 - 1) ∧ { t with recov := s.recov } = s) ∧
    (¬ old → exec (.fabricCompletion d entry tag part gen) s = .next s))

/-- R9, R36, R281, R345, R346, R405, R410, R486, R490, R497, R500, R519, R539: the values the manual gives for reset. No command waits, no
channel runs one, LAST_RING and the counters read 0, every partition is ABSENT at GENERATION 0, no queue of a port is enabled, the claim
registers read SPURIOUS, no cap is set, the watchdog period is 50 ms, dumps and sessions count from 1, and FREQ_MODE is normal. The form of
memories that every step keeps, which is the model's own, holds at reset. -/
def Obligations.ResetValues : Prop :=
  let s := State.reset
  s.pending = [] ∧ s.ticks = 0 ∧ s.hubOrder = [] ∧ s.prs.lock = false ∧ s.recov.domains = [] ∧ s.recov.watchdogMs = 50 ∧
  s.recov.nextDump = 1 ∧ s.fw.nextSession = 1 ∧ s.sessions = [] ∧ s.power.bcCap = 0 ∧ s.power.pmCap = 0 ∧ s.power.freqMode = 1 ∧
  s.irq.lastClaim = 0xFFFFFFFF ∧ s.irq.pending = [] ∧
  (∀ n, n < 64 → tabGet 0 s.irq.cfg n = if n ∈ [7, 8, 9, 10] then 16 else 0) ∧
  (∀ ch, ch < 5 → (s.admch ch).running = false ∧ (s.admch ch).replyValid = false ∧ (s.admch ch).lastRing = 0 ∧
    (s.admch ch).replyStatus = 0xFF ∧ (s.admch ch).accepted = 0 ∧ (s.admch ch).droppedBusy = 0 ∧ (s.admch ch).droppedForm = 0) ∧
  (∀ p, p < 64 → (s.part p).pstate = .absent ∧ (s.part p).generation = 0) ∧
  (∀ h, h < 4 → (s.port h).peqEnable = false ∧ (s.port h).peqProducer = 0 ∧ (s.port h).peqConsumer = 0 ∧ (s.port h).hdmBase = none) ∧
  (∀ i, i < 65536 → (s.slot i).live = false) ∧ s.memOk = true
end

