-- ==== Sys2Proof/Laws/Containers.lean ====
section
/-! SUPPORT. The laws of the two sparse containers: reading after a write of a table and of a memory, and the canonical form that
every memory operation keeps. -/

namespace Sys2Proof.Machine

variable {α : Type}

-- tables

theorem tabGet_tabSet_same (d : α) (t : Tab α) (i : Nat) (x : α) : tabGet d (tabSet t i x) i = x := by
  induction t with
  | nil => simp [tabSet, tabGet]
  | cons e t ih =>
    obtain ⟨k, v⟩ := e
    simp only [tabSet]
    split
    · simp [tabGet]
    · split
      · simp [tabGet]
      · rename_i h1 h2
        have h3 : ¬ k = i := fun h => h1 h.symm
        simp [tabGet, h3, h2, ih]

theorem tabGet_tabSet_other (d : α) (t : Tab α) (i j : Nat) (x : α) (h : j ≠ i) :
    tabGet d (tabSet t i x) j = tabGet d t j := by
  have hi : ¬ i = j := fun e => h e.symm
  induction t with
  | nil =>
    simp only [tabSet, tabGet, if_neg hi]
    split <;> rfl
  | cons e t ih =>
    obtain ⟨k, v⟩ := e
    simp only [tabSet]
    split
    · rename_i h1
      subst h1
      simp [tabGet, hi]
    · rename_i h1
      split
      · rename_i h2
        simp only [tabGet, if_neg hi]
        split
        · rename_i h3
          rw [if_neg (by omega), if_pos (by omega)]
        · rfl
      · simp only [tabGet, ih]

theorem tabGet_tabSet (d : α) (t : Tab α) (i j : Nat) (x : α) :
    tabGet d (tabSet t i x) j = if j = i then x else tabGet d t j := by
  split
  · rename_i h; subst h; exact tabGet_tabSet_same d t j x
  · rename_i h; exact tabGet_tabSet_other d t i j x h

/-- Setting a listed entry to the value it has changes nothing. -/
theorem tabSet_self (d : α) (t : Tab α) (i : Nat) (h : tabGet d t i ≠ d) : tabSet t i (tabGet d t i) = t := by
  induction t with
  | nil => exact absurd rfl h
  | cons e t ih =>
    obtain ⟨k, v⟩ := e
    by_cases h1 : k = i
    · subst h1; simp [tabSet, tabGet]
    · by_cases h2 : i < k
      · simp [tabGet, h1, h2] at h
      · have h3 : ¬ i = k := fun e => h1 e.symm
        simp only [tabGet, if_neg h1, if_neg h2] at h ⊢
        simp [tabSet, h3, h2, ih h]

/-- The last of two settings of an entry stands. -/
theorem tabSet_tabSet (t : Tab α) (i : Nat) (x y : α) : tabSet (tabSet t i x) i y = tabSet t i y := by
  induction t with
  | nil => simp [tabSet]
  | cons e t ih =>
    obtain ⟨k, v⟩ := e
    simp only [tabSet]
    split
    · simp [tabSet]
    · split
      · simp [tabSet]
      · rename_i h1 h2
        simp [tabSet, h1, h2, ih]

/-- Reading a table whose entries were all changed in the same way. -/
theorem tabGet_map {β : Type} (d : α) (e : β) (f : α → β) (t : Tab α) (i : Nat) (hd : f d = e) :
    tabGet e (t.map (fun x => (x.1, f x.2))) i = f (tabGet d t i) := by
  induction t with
  | nil => simp [tabGet, hd]
  | cons x t ih =>
    obtain ⟨k, v⟩ := x
    simp only [List.map, tabGet]
    split
    · rfl
    · split
      · exact hd.symm
      · exact ih

-- memories

theorem memWfFrom_weaken {lo hi : Nat} {m : Mem} (h : memWfFrom hi m = true) (hl : lo ≤ hi) : memWfFrom lo m = true := by
  cases m with
  | nil => rfl
  | cons e t =>
    obtain ⟨k, v⟩ := e
    simp only [memWfFrom, Bool.and_eq_true, decide_eq_true_eq] at h ⊢
    exact ⟨⟨by omega, h.1.2⟩, h.2⟩

/-- Below its first key a memory lists nothing. -/
theorem memGet_below {lo a : Nat} {m : Mem} (h : memWfFrom lo m = true) (ha : a < lo) : memGet m a = memDefault := by
  cases m with
  | nil => rfl
  | cons e t =>
    obtain ⟨k, v⟩ := e
    simp only [memWfFrom, Bool.and_eq_true, decide_eq_true_eq] at h
    simp [memGet, show ¬ k = a by omega, show a < k by omega]

theorem memSet_wfFrom {lo : Nat} {m : Mem} (h : memWfFrom lo m = true) {a : Nat} (ha : lo ≤ a) (b : Byte) :
    memWfFrom lo (memSet m a b) = true := by
  induction m generalizing lo with
  | nil =>
    simp only [memSet]
    split
    · rfl
    · rename_i hb; simp [memWfFrom, ha, hb]
  | cons e t ih =>
    obtain ⟨k, v⟩ := e
    simp only [memWfFrom, Bool.and_eq_true, decide_eq_true_eq] at h
    obtain ⟨⟨h1, h2⟩, h3⟩ := h
    simp only [memSet]
    split
    · rename_i hk; subst hk
      split
      · exact memWfFrom_weaken h3 (by omega)
      · rename_i hb; simp [memWfFrom, ha, hb, h3]
    · split
      · split
        · simp [memWfFrom, h1, h2, h3]
        · rename_i hb
          simp [memWfFrom, ha, hb, h2, h3]; omega
      · simp only [memWfFrom, Bool.and_eq_true, decide_eq_true_eq]
        exact ⟨⟨h1, h2⟩, ih h3 (by omega)⟩

/-- Writing a byte keeps the canonical form. -/
theorem memSet_wf {m : Mem} (h : Mem.wf m = true) (a : Nat) (b : Byte) : Mem.wf (memSet m a b) = true :=
  memSet_wfFrom h (Nat.zero_le a) b

/-- Writing a byte string keeps the canonical form. -/
theorem memWrite_wf {m : Mem} (h : Mem.wf m = true) (a : Nat) (bs : List Byte) : Mem.wf (memWrite m a bs) = true := by
  induction bs generalizing m a with
  | nil => exact h
  | cons b bs ih => exact ih (memSet_wf h a b) (a + 1)

theorem filter_wfFrom {lo : Nat} {m : Mem} (h : memWfFrom lo m = true) (p : Host.Cell → Bool) :
    memWfFrom lo (m.filter p) = true := by
  induction m generalizing lo with
  | nil => rfl
  | cons e t ih =>
    obtain ⟨k, v⟩ := e
    simp only [memWfFrom, Bool.and_eq_true, decide_eq_true_eq] at h
    simp only [List.filter]
    split
    · simp [memWfFrom, h.1.1, h.1.2, ih h.2]
    · exact memWfFrom_weaken (ih h.2) (by omega)

/-- Dropping entries keeps the canonical form. -/
theorem filter_wf {m : Mem} (h : Mem.wf m = true) (p : Host.Cell → Bool) : Mem.wf (m.filter p) = true := filter_wfFrom h p

/-- Whatever list of cells it is made of, a memory written cell by cell is canonical. -/
theorem memCanon_wf (m : Mem) : Mem.wf (memCanon m) = true := by
  have h : ∀ (m a : Mem), Mem.wf a = true → Mem.wf (m.foldl (fun a c => memSet a c.1 c.2) a) = true := by
    intro m
    induction m with
    | nil => exact fun _ h => h
    | cons c t ih => exact fun a h => ih _ (memSet_wf h c.1 c.2)
  exact h m [] rfl

/-- Zeroing a range keeps the canonical form. -/
theorem memZero_wf {m : Mem} (h : Mem.wf m = true) (a n : Nat) : Mem.wf (memZero m a n) = true := filter_wf h _

theorem memGet_memSet_from {lo : Nat} {m : Mem} (h : memWfFrom lo m = true) (a j : Nat) (b : Byte) :
    memGet (memSet m a b) j = if j = a then b else memGet m j := by
  induction m generalizing lo with
  | nil =>
    simp only [memSet]
    by_cases hb : b = memDefault
    · simp only [if_pos hb, memGet]; split <;> simp [hb]
    · simp only [if_neg hb, memGet]
      by_cases hj : j = a
      · simp [hj]
      · rw [if_neg (fun e => hj e.symm), if_neg hj]; split <;> rfl
  | cons e t ih =>
    obtain ⟨k, v⟩ := e
    simp only [memWfFrom, Bool.and_eq_true, decide_eq_true_eq] at h
    obtain ⟨⟨h1, h2⟩, h3⟩ := h
    simp only [memSet]
    by_cases hk : a = k
    · subst hk
      by_cases hb : b = memDefault
      · simp only [if_pos hb, if_true]
        by_cases hj : j = a
        · subst hj; rw [memGet_below h3 (by omega)]; simp [hb]
        · rw [if_neg hj, memGet, if_neg (fun e => hj e.symm)]
          by_cases hl : j < a
          · rw [if_pos hl, memGet_below h3 (by omega)]
          · rw [if_neg hl]
      · simp only [if_neg hb, if_true, memGet]
        by_cases hj : j = a
        · simp [hj]
        · have hja : ¬ a = j := fun e => hj e.symm
          simp [hj, hja]
    · simp only [if_neg hk]
      by_cases hl : a < k
      · simp only [if_pos hl]
        by_cases hb : b = memDefault
        · simp only [if_pos hb]
          by_cases hj : j = a
          · subst hj; simp [memGet, hl, hb, show ¬ k = j by omega]
          · rw [if_neg hj]
        · simp only [if_neg hb]
          by_cases hj : j = a
          · subst hj; simp [memGet]
          · rw [if_neg hj, memGet, if_neg (fun e => hj e.symm)]
            by_cases hja : j < a
            · rw [if_pos hja]; simp [memGet, show ¬ k = j by omega, show j < k by omega]
            · rw [if_neg hja]
      · simp only [if_neg hl, memGet]
        by_cases hkj : k = j
        · subst hkj; rw [if_pos rfl, if_neg (fun e => hk e.symm), if_pos rfl]
        · rw [if_neg hkj, if_neg hkj]
          by_cases hjk : j < k
          · rw [if_pos hjk, if_pos hjk, if_neg (by omega)]
          · rw [if_neg hjk, if_neg hjk]; exact ih h3

/-- Reading after a write of one byte. -/
theorem memGet_memSet {m : Mem} (h : Mem.wf m = true) (a j : Nat) (b : Byte) :
    memGet (memSet m a b) j = if j = a then b else memGet m j := memGet_memSet_from h a j b

/-- A write leaves every byte outside its range alone. -/
theorem memGet_memWrite_outside {m : Mem} (h : Mem.wf m = true) (a j : Nat) (bs : List Byte)
    (hj : j < a ∨ a + bs.length ≤ j) : memGet (memWrite m a bs) j = memGet m j := by
  induction bs generalizing m a with
  | nil => rfl
  | cons b bs ih =>
    simp only [List.length_cons] at hj
    rw [memWrite, ih (memSet_wf h a b) (a + 1) (by omega), memGet_memSet h, if_neg (by omega)]

/-- Reading back what was written. -/
theorem memRead_memWrite {m : Mem} (h : Mem.wf m = true) (a : Nat) (bs : List Byte) :
    memRead (memWrite m a bs) a bs.length = bs := by
  induction bs generalizing m a with
  | nil => rfl
  | cons b bs ih =>
    simp only [List.length_cons, memRead, memWrite]
    rw [ih (memSet_wf h a b) (a + 1), memGet_memWrite_outside (memSet_wf h a b) (a + 1) a bs (by omega), memGet_memSet h]
    simp

end Sys2Proof.Machine
end

