-- ==== Sys2Proof/Laws/State.lean ====
section
/-! SUPPORT. What each named update of the state leaves and what it changes, field by field, and the unit it reads back. -/

namespace Sys2Proof.Machine

-- State.setCl

@[simp] theorem State.setCl_pending (s : State) (i : Nat) (c : ClusterSt) : (s.setCl i c).pending = s.pending := rfl
@[simp] theorem State.setCl_ticks (s : State) (i : Nat) (c : ClusterSt) : (s.setCl i c).ticks = s.ticks := rfl
@[simp] theorem State.setCl_freeCtr (s : State) (i : Nat) (c : ClusterSt) : (s.setCl i c).freeCtr = s.freeCtr := rfl
@[simp] theorem State.setCl_phase (s : State) (i : Nat) (c : ClusterSt) : (s.setCl i c).phase = s.phase := rfl
@[simp] theorem State.setCl_boot (s : State) (i : Nat) (c : ClusterSt) : (s.setCl i c).boot = s.boot := rfl
@[simp] theorem State.setCl_faultHold (s : State) (i : Nat) (c : ClusterSt) : (s.setCl i c).faultHold = s.faultHold := rfl
@[simp] theorem State.setCl_railFailed (s : State) (i : Nat) (c : ClusterSt) : (s.setCl i c).railFailed = s.railFailed := rfl
@[simp] theorem State.setCl_pins (s : State) (i : Nat) (c : ClusterSt) : (s.setCl i c).pins = s.pins := rfl
@[simp] theorem State.setCl_fuses (s : State) (i : Nat) (c : ClusterSt) : (s.setCl i c).fuses = s.fuses := rfl
@[simp] theorem State.setCl_prs (s : State) (i : Nat) (c : ClusterSt) : (s.setCl i c).prs = s.prs := rfl
@[simp] theorem State.setCl_pool (s : State) (i : Nat) (c : ClusterSt) : (s.setCl i c).pool = s.pool := rfl
@[simp] theorem State.setCl_clusters (s : State) (i : Nat) (c : ClusterSt) : (s.setCl i c).clusters = tabSet s.clusters i c := rfl
@[simp] theorem State.setCl_channels (s : State) (i : Nat) (c : ClusterSt) : (s.setCl i c).channels = s.channels := rfl
@[simp] theorem State.setCl_ports (s : State) (i : Nat) (c : ClusterSt) : (s.setCl i c).ports = s.ports := rfl
@[simp] theorem State.setCl_adm (s : State) (i : Nat) (c : ClusterSt) : (s.setCl i c).adm = s.adm := rfl
@[simp] theorem State.setCl_hubOrder (s : State) (i : Nat) (c : ClusterSt) : (s.setCl i c).hubOrder = s.hubOrder := rfl
@[simp] theorem State.setCl_parts (s : State) (i : Nat) (c : ClusterSt) : (s.setCl i c).parts = s.parts := rfl
@[simp] theorem State.setCl_kv (s : State) (i : Nat) (c : ClusterSt) : (s.setCl i c).kv = s.kv := rfl
@[simp] theorem State.setCl_writes (s : State) (i : Nat) (c : ClusterSt) : (s.setCl i c).writes = s.writes := rfl
@[simp] theorem State.setCl_counts (s : State) (i : Nat) (c : ClusterSt) : (s.setCl i c).counts = s.counts := rfl
@[simp] theorem State.setCl_nextWrite (s : State) (i : Nat) (c : ClusterSt) : (s.setCl i c).nextWrite = s.nextWrite := rfl
@[simp] theorem State.setCl_walkers (s : State) (i : Nat) (c : ClusterSt) : (s.setCl i c).walkers = s.walkers := rfl
@[simp] theorem State.setCl_trackers (s : State) (i : Nat) (c : ClusterSt) : (s.setCl i c).trackers = s.trackers := rfl
@[simp] theorem State.setCl_regulators (s : State) (i : Nat) (c : ClusterSt) : (s.setCl i c).regulators = s.regulators := rfl
@[simp] theorem State.setCl_recov (s : State) (i : Nat) (c : ClusterSt) : (s.setCl i c).recov = s.recov := rfl
@[simp] theorem State.setCl_fw (s : State) (i : Nat) (c : ClusterSt) : (s.setCl i c).fw = s.fw := rfl
@[simp] theorem State.setCl_sessions (s : State) (i : Nat) (c : ClusterSt) : (s.setCl i c).sessions = s.sessions := rfl
@[simp] theorem State.setCl_irq (s : State) (i : Nat) (c : ClusterSt) : (s.setCl i c).irq = s.irq := rfl
@[simp] theorem State.setCl_log (s : State) (i : Nat) (c : ClusterSt) : (s.setCl i c).log = s.log := rfl
@[simp] theorem State.setCl_sensors (s : State) (i : Nat) (c : ClusterSt) : (s.setCl i c).sensors = s.sensors := rfl
@[simp] theorem State.setCl_power (s : State) (i : Nat) (c : ClusterSt) : (s.setCl i c).power = s.power := rfl
@[simp] theorem State.setCl_bc (s : State) (i : Nat) (c : ClusterSt) : (s.setCl i c).bc = s.bc := rfl
@[simp] theorem State.setCl_msix (s : State) (i : Nat) (c : ClusterSt) : (s.setCl i c).msix = s.msix := rfl
@[simp] theorem State.setCl_msi (s : State) (i : Nat) (c : ClusterSt) : (s.setCl i c).msi = s.msi := rfl
@[simp] theorem State.setCl_mgtWatch (s : State) (i : Nat) (c : ClusterSt) : (s.setCl i c).mgtWatch = s.mgtWatch := rfl
@[simp] theorem State.setCl_mgtRefused (s : State) (i : Nat) (c : ClusterSt) : (s.setCl i c).mgtRefused = s.mgtRefused := rfl
@[simp] theorem State.setCl_mgtSram (s : State) (i : Nat) (c : ClusterSt) : (s.setCl i c).mgtSram = s.mgtSram := rfl
@[simp] theorem State.setCl_mgtCores (s : State) (i : Nat) (c : ClusterSt) : (s.setCl i c).mgtCores = s.mgtCores := rfl
@[simp] theorem State.setCl_mgtData (s : State) (i : Nat) (c : ClusterSt) : (s.setCl i c).mgtData = s.mgtData := rfl
@[simp] theorem State.setCl_jtagServed (s : State) (i : Nat) (c : ClusterSt) : (s.setCl i c).jtagServed = s.jtagServed := rfl

-- State.updCl

@[simp] theorem State.updCl_pending (s : State) (i : Nat) (f : ClusterSt → ClusterSt) : (s.updCl i f).pending = s.pending := rfl
@[simp] theorem State.updCl_ticks (s : State) (i : Nat) (f : ClusterSt → ClusterSt) : (s.updCl i f).ticks = s.ticks := rfl
@[simp] theorem State.updCl_freeCtr (s : State) (i : Nat) (f : ClusterSt → ClusterSt) : (s.updCl i f).freeCtr = s.freeCtr := rfl
@[simp] theorem State.updCl_phase (s : State) (i : Nat) (f : ClusterSt → ClusterSt) : (s.updCl i f).phase = s.phase := rfl
@[simp] theorem State.updCl_boot (s : State) (i : Nat) (f : ClusterSt → ClusterSt) : (s.updCl i f).boot = s.boot := rfl
@[simp] theorem State.updCl_faultHold (s : State) (i : Nat) (f : ClusterSt → ClusterSt) : (s.updCl i f).faultHold = s.faultHold := rfl
@[simp] theorem State.updCl_railFailed (s : State) (i : Nat) (f : ClusterSt → ClusterSt) : (s.updCl i f).railFailed = s.railFailed := rfl
@[simp] theorem State.updCl_pins (s : State) (i : Nat) (f : ClusterSt → ClusterSt) : (s.updCl i f).pins = s.pins := rfl
@[simp] theorem State.updCl_fuses (s : State) (i : Nat) (f : ClusterSt → ClusterSt) : (s.updCl i f).fuses = s.fuses := rfl
@[simp] theorem State.updCl_prs (s : State) (i : Nat) (f : ClusterSt → ClusterSt) : (s.updCl i f).prs = s.prs := rfl
@[simp] theorem State.updCl_pool (s : State) (i : Nat) (f : ClusterSt → ClusterSt) : (s.updCl i f).pool = s.pool := rfl
@[simp] theorem State.updCl_clusters (s : State) (i : Nat) (f : ClusterSt → ClusterSt) : (s.updCl i f).clusters = tabSet s.clusters i (f (s.cl i)) := rfl
@[simp] theorem State.updCl_channels (s : State) (i : Nat) (f : ClusterSt → ClusterSt) : (s.updCl i f).channels = s.channels := rfl
@[simp] theorem State.updCl_ports (s : State) (i : Nat) (f : ClusterSt → ClusterSt) : (s.updCl i f).ports = s.ports := rfl
@[simp] theorem State.updCl_adm (s : State) (i : Nat) (f : ClusterSt → ClusterSt) : (s.updCl i f).adm = s.adm := rfl
@[simp] theorem State.updCl_hubOrder (s : State) (i : Nat) (f : ClusterSt → ClusterSt) : (s.updCl i f).hubOrder = s.hubOrder := rfl
@[simp] theorem State.updCl_parts (s : State) (i : Nat) (f : ClusterSt → ClusterSt) : (s.updCl i f).parts = s.parts := rfl
@[simp] theorem State.updCl_kv (s : State) (i : Nat) (f : ClusterSt → ClusterSt) : (s.updCl i f).kv = s.kv := rfl
@[simp] theorem State.updCl_writes (s : State) (i : Nat) (f : ClusterSt → ClusterSt) : (s.updCl i f).writes = s.writes := rfl
@[simp] theorem State.updCl_counts (s : State) (i : Nat) (f : ClusterSt → ClusterSt) : (s.updCl i f).counts = s.counts := rfl
@[simp] theorem State.updCl_nextWrite (s : State) (i : Nat) (f : ClusterSt → ClusterSt) : (s.updCl i f).nextWrite = s.nextWrite := rfl
@[simp] theorem State.updCl_walkers (s : State) (i : Nat) (f : ClusterSt → ClusterSt) : (s.updCl i f).walkers = s.walkers := rfl
@[simp] theorem State.updCl_trackers (s : State) (i : Nat) (f : ClusterSt → ClusterSt) : (s.updCl i f).trackers = s.trackers := rfl
@[simp] theorem State.updCl_regulators (s : State) (i : Nat) (f : ClusterSt → ClusterSt) : (s.updCl i f).regulators = s.regulators := rfl
@[simp] theorem State.updCl_recov (s : State) (i : Nat) (f : ClusterSt → ClusterSt) : (s.updCl i f).recov = s.recov := rfl
@[simp] theorem State.updCl_fw (s : State) (i : Nat) (f : ClusterSt → ClusterSt) : (s.updCl i f).fw = s.fw := rfl
@[simp] theorem State.updCl_sessions (s : State) (i : Nat) (f : ClusterSt → ClusterSt) : (s.updCl i f).sessions = s.sessions := rfl
@[simp] theorem State.updCl_irq (s : State) (i : Nat) (f : ClusterSt → ClusterSt) : (s.updCl i f).irq = s.irq := rfl
@[simp] theorem State.updCl_log (s : State) (i : Nat) (f : ClusterSt → ClusterSt) : (s.updCl i f).log = s.log := rfl
@[simp] theorem State.updCl_sensors (s : State) (i : Nat) (f : ClusterSt → ClusterSt) : (s.updCl i f).sensors = s.sensors := rfl
@[simp] theorem State.updCl_power (s : State) (i : Nat) (f : ClusterSt → ClusterSt) : (s.updCl i f).power = s.power := rfl
@[simp] theorem State.updCl_bc (s : State) (i : Nat) (f : ClusterSt → ClusterSt) : (s.updCl i f).bc = s.bc := rfl
@[simp] theorem State.updCl_msix (s : State) (i : Nat) (f : ClusterSt → ClusterSt) : (s.updCl i f).msix = s.msix := rfl
@[simp] theorem State.updCl_msi (s : State) (i : Nat) (f : ClusterSt → ClusterSt) : (s.updCl i f).msi = s.msi := rfl
@[simp] theorem State.updCl_mgtWatch (s : State) (i : Nat) (f : ClusterSt → ClusterSt) : (s.updCl i f).mgtWatch = s.mgtWatch := rfl
@[simp] theorem State.updCl_mgtRefused (s : State) (i : Nat) (f : ClusterSt → ClusterSt) : (s.updCl i f).mgtRefused = s.mgtRefused := rfl
@[simp] theorem State.updCl_mgtSram (s : State) (i : Nat) (f : ClusterSt → ClusterSt) : (s.updCl i f).mgtSram = s.mgtSram := rfl
@[simp] theorem State.updCl_mgtCores (s : State) (i : Nat) (f : ClusterSt → ClusterSt) : (s.updCl i f).mgtCores = s.mgtCores := rfl
@[simp] theorem State.updCl_mgtData (s : State) (i : Nat) (f : ClusterSt → ClusterSt) : (s.updCl i f).mgtData = s.mgtData := rfl
@[simp] theorem State.updCl_jtagServed (s : State) (i : Nat) (f : ClusterSt → ClusterSt) : (s.updCl i f).jtagServed = s.jtagServed := rfl

-- State.updCore

@[simp] theorem State.updCore_pending (s : State) (k : CoreId) (f : CoreSt → CoreSt) : (s.updCore k f).pending = s.pending := rfl
@[simp] theorem State.updCore_ticks (s : State) (k : CoreId) (f : CoreSt → CoreSt) : (s.updCore k f).ticks = s.ticks := rfl
@[simp] theorem State.updCore_freeCtr (s : State) (k : CoreId) (f : CoreSt → CoreSt) : (s.updCore k f).freeCtr = s.freeCtr := rfl
@[simp] theorem State.updCore_phase (s : State) (k : CoreId) (f : CoreSt → CoreSt) : (s.updCore k f).phase = s.phase := rfl
@[simp] theorem State.updCore_boot (s : State) (k : CoreId) (f : CoreSt → CoreSt) : (s.updCore k f).boot = s.boot := rfl
@[simp] theorem State.updCore_faultHold (s : State) (k : CoreId) (f : CoreSt → CoreSt) : (s.updCore k f).faultHold = s.faultHold := rfl
@[simp] theorem State.updCore_railFailed (s : State) (k : CoreId) (f : CoreSt → CoreSt) : (s.updCore k f).railFailed = s.railFailed := rfl
@[simp] theorem State.updCore_pins (s : State) (k : CoreId) (f : CoreSt → CoreSt) : (s.updCore k f).pins = s.pins := rfl
@[simp] theorem State.updCore_fuses (s : State) (k : CoreId) (f : CoreSt → CoreSt) : (s.updCore k f).fuses = s.fuses := rfl
@[simp] theorem State.updCore_prs (s : State) (k : CoreId) (f : CoreSt → CoreSt) : (s.updCore k f).prs = s.prs := rfl
@[simp] theorem State.updCore_pool (s : State) (k : CoreId) (f : CoreSt → CoreSt) : (s.updCore k f).pool = s.pool := rfl
@[simp] theorem State.updCore_clusters (s : State) (k : CoreId) (f : CoreSt → CoreSt) : (s.updCore k f).clusters = tabSet s.clusters k.cl ((s.cl k.cl).updCo k.core f) := rfl
@[simp] theorem State.updCore_channels (s : State) (k : CoreId) (f : CoreSt → CoreSt) : (s.updCore k f).channels = s.channels := rfl
@[simp] theorem State.updCore_ports (s : State) (k : CoreId) (f : CoreSt → CoreSt) : (s.updCore k f).ports = s.ports := rfl
@[simp] theorem State.updCore_adm (s : State) (k : CoreId) (f : CoreSt → CoreSt) : (s.updCore k f).adm = s.adm := rfl
@[simp] theorem State.updCore_hubOrder (s : State) (k : CoreId) (f : CoreSt → CoreSt) : (s.updCore k f).hubOrder = s.hubOrder := rfl
@[simp] theorem State.updCore_parts (s : State) (k : CoreId) (f : CoreSt → CoreSt) : (s.updCore k f).parts = s.parts := rfl
@[simp] theorem State.updCore_kv (s : State) (k : CoreId) (f : CoreSt → CoreSt) : (s.updCore k f).kv = s.kv := rfl
@[simp] theorem State.updCore_writes (s : State) (k : CoreId) (f : CoreSt → CoreSt) : (s.updCore k f).writes = s.writes := rfl
@[simp] theorem State.updCore_counts (s : State) (k : CoreId) (f : CoreSt → CoreSt) : (s.updCore k f).counts = s.counts := rfl
@[simp] theorem State.updCore_nextWrite (s : State) (k : CoreId) (f : CoreSt → CoreSt) : (s.updCore k f).nextWrite = s.nextWrite := rfl
@[simp] theorem State.updCore_walkers (s : State) (k : CoreId) (f : CoreSt → CoreSt) : (s.updCore k f).walkers = s.walkers := rfl
@[simp] theorem State.updCore_trackers (s : State) (k : CoreId) (f : CoreSt → CoreSt) : (s.updCore k f).trackers = s.trackers := rfl
@[simp] theorem State.updCore_regulators (s : State) (k : CoreId) (f : CoreSt → CoreSt) : (s.updCore k f).regulators = s.regulators := rfl
@[simp] theorem State.updCore_recov (s : State) (k : CoreId) (f : CoreSt → CoreSt) : (s.updCore k f).recov = s.recov := rfl
@[simp] theorem State.updCore_fw (s : State) (k : CoreId) (f : CoreSt → CoreSt) : (s.updCore k f).fw = s.fw := rfl
@[simp] theorem State.updCore_sessions (s : State) (k : CoreId) (f : CoreSt → CoreSt) : (s.updCore k f).sessions = s.sessions := rfl
@[simp] theorem State.updCore_irq (s : State) (k : CoreId) (f : CoreSt → CoreSt) : (s.updCore k f).irq = s.irq := rfl
@[simp] theorem State.updCore_log (s : State) (k : CoreId) (f : CoreSt → CoreSt) : (s.updCore k f).log = s.log := rfl
@[simp] theorem State.updCore_sensors (s : State) (k : CoreId) (f : CoreSt → CoreSt) : (s.updCore k f).sensors = s.sensors := rfl
@[simp] theorem State.updCore_power (s : State) (k : CoreId) (f : CoreSt → CoreSt) : (s.updCore k f).power = s.power := rfl
@[simp] theorem State.updCore_bc (s : State) (k : CoreId) (f : CoreSt → CoreSt) : (s.updCore k f).bc = s.bc := rfl
@[simp] theorem State.updCore_msix (s : State) (k : CoreId) (f : CoreSt → CoreSt) : (s.updCore k f).msix = s.msix := rfl
@[simp] theorem State.updCore_msi (s : State) (k : CoreId) (f : CoreSt → CoreSt) : (s.updCore k f).msi = s.msi := rfl
@[simp] theorem State.updCore_mgtWatch (s : State) (k : CoreId) (f : CoreSt → CoreSt) : (s.updCore k f).mgtWatch = s.mgtWatch := rfl
@[simp] theorem State.updCore_mgtRefused (s : State) (k : CoreId) (f : CoreSt → CoreSt) : (s.updCore k f).mgtRefused = s.mgtRefused := rfl
@[simp] theorem State.updCore_mgtSram (s : State) (k : CoreId) (f : CoreSt → CoreSt) : (s.updCore k f).mgtSram = s.mgtSram := rfl
@[simp] theorem State.updCore_mgtCores (s : State) (k : CoreId) (f : CoreSt → CoreSt) : (s.updCore k f).mgtCores = s.mgtCores := rfl
@[simp] theorem State.updCore_mgtData (s : State) (k : CoreId) (f : CoreSt → CoreSt) : (s.updCore k f).mgtData = s.mgtData := rfl
@[simp] theorem State.updCore_jtagServed (s : State) (k : CoreId) (f : CoreSt → CoreSt) : (s.updCore k f).jtagServed = s.jtagServed := rfl

-- State.updChan

@[simp] theorem State.updChan_pending (s : State) (i : Nat) (f : ChannelSt → ChannelSt) : (s.updChan i f).pending = s.pending := rfl
@[simp] theorem State.updChan_ticks (s : State) (i : Nat) (f : ChannelSt → ChannelSt) : (s.updChan i f).ticks = s.ticks := rfl
@[simp] theorem State.updChan_freeCtr (s : State) (i : Nat) (f : ChannelSt → ChannelSt) : (s.updChan i f).freeCtr = s.freeCtr := rfl
@[simp] theorem State.updChan_phase (s : State) (i : Nat) (f : ChannelSt → ChannelSt) : (s.updChan i f).phase = s.phase := rfl
@[simp] theorem State.updChan_boot (s : State) (i : Nat) (f : ChannelSt → ChannelSt) : (s.updChan i f).boot = s.boot := rfl
@[simp] theorem State.updChan_faultHold (s : State) (i : Nat) (f : ChannelSt → ChannelSt) : (s.updChan i f).faultHold = s.faultHold := rfl
@[simp] theorem State.updChan_railFailed (s : State) (i : Nat) (f : ChannelSt → ChannelSt) : (s.updChan i f).railFailed = s.railFailed := rfl
@[simp] theorem State.updChan_pins (s : State) (i : Nat) (f : ChannelSt → ChannelSt) : (s.updChan i f).pins = s.pins := rfl
@[simp] theorem State.updChan_fuses (s : State) (i : Nat) (f : ChannelSt → ChannelSt) : (s.updChan i f).fuses = s.fuses := rfl
@[simp] theorem State.updChan_prs (s : State) (i : Nat) (f : ChannelSt → ChannelSt) : (s.updChan i f).prs = s.prs := rfl
@[simp] theorem State.updChan_pool (s : State) (i : Nat) (f : ChannelSt → ChannelSt) : (s.updChan i f).pool = s.pool := rfl
@[simp] theorem State.updChan_clusters (s : State) (i : Nat) (f : ChannelSt → ChannelSt) : (s.updChan i f).clusters = s.clusters := rfl
@[simp] theorem State.updChan_channels (s : State) (i : Nat) (f : ChannelSt → ChannelSt) : (s.updChan i f).channels = tabSet s.channels i (f (s.chan i)) := rfl
@[simp] theorem State.updChan_ports (s : State) (i : Nat) (f : ChannelSt → ChannelSt) : (s.updChan i f).ports = s.ports := rfl
@[simp] theorem State.updChan_adm (s : State) (i : Nat) (f : ChannelSt → ChannelSt) : (s.updChan i f).adm = s.adm := rfl
@[simp] theorem State.updChan_hubOrder (s : State) (i : Nat) (f : ChannelSt → ChannelSt) : (s.updChan i f).hubOrder = s.hubOrder := rfl
@[simp] theorem State.updChan_parts (s : State) (i : Nat) (f : ChannelSt → ChannelSt) : (s.updChan i f).parts = s.parts := rfl
@[simp] theorem State.updChan_kv (s : State) (i : Nat) (f : ChannelSt → ChannelSt) : (s.updChan i f).kv = s.kv := rfl
@[simp] theorem State.updChan_writes (s : State) (i : Nat) (f : ChannelSt → ChannelSt) : (s.updChan i f).writes = s.writes := rfl
@[simp] theorem State.updChan_counts (s : State) (i : Nat) (f : ChannelSt → ChannelSt) : (s.updChan i f).counts = s.counts := rfl
@[simp] theorem State.updChan_nextWrite (s : State) (i : Nat) (f : ChannelSt → ChannelSt) : (s.updChan i f).nextWrite = s.nextWrite := rfl
@[simp] theorem State.updChan_walkers (s : State) (i : Nat) (f : ChannelSt → ChannelSt) : (s.updChan i f).walkers = s.walkers := rfl
@[simp] theorem State.updChan_trackers (s : State) (i : Nat) (f : ChannelSt → ChannelSt) : (s.updChan i f).trackers = s.trackers := rfl
@[simp] theorem State.updChan_regulators (s : State) (i : Nat) (f : ChannelSt → ChannelSt) : (s.updChan i f).regulators = s.regulators := rfl
@[simp] theorem State.updChan_recov (s : State) (i : Nat) (f : ChannelSt → ChannelSt) : (s.updChan i f).recov = s.recov := rfl
@[simp] theorem State.updChan_fw (s : State) (i : Nat) (f : ChannelSt → ChannelSt) : (s.updChan i f).fw = s.fw := rfl
@[simp] theorem State.updChan_sessions (s : State) (i : Nat) (f : ChannelSt → ChannelSt) : (s.updChan i f).sessions = s.sessions := rfl
@[simp] theorem State.updChan_irq (s : State) (i : Nat) (f : ChannelSt → ChannelSt) : (s.updChan i f).irq = s.irq := rfl
@[simp] theorem State.updChan_log (s : State) (i : Nat) (f : ChannelSt → ChannelSt) : (s.updChan i f).log = s.log := rfl
@[simp] theorem State.updChan_sensors (s : State) (i : Nat) (f : ChannelSt → ChannelSt) : (s.updChan i f).sensors = s.sensors := rfl
@[simp] theorem State.updChan_power (s : State) (i : Nat) (f : ChannelSt → ChannelSt) : (s.updChan i f).power = s.power := rfl
@[simp] theorem State.updChan_bc (s : State) (i : Nat) (f : ChannelSt → ChannelSt) : (s.updChan i f).bc = s.bc := rfl
@[simp] theorem State.updChan_msix (s : State) (i : Nat) (f : ChannelSt → ChannelSt) : (s.updChan i f).msix = s.msix := rfl
@[simp] theorem State.updChan_msi (s : State) (i : Nat) (f : ChannelSt → ChannelSt) : (s.updChan i f).msi = s.msi := rfl
@[simp] theorem State.updChan_mgtWatch (s : State) (i : Nat) (f : ChannelSt → ChannelSt) : (s.updChan i f).mgtWatch = s.mgtWatch := rfl
@[simp] theorem State.updChan_mgtRefused (s : State) (i : Nat) (f : ChannelSt → ChannelSt) : (s.updChan i f).mgtRefused = s.mgtRefused := rfl
@[simp] theorem State.updChan_mgtSram (s : State) (i : Nat) (f : ChannelSt → ChannelSt) : (s.updChan i f).mgtSram = s.mgtSram := rfl
@[simp] theorem State.updChan_mgtCores (s : State) (i : Nat) (f : ChannelSt → ChannelSt) : (s.updChan i f).mgtCores = s.mgtCores := rfl
@[simp] theorem State.updChan_mgtData (s : State) (i : Nat) (f : ChannelSt → ChannelSt) : (s.updChan i f).mgtData = s.mgtData := rfl
@[simp] theorem State.updChan_jtagServed (s : State) (i : Nat) (f : ChannelSt → ChannelSt) : (s.updChan i f).jtagServed = s.jtagServed := rfl

-- State.updPart

@[simp] theorem State.updPart_pending (s : State) (p : Nat) (f : PartSt → PartSt) : (s.updPart p f).pending = s.pending := rfl
@[simp] theorem State.updPart_ticks (s : State) (p : Nat) (f : PartSt → PartSt) : (s.updPart p f).ticks = s.ticks := rfl
@[simp] theorem State.updPart_freeCtr (s : State) (p : Nat) (f : PartSt → PartSt) : (s.updPart p f).freeCtr = s.freeCtr := rfl
@[simp] theorem State.updPart_phase (s : State) (p : Nat) (f : PartSt → PartSt) : (s.updPart p f).phase = s.phase := rfl
@[simp] theorem State.updPart_boot (s : State) (p : Nat) (f : PartSt → PartSt) : (s.updPart p f).boot = s.boot := rfl
@[simp] theorem State.updPart_faultHold (s : State) (p : Nat) (f : PartSt → PartSt) : (s.updPart p f).faultHold = s.faultHold := rfl
@[simp] theorem State.updPart_railFailed (s : State) (p : Nat) (f : PartSt → PartSt) : (s.updPart p f).railFailed = s.railFailed := rfl
@[simp] theorem State.updPart_pins (s : State) (p : Nat) (f : PartSt → PartSt) : (s.updPart p f).pins = s.pins := rfl
@[simp] theorem State.updPart_fuses (s : State) (p : Nat) (f : PartSt → PartSt) : (s.updPart p f).fuses = s.fuses := rfl
@[simp] theorem State.updPart_prs (s : State) (p : Nat) (f : PartSt → PartSt) : (s.updPart p f).prs = s.prs := rfl
@[simp] theorem State.updPart_pool (s : State) (p : Nat) (f : PartSt → PartSt) : (s.updPart p f).pool = s.pool := rfl
@[simp] theorem State.updPart_clusters (s : State) (p : Nat) (f : PartSt → PartSt) : (s.updPart p f).clusters = s.clusters := rfl
@[simp] theorem State.updPart_channels (s : State) (p : Nat) (f : PartSt → PartSt) : (s.updPart p f).channels = s.channels := rfl
@[simp] theorem State.updPart_ports (s : State) (p : Nat) (f : PartSt → PartSt) : (s.updPart p f).ports = s.ports := rfl
@[simp] theorem State.updPart_adm (s : State) (p : Nat) (f : PartSt → PartSt) : (s.updPart p f).adm = s.adm := rfl
@[simp] theorem State.updPart_hubOrder (s : State) (p : Nat) (f : PartSt → PartSt) : (s.updPart p f).hubOrder = s.hubOrder := rfl
@[simp] theorem State.updPart_parts (s : State) (p : Nat) (f : PartSt → PartSt) : (s.updPart p f).parts = tabSet s.parts p (f (s.part p)) := rfl
@[simp] theorem State.updPart_kv (s : State) (p : Nat) (f : PartSt → PartSt) : (s.updPart p f).kv = s.kv := rfl
@[simp] theorem State.updPart_writes (s : State) (p : Nat) (f : PartSt → PartSt) : (s.updPart p f).writes = s.writes := rfl
@[simp] theorem State.updPart_counts (s : State) (p : Nat) (f : PartSt → PartSt) : (s.updPart p f).counts = s.counts := rfl
@[simp] theorem State.updPart_nextWrite (s : State) (p : Nat) (f : PartSt → PartSt) : (s.updPart p f).nextWrite = s.nextWrite := rfl
@[simp] theorem State.updPart_walkers (s : State) (p : Nat) (f : PartSt → PartSt) : (s.updPart p f).walkers = s.walkers := rfl
@[simp] theorem State.updPart_trackers (s : State) (p : Nat) (f : PartSt → PartSt) : (s.updPart p f).trackers = s.trackers := rfl
@[simp] theorem State.updPart_regulators (s : State) (p : Nat) (f : PartSt → PartSt) : (s.updPart p f).regulators = s.regulators := rfl
@[simp] theorem State.updPart_recov (s : State) (p : Nat) (f : PartSt → PartSt) : (s.updPart p f).recov = s.recov := rfl
@[simp] theorem State.updPart_fw (s : State) (p : Nat) (f : PartSt → PartSt) : (s.updPart p f).fw = s.fw := rfl
@[simp] theorem State.updPart_sessions (s : State) (p : Nat) (f : PartSt → PartSt) : (s.updPart p f).sessions = s.sessions := rfl
@[simp] theorem State.updPart_irq (s : State) (p : Nat) (f : PartSt → PartSt) : (s.updPart p f).irq = s.irq := rfl
@[simp] theorem State.updPart_log (s : State) (p : Nat) (f : PartSt → PartSt) : (s.updPart p f).log = s.log := rfl
@[simp] theorem State.updPart_sensors (s : State) (p : Nat) (f : PartSt → PartSt) : (s.updPart p f).sensors = s.sensors := rfl
@[simp] theorem State.updPart_power (s : State) (p : Nat) (f : PartSt → PartSt) : (s.updPart p f).power = s.power := rfl
@[simp] theorem State.updPart_bc (s : State) (p : Nat) (f : PartSt → PartSt) : (s.updPart p f).bc = s.bc := rfl
@[simp] theorem State.updPart_msix (s : State) (p : Nat) (f : PartSt → PartSt) : (s.updPart p f).msix = s.msix := rfl
@[simp] theorem State.updPart_msi (s : State) (p : Nat) (f : PartSt → PartSt) : (s.updPart p f).msi = s.msi := rfl
@[simp] theorem State.updPart_mgtWatch (s : State) (p : Nat) (f : PartSt → PartSt) : (s.updPart p f).mgtWatch = s.mgtWatch := rfl
@[simp] theorem State.updPart_mgtRefused (s : State) (p : Nat) (f : PartSt → PartSt) : (s.updPart p f).mgtRefused = s.mgtRefused := rfl
@[simp] theorem State.updPart_mgtSram (s : State) (p : Nat) (f : PartSt → PartSt) : (s.updPart p f).mgtSram = s.mgtSram := rfl
@[simp] theorem State.updPart_mgtCores (s : State) (p : Nat) (f : PartSt → PartSt) : (s.updPart p f).mgtCores = s.mgtCores := rfl
@[simp] theorem State.updPart_mgtData (s : State) (p : Nat) (f : PartSt → PartSt) : (s.updPart p f).mgtData = s.mgtData := rfl
@[simp] theorem State.updPart_jtagServed (s : State) (p : Nat) (f : PartSt → PartSt) : (s.updPart p f).jtagServed = s.jtagServed := rfl

-- State.updCtx

@[simp] theorem State.updCtx_pending (s : State) (p c : Nat) (f : CtxSt → CtxSt) : (s.updCtx p c f).pending = s.pending := rfl
@[simp] theorem State.updCtx_ticks (s : State) (p c : Nat) (f : CtxSt → CtxSt) : (s.updCtx p c f).ticks = s.ticks := rfl
@[simp] theorem State.updCtx_freeCtr (s : State) (p c : Nat) (f : CtxSt → CtxSt) : (s.updCtx p c f).freeCtr = s.freeCtr := rfl
@[simp] theorem State.updCtx_phase (s : State) (p c : Nat) (f : CtxSt → CtxSt) : (s.updCtx p c f).phase = s.phase := rfl
@[simp] theorem State.updCtx_boot (s : State) (p c : Nat) (f : CtxSt → CtxSt) : (s.updCtx p c f).boot = s.boot := rfl
@[simp] theorem State.updCtx_faultHold (s : State) (p c : Nat) (f : CtxSt → CtxSt) : (s.updCtx p c f).faultHold = s.faultHold := rfl
@[simp] theorem State.updCtx_railFailed (s : State) (p c : Nat) (f : CtxSt → CtxSt) : (s.updCtx p c f).railFailed = s.railFailed := rfl
@[simp] theorem State.updCtx_pins (s : State) (p c : Nat) (f : CtxSt → CtxSt) : (s.updCtx p c f).pins = s.pins := rfl
@[simp] theorem State.updCtx_fuses (s : State) (p c : Nat) (f : CtxSt → CtxSt) : (s.updCtx p c f).fuses = s.fuses := rfl
@[simp] theorem State.updCtx_prs (s : State) (p c : Nat) (f : CtxSt → CtxSt) : (s.updCtx p c f).prs = s.prs := rfl
@[simp] theorem State.updCtx_pool (s : State) (p c : Nat) (f : CtxSt → CtxSt) : (s.updCtx p c f).pool = s.pool := rfl
@[simp] theorem State.updCtx_clusters (s : State) (p c : Nat) (f : CtxSt → CtxSt) : (s.updCtx p c f).clusters = s.clusters := rfl
@[simp] theorem State.updCtx_channels (s : State) (p c : Nat) (f : CtxSt → CtxSt) : (s.updCtx p c f).channels = s.channels := rfl
@[simp] theorem State.updCtx_ports (s : State) (p c : Nat) (f : CtxSt → CtxSt) : (s.updCtx p c f).ports = s.ports := rfl
@[simp] theorem State.updCtx_adm (s : State) (p c : Nat) (f : CtxSt → CtxSt) : (s.updCtx p c f).adm = s.adm := rfl
@[simp] theorem State.updCtx_hubOrder (s : State) (p c : Nat) (f : CtxSt → CtxSt) : (s.updCtx p c f).hubOrder = s.hubOrder := rfl
@[simp] theorem State.updCtx_parts (s : State) (p c : Nat) (f : CtxSt → CtxSt) : (s.updCtx p c f).parts = tabSet s.parts p { s.part p with ctxs := tabSet (s.part p).ctxs c (f (s.ctx p c)) } := rfl
@[simp] theorem State.updCtx_kv (s : State) (p c : Nat) (f : CtxSt → CtxSt) : (s.updCtx p c f).kv = s.kv := rfl
@[simp] theorem State.updCtx_writes (s : State) (p c : Nat) (f : CtxSt → CtxSt) : (s.updCtx p c f).writes = s.writes := rfl
@[simp] theorem State.updCtx_counts (s : State) (p c : Nat) (f : CtxSt → CtxSt) : (s.updCtx p c f).counts = s.counts := rfl
@[simp] theorem State.updCtx_nextWrite (s : State) (p c : Nat) (f : CtxSt → CtxSt) : (s.updCtx p c f).nextWrite = s.nextWrite := rfl
@[simp] theorem State.updCtx_walkers (s : State) (p c : Nat) (f : CtxSt → CtxSt) : (s.updCtx p c f).walkers = s.walkers := rfl
@[simp] theorem State.updCtx_trackers (s : State) (p c : Nat) (f : CtxSt → CtxSt) : (s.updCtx p c f).trackers = s.trackers := rfl
@[simp] theorem State.updCtx_regulators (s : State) (p c : Nat) (f : CtxSt → CtxSt) : (s.updCtx p c f).regulators = s.regulators := rfl
@[simp] theorem State.updCtx_recov (s : State) (p c : Nat) (f : CtxSt → CtxSt) : (s.updCtx p c f).recov = s.recov := rfl
@[simp] theorem State.updCtx_fw (s : State) (p c : Nat) (f : CtxSt → CtxSt) : (s.updCtx p c f).fw = s.fw := rfl
@[simp] theorem State.updCtx_sessions (s : State) (p c : Nat) (f : CtxSt → CtxSt) : (s.updCtx p c f).sessions = s.sessions := rfl
@[simp] theorem State.updCtx_irq (s : State) (p c : Nat) (f : CtxSt → CtxSt) : (s.updCtx p c f).irq = s.irq := rfl
@[simp] theorem State.updCtx_log (s : State) (p c : Nat) (f : CtxSt → CtxSt) : (s.updCtx p c f).log = s.log := rfl
@[simp] theorem State.updCtx_sensors (s : State) (p c : Nat) (f : CtxSt → CtxSt) : (s.updCtx p c f).sensors = s.sensors := rfl
@[simp] theorem State.updCtx_power (s : State) (p c : Nat) (f : CtxSt → CtxSt) : (s.updCtx p c f).power = s.power := rfl
@[simp] theorem State.updCtx_bc (s : State) (p c : Nat) (f : CtxSt → CtxSt) : (s.updCtx p c f).bc = s.bc := rfl
@[simp] theorem State.updCtx_msix (s : State) (p c : Nat) (f : CtxSt → CtxSt) : (s.updCtx p c f).msix = s.msix := rfl
@[simp] theorem State.updCtx_msi (s : State) (p c : Nat) (f : CtxSt → CtxSt) : (s.updCtx p c f).msi = s.msi := rfl
@[simp] theorem State.updCtx_mgtWatch (s : State) (p c : Nat) (f : CtxSt → CtxSt) : (s.updCtx p c f).mgtWatch = s.mgtWatch := rfl
@[simp] theorem State.updCtx_mgtRefused (s : State) (p c : Nat) (f : CtxSt → CtxSt) : (s.updCtx p c f).mgtRefused = s.mgtRefused := rfl
@[simp] theorem State.updCtx_mgtSram (s : State) (p c : Nat) (f : CtxSt → CtxSt) : (s.updCtx p c f).mgtSram = s.mgtSram := rfl
@[simp] theorem State.updCtx_mgtCores (s : State) (p c : Nat) (f : CtxSt → CtxSt) : (s.updCtx p c f).mgtCores = s.mgtCores := rfl
@[simp] theorem State.updCtx_mgtData (s : State) (p c : Nat) (f : CtxSt → CtxSt) : (s.updCtx p c f).mgtData = s.mgtData := rfl
@[simp] theorem State.updCtx_jtagServed (s : State) (p c : Nat) (f : CtxSt → CtxSt) : (s.updCtx p c f).jtagServed = s.jtagServed := rfl

-- State.updQueue

@[simp] theorem State.updQueue_pending (s : State) (p c q : Nat) (f : QueueSt → QueueSt) : (s.updQueue p c q f).pending = s.pending := rfl
@[simp] theorem State.updQueue_ticks (s : State) (p c q : Nat) (f : QueueSt → QueueSt) : (s.updQueue p c q f).ticks = s.ticks := rfl
@[simp] theorem State.updQueue_freeCtr (s : State) (p c q : Nat) (f : QueueSt → QueueSt) : (s.updQueue p c q f).freeCtr = s.freeCtr := rfl
@[simp] theorem State.updQueue_phase (s : State) (p c q : Nat) (f : QueueSt → QueueSt) : (s.updQueue p c q f).phase = s.phase := rfl
@[simp] theorem State.updQueue_boot (s : State) (p c q : Nat) (f : QueueSt → QueueSt) : (s.updQueue p c q f).boot = s.boot := rfl
@[simp] theorem State.updQueue_faultHold (s : State) (p c q : Nat) (f : QueueSt → QueueSt) : (s.updQueue p c q f).faultHold = s.faultHold := rfl
@[simp] theorem State.updQueue_railFailed (s : State) (p c q : Nat) (f : QueueSt → QueueSt) : (s.updQueue p c q f).railFailed = s.railFailed := rfl
@[simp] theorem State.updQueue_pins (s : State) (p c q : Nat) (f : QueueSt → QueueSt) : (s.updQueue p c q f).pins = s.pins := rfl
@[simp] theorem State.updQueue_fuses (s : State) (p c q : Nat) (f : QueueSt → QueueSt) : (s.updQueue p c q f).fuses = s.fuses := rfl
@[simp] theorem State.updQueue_prs (s : State) (p c q : Nat) (f : QueueSt → QueueSt) : (s.updQueue p c q f).prs = s.prs := rfl
@[simp] theorem State.updQueue_pool (s : State) (p c q : Nat) (f : QueueSt → QueueSt) : (s.updQueue p c q f).pool = s.pool := rfl
@[simp] theorem State.updQueue_clusters (s : State) (p c q : Nat) (f : QueueSt → QueueSt) : (s.updQueue p c q f).clusters = s.clusters := rfl
@[simp] theorem State.updQueue_channels (s : State) (p c q : Nat) (f : QueueSt → QueueSt) : (s.updQueue p c q f).channels = s.channels := rfl
@[simp] theorem State.updQueue_ports (s : State) (p c q : Nat) (f : QueueSt → QueueSt) : (s.updQueue p c q f).ports = s.ports := rfl
@[simp] theorem State.updQueue_adm (s : State) (p c q : Nat) (f : QueueSt → QueueSt) : (s.updQueue p c q f).adm = s.adm := rfl
@[simp] theorem State.updQueue_hubOrder (s : State) (p c q : Nat) (f : QueueSt → QueueSt) : (s.updQueue p c q f).hubOrder = s.hubOrder := rfl
@[simp] theorem State.updQueue_kv (s : State) (p c q : Nat) (f : QueueSt → QueueSt) : (s.updQueue p c q f).kv = s.kv := rfl
@[simp] theorem State.updQueue_writes (s : State) (p c q : Nat) (f : QueueSt → QueueSt) : (s.updQueue p c q f).writes = s.writes := rfl
@[simp] theorem State.updQueue_counts (s : State) (p c q : Nat) (f : QueueSt → QueueSt) : (s.updQueue p c q f).counts = s.counts := rfl
@[simp] theorem State.updQueue_nextWrite (s : State) (p c q : Nat) (f : QueueSt → QueueSt) : (s.updQueue p c q f).nextWrite = s.nextWrite := rfl
@[simp] theorem State.updQueue_walkers (s : State) (p c q : Nat) (f : QueueSt → QueueSt) : (s.updQueue p c q f).walkers = s.walkers := rfl
@[simp] theorem State.updQueue_trackers (s : State) (p c q : Nat) (f : QueueSt → QueueSt) : (s.updQueue p c q f).trackers = s.trackers := rfl
@[simp] theorem State.updQueue_regulators (s : State) (p c q : Nat) (f : QueueSt → QueueSt) : (s.updQueue p c q f).regulators = s.regulators := rfl
@[simp] theorem State.updQueue_recov (s : State) (p c q : Nat) (f : QueueSt → QueueSt) : (s.updQueue p c q f).recov = s.recov := rfl
@[simp] theorem State.updQueue_fw (s : State) (p c q : Nat) (f : QueueSt → QueueSt) : (s.updQueue p c q f).fw = s.fw := rfl
@[simp] theorem State.updQueue_sessions (s : State) (p c q : Nat) (f : QueueSt → QueueSt) : (s.updQueue p c q f).sessions = s.sessions := rfl
@[simp] theorem State.updQueue_irq (s : State) (p c q : Nat) (f : QueueSt → QueueSt) : (s.updQueue p c q f).irq = s.irq := rfl
@[simp] theorem State.updQueue_log (s : State) (p c q : Nat) (f : QueueSt → QueueSt) : (s.updQueue p c q f).log = s.log := rfl
@[simp] theorem State.updQueue_sensors (s : State) (p c q : Nat) (f : QueueSt → QueueSt) : (s.updQueue p c q f).sensors = s.sensors := rfl
@[simp] theorem State.updQueue_power (s : State) (p c q : Nat) (f : QueueSt → QueueSt) : (s.updQueue p c q f).power = s.power := rfl
@[simp] theorem State.updQueue_bc (s : State) (p c q : Nat) (f : QueueSt → QueueSt) : (s.updQueue p c q f).bc = s.bc := rfl
@[simp] theorem State.updQueue_msix (s : State) (p c q : Nat) (f : QueueSt → QueueSt) : (s.updQueue p c q f).msix = s.msix := rfl
@[simp] theorem State.updQueue_msi (s : State) (p c q : Nat) (f : QueueSt → QueueSt) : (s.updQueue p c q f).msi = s.msi := rfl
@[simp] theorem State.updQueue_mgtWatch (s : State) (p c q : Nat) (f : QueueSt → QueueSt) : (s.updQueue p c q f).mgtWatch = s.mgtWatch := rfl
@[simp] theorem State.updQueue_mgtRefused (s : State) (p c q : Nat) (f : QueueSt → QueueSt) : (s.updQueue p c q f).mgtRefused = s.mgtRefused := rfl
@[simp] theorem State.updQueue_mgtSram (s : State) (p c q : Nat) (f : QueueSt → QueueSt) : (s.updQueue p c q f).mgtSram = s.mgtSram := rfl
@[simp] theorem State.updQueue_mgtCores (s : State) (p c q : Nat) (f : QueueSt → QueueSt) : (s.updQueue p c q f).mgtCores = s.mgtCores := rfl
@[simp] theorem State.updQueue_mgtData (s : State) (p c q : Nat) (f : QueueSt → QueueSt) : (s.updQueue p c q f).mgtData = s.mgtData := rfl
@[simp] theorem State.updQueue_jtagServed (s : State) (p c q : Nat) (f : QueueSt → QueueSt) : (s.updQueue p c q f).jtagServed = s.jtagServed := rfl

-- State.updEvq

@[simp] theorem State.updEvq_pending (s : State) (p q : Nat) (f : EvqSt → EvqSt) : (s.updEvq p q f).pending = s.pending := rfl
@[simp] theorem State.updEvq_ticks (s : State) (p q : Nat) (f : EvqSt → EvqSt) : (s.updEvq p q f).ticks = s.ticks := rfl
@[simp] theorem State.updEvq_freeCtr (s : State) (p q : Nat) (f : EvqSt → EvqSt) : (s.updEvq p q f).freeCtr = s.freeCtr := rfl
@[simp] theorem State.updEvq_phase (s : State) (p q : Nat) (f : EvqSt → EvqSt) : (s.updEvq p q f).phase = s.phase := rfl
@[simp] theorem State.updEvq_boot (s : State) (p q : Nat) (f : EvqSt → EvqSt) : (s.updEvq p q f).boot = s.boot := rfl
@[simp] theorem State.updEvq_faultHold (s : State) (p q : Nat) (f : EvqSt → EvqSt) : (s.updEvq p q f).faultHold = s.faultHold := rfl
@[simp] theorem State.updEvq_railFailed (s : State) (p q : Nat) (f : EvqSt → EvqSt) : (s.updEvq p q f).railFailed = s.railFailed := rfl
@[simp] theorem State.updEvq_pins (s : State) (p q : Nat) (f : EvqSt → EvqSt) : (s.updEvq p q f).pins = s.pins := rfl
@[simp] theorem State.updEvq_fuses (s : State) (p q : Nat) (f : EvqSt → EvqSt) : (s.updEvq p q f).fuses = s.fuses := rfl
@[simp] theorem State.updEvq_prs (s : State) (p q : Nat) (f : EvqSt → EvqSt) : (s.updEvq p q f).prs = s.prs := rfl
@[simp] theorem State.updEvq_pool (s : State) (p q : Nat) (f : EvqSt → EvqSt) : (s.updEvq p q f).pool = s.pool := rfl
@[simp] theorem State.updEvq_clusters (s : State) (p q : Nat) (f : EvqSt → EvqSt) : (s.updEvq p q f).clusters = s.clusters := rfl
@[simp] theorem State.updEvq_channels (s : State) (p q : Nat) (f : EvqSt → EvqSt) : (s.updEvq p q f).channels = s.channels := rfl
@[simp] theorem State.updEvq_ports (s : State) (p q : Nat) (f : EvqSt → EvqSt) : (s.updEvq p q f).ports = s.ports := rfl
@[simp] theorem State.updEvq_adm (s : State) (p q : Nat) (f : EvqSt → EvqSt) : (s.updEvq p q f).adm = s.adm := rfl
@[simp] theorem State.updEvq_hubOrder (s : State) (p q : Nat) (f : EvqSt → EvqSt) : (s.updEvq p q f).hubOrder = s.hubOrder := rfl
@[simp] theorem State.updEvq_kv (s : State) (p q : Nat) (f : EvqSt → EvqSt) : (s.updEvq p q f).kv = s.kv := rfl
@[simp] theorem State.updEvq_writes (s : State) (p q : Nat) (f : EvqSt → EvqSt) : (s.updEvq p q f).writes = s.writes := rfl
@[simp] theorem State.updEvq_counts (s : State) (p q : Nat) (f : EvqSt → EvqSt) : (s.updEvq p q f).counts = s.counts := rfl
@[simp] theorem State.updEvq_nextWrite (s : State) (p q : Nat) (f : EvqSt → EvqSt) : (s.updEvq p q f).nextWrite = s.nextWrite := rfl
@[simp] theorem State.updEvq_walkers (s : State) (p q : Nat) (f : EvqSt → EvqSt) : (s.updEvq p q f).walkers = s.walkers := rfl
@[simp] theorem State.updEvq_trackers (s : State) (p q : Nat) (f : EvqSt → EvqSt) : (s.updEvq p q f).trackers = s.trackers := rfl
@[simp] theorem State.updEvq_regulators (s : State) (p q : Nat) (f : EvqSt → EvqSt) : (s.updEvq p q f).regulators = s.regulators := rfl
@[simp] theorem State.updEvq_recov (s : State) (p q : Nat) (f : EvqSt → EvqSt) : (s.updEvq p q f).recov = s.recov := rfl
@[simp] theorem State.updEvq_fw (s : State) (p q : Nat) (f : EvqSt → EvqSt) : (s.updEvq p q f).fw = s.fw := rfl
@[simp] theorem State.updEvq_sessions (s : State) (p q : Nat) (f : EvqSt → EvqSt) : (s.updEvq p q f).sessions = s.sessions := rfl
@[simp] theorem State.updEvq_irq (s : State) (p q : Nat) (f : EvqSt → EvqSt) : (s.updEvq p q f).irq = s.irq := rfl
@[simp] theorem State.updEvq_log (s : State) (p q : Nat) (f : EvqSt → EvqSt) : (s.updEvq p q f).log = s.log := rfl
@[simp] theorem State.updEvq_sensors (s : State) (p q : Nat) (f : EvqSt → EvqSt) : (s.updEvq p q f).sensors = s.sensors := rfl
@[simp] theorem State.updEvq_power (s : State) (p q : Nat) (f : EvqSt → EvqSt) : (s.updEvq p q f).power = s.power := rfl
@[simp] theorem State.updEvq_bc (s : State) (p q : Nat) (f : EvqSt → EvqSt) : (s.updEvq p q f).bc = s.bc := rfl
@[simp] theorem State.updEvq_msix (s : State) (p q : Nat) (f : EvqSt → EvqSt) : (s.updEvq p q f).msix = s.msix := rfl
@[simp] theorem State.updEvq_msi (s : State) (p q : Nat) (f : EvqSt → EvqSt) : (s.updEvq p q f).msi = s.msi := rfl
@[simp] theorem State.updEvq_mgtWatch (s : State) (p q : Nat) (f : EvqSt → EvqSt) : (s.updEvq p q f).mgtWatch = s.mgtWatch := rfl
@[simp] theorem State.updEvq_mgtRefused (s : State) (p q : Nat) (f : EvqSt → EvqSt) : (s.updEvq p q f).mgtRefused = s.mgtRefused := rfl
@[simp] theorem State.updEvq_mgtSram (s : State) (p q : Nat) (f : EvqSt → EvqSt) : (s.updEvq p q f).mgtSram = s.mgtSram := rfl
@[simp] theorem State.updEvq_mgtCores (s : State) (p q : Nat) (f : EvqSt → EvqSt) : (s.updEvq p q f).mgtCores = s.mgtCores := rfl
@[simp] theorem State.updEvq_mgtData (s : State) (p q : Nat) (f : EvqSt → EvqSt) : (s.updEvq p q f).mgtData = s.mgtData := rfl
@[simp] theorem State.updEvq_jtagServed (s : State) (p q : Nat) (f : EvqSt → EvqSt) : (s.updEvq p q f).jtagServed = s.jtagServed := rfl

-- State.updPort

@[simp] theorem State.updPort_pending (s : State) (i : Nat) (f : PortSt → PortSt) : (s.updPort i f).pending = s.pending := rfl
@[simp] theorem State.updPort_ticks (s : State) (i : Nat) (f : PortSt → PortSt) : (s.updPort i f).ticks = s.ticks := rfl
@[simp] theorem State.updPort_freeCtr (s : State) (i : Nat) (f : PortSt → PortSt) : (s.updPort i f).freeCtr = s.freeCtr := rfl
@[simp] theorem State.updPort_phase (s : State) (i : Nat) (f : PortSt → PortSt) : (s.updPort i f).phase = s.phase := rfl
@[simp] theorem State.updPort_boot (s : State) (i : Nat) (f : PortSt → PortSt) : (s.updPort i f).boot = s.boot := rfl
@[simp] theorem State.updPort_faultHold (s : State) (i : Nat) (f : PortSt → PortSt) : (s.updPort i f).faultHold = s.faultHold := rfl
@[simp] theorem State.updPort_railFailed (s : State) (i : Nat) (f : PortSt → PortSt) : (s.updPort i f).railFailed = s.railFailed := rfl
@[simp] theorem State.updPort_pins (s : State) (i : Nat) (f : PortSt → PortSt) : (s.updPort i f).pins = s.pins := rfl
@[simp] theorem State.updPort_fuses (s : State) (i : Nat) (f : PortSt → PortSt) : (s.updPort i f).fuses = s.fuses := rfl
@[simp] theorem State.updPort_prs (s : State) (i : Nat) (f : PortSt → PortSt) : (s.updPort i f).prs = s.prs := rfl
@[simp] theorem State.updPort_pool (s : State) (i : Nat) (f : PortSt → PortSt) : (s.updPort i f).pool = s.pool := rfl
@[simp] theorem State.updPort_clusters (s : State) (i : Nat) (f : PortSt → PortSt) : (s.updPort i f).clusters = s.clusters := rfl
@[simp] theorem State.updPort_channels (s : State) (i : Nat) (f : PortSt → PortSt) : (s.updPort i f).channels = s.channels := rfl
@[simp] theorem State.updPort_ports (s : State) (i : Nat) (f : PortSt → PortSt) : (s.updPort i f).ports = tabSet s.ports i (f (s.port i)) := rfl
@[simp] theorem State.updPort_adm (s : State) (i : Nat) (f : PortSt → PortSt) : (s.updPort i f).adm = s.adm := rfl
@[simp] theorem State.updPort_hubOrder (s : State) (i : Nat) (f : PortSt → PortSt) : (s.updPort i f).hubOrder = s.hubOrder := rfl
@[simp] theorem State.updPort_parts (s : State) (i : Nat) (f : PortSt → PortSt) : (s.updPort i f).parts = s.parts := rfl
@[simp] theorem State.updPort_kv (s : State) (i : Nat) (f : PortSt → PortSt) : (s.updPort i f).kv = s.kv := rfl
@[simp] theorem State.updPort_writes (s : State) (i : Nat) (f : PortSt → PortSt) : (s.updPort i f).writes = s.writes := rfl
@[simp] theorem State.updPort_counts (s : State) (i : Nat) (f : PortSt → PortSt) : (s.updPort i f).counts = s.counts := rfl
@[simp] theorem State.updPort_nextWrite (s : State) (i : Nat) (f : PortSt → PortSt) : (s.updPort i f).nextWrite = s.nextWrite := rfl
@[simp] theorem State.updPort_walkers (s : State) (i : Nat) (f : PortSt → PortSt) : (s.updPort i f).walkers = s.walkers := rfl
@[simp] theorem State.updPort_trackers (s : State) (i : Nat) (f : PortSt → PortSt) : (s.updPort i f).trackers = s.trackers := rfl
@[simp] theorem State.updPort_regulators (s : State) (i : Nat) (f : PortSt → PortSt) : (s.updPort i f).regulators = s.regulators := rfl
@[simp] theorem State.updPort_recov (s : State) (i : Nat) (f : PortSt → PortSt) : (s.updPort i f).recov = s.recov := rfl
@[simp] theorem State.updPort_fw (s : State) (i : Nat) (f : PortSt → PortSt) : (s.updPort i f).fw = s.fw := rfl
@[simp] theorem State.updPort_sessions (s : State) (i : Nat) (f : PortSt → PortSt) : (s.updPort i f).sessions = s.sessions := rfl
@[simp] theorem State.updPort_irq (s : State) (i : Nat) (f : PortSt → PortSt) : (s.updPort i f).irq = s.irq := rfl
@[simp] theorem State.updPort_log (s : State) (i : Nat) (f : PortSt → PortSt) : (s.updPort i f).log = s.log := rfl
@[simp] theorem State.updPort_sensors (s : State) (i : Nat) (f : PortSt → PortSt) : (s.updPort i f).sensors = s.sensors := rfl
@[simp] theorem State.updPort_power (s : State) (i : Nat) (f : PortSt → PortSt) : (s.updPort i f).power = s.power := rfl
@[simp] theorem State.updPort_bc (s : State) (i : Nat) (f : PortSt → PortSt) : (s.updPort i f).bc = s.bc := rfl
@[simp] theorem State.updPort_msix (s : State) (i : Nat) (f : PortSt → PortSt) : (s.updPort i f).msix = s.msix := rfl
@[simp] theorem State.updPort_msi (s : State) (i : Nat) (f : PortSt → PortSt) : (s.updPort i f).msi = s.msi := rfl
@[simp] theorem State.updPort_mgtWatch (s : State) (i : Nat) (f : PortSt → PortSt) : (s.updPort i f).mgtWatch = s.mgtWatch := rfl
@[simp] theorem State.updPort_mgtRefused (s : State) (i : Nat) (f : PortSt → PortSt) : (s.updPort i f).mgtRefused = s.mgtRefused := rfl
@[simp] theorem State.updPort_mgtSram (s : State) (i : Nat) (f : PortSt → PortSt) : (s.updPort i f).mgtSram = s.mgtSram := rfl
@[simp] theorem State.updPort_mgtCores (s : State) (i : Nat) (f : PortSt → PortSt) : (s.updPort i f).mgtCores = s.mgtCores := rfl
@[simp] theorem State.updPort_mgtData (s : State) (i : Nat) (f : PortSt → PortSt) : (s.updPort i f).mgtData = s.mgtData := rfl
@[simp] theorem State.updPort_jtagServed (s : State) (i : Nat) (f : PortSt → PortSt) : (s.updPort i f).jtagServed = s.jtagServed := rfl

-- State.updAdm

@[simp] theorem State.updAdm_pending (s : State) (i : Nat) (f : AdmSt → AdmSt) : (s.updAdm i f).pending = s.pending := rfl
@[simp] theorem State.updAdm_ticks (s : State) (i : Nat) (f : AdmSt → AdmSt) : (s.updAdm i f).ticks = s.ticks := rfl
@[simp] theorem State.updAdm_freeCtr (s : State) (i : Nat) (f : AdmSt → AdmSt) : (s.updAdm i f).freeCtr = s.freeCtr := rfl
@[simp] theorem State.updAdm_phase (s : State) (i : Nat) (f : AdmSt → AdmSt) : (s.updAdm i f).phase = s.phase := rfl
@[simp] theorem State.updAdm_boot (s : State) (i : Nat) (f : AdmSt → AdmSt) : (s.updAdm i f).boot = s.boot := rfl
@[simp] theorem State.updAdm_faultHold (s : State) (i : Nat) (f : AdmSt → AdmSt) : (s.updAdm i f).faultHold = s.faultHold := rfl
@[simp] theorem State.updAdm_railFailed (s : State) (i : Nat) (f : AdmSt → AdmSt) : (s.updAdm i f).railFailed = s.railFailed := rfl
@[simp] theorem State.updAdm_pins (s : State) (i : Nat) (f : AdmSt → AdmSt) : (s.updAdm i f).pins = s.pins := rfl
@[simp] theorem State.updAdm_fuses (s : State) (i : Nat) (f : AdmSt → AdmSt) : (s.updAdm i f).fuses = s.fuses := rfl
@[simp] theorem State.updAdm_prs (s : State) (i : Nat) (f : AdmSt → AdmSt) : (s.updAdm i f).prs = s.prs := rfl
@[simp] theorem State.updAdm_pool (s : State) (i : Nat) (f : AdmSt → AdmSt) : (s.updAdm i f).pool = s.pool := rfl
@[simp] theorem State.updAdm_clusters (s : State) (i : Nat) (f : AdmSt → AdmSt) : (s.updAdm i f).clusters = s.clusters := rfl
@[simp] theorem State.updAdm_channels (s : State) (i : Nat) (f : AdmSt → AdmSt) : (s.updAdm i f).channels = s.channels := rfl
@[simp] theorem State.updAdm_ports (s : State) (i : Nat) (f : AdmSt → AdmSt) : (s.updAdm i f).ports = s.ports := rfl
@[simp] theorem State.updAdm_adm (s : State) (i : Nat) (f : AdmSt → AdmSt) : (s.updAdm i f).adm = tabSet s.adm i (f (s.admch i)) := rfl
@[simp] theorem State.updAdm_hubOrder (s : State) (i : Nat) (f : AdmSt → AdmSt) : (s.updAdm i f).hubOrder = s.hubOrder := rfl
@[simp] theorem State.updAdm_parts (s : State) (i : Nat) (f : AdmSt → AdmSt) : (s.updAdm i f).parts = s.parts := rfl
@[simp] theorem State.updAdm_kv (s : State) (i : Nat) (f : AdmSt → AdmSt) : (s.updAdm i f).kv = s.kv := rfl
@[simp] theorem State.updAdm_writes (s : State) (i : Nat) (f : AdmSt → AdmSt) : (s.updAdm i f).writes = s.writes := rfl
@[simp] theorem State.updAdm_counts (s : State) (i : Nat) (f : AdmSt → AdmSt) : (s.updAdm i f).counts = s.counts := rfl
@[simp] theorem State.updAdm_nextWrite (s : State) (i : Nat) (f : AdmSt → AdmSt) : (s.updAdm i f).nextWrite = s.nextWrite := rfl
@[simp] theorem State.updAdm_walkers (s : State) (i : Nat) (f : AdmSt → AdmSt) : (s.updAdm i f).walkers = s.walkers := rfl
@[simp] theorem State.updAdm_trackers (s : State) (i : Nat) (f : AdmSt → AdmSt) : (s.updAdm i f).trackers = s.trackers := rfl
@[simp] theorem State.updAdm_regulators (s : State) (i : Nat) (f : AdmSt → AdmSt) : (s.updAdm i f).regulators = s.regulators := rfl
@[simp] theorem State.updAdm_recov (s : State) (i : Nat) (f : AdmSt → AdmSt) : (s.updAdm i f).recov = s.recov := rfl
@[simp] theorem State.updAdm_fw (s : State) (i : Nat) (f : AdmSt → AdmSt) : (s.updAdm i f).fw = s.fw := rfl
@[simp] theorem State.updAdm_sessions (s : State) (i : Nat) (f : AdmSt → AdmSt) : (s.updAdm i f).sessions = s.sessions := rfl
@[simp] theorem State.updAdm_irq (s : State) (i : Nat) (f : AdmSt → AdmSt) : (s.updAdm i f).irq = s.irq := rfl
@[simp] theorem State.updAdm_log (s : State) (i : Nat) (f : AdmSt → AdmSt) : (s.updAdm i f).log = s.log := rfl
@[simp] theorem State.updAdm_sensors (s : State) (i : Nat) (f : AdmSt → AdmSt) : (s.updAdm i f).sensors = s.sensors := rfl
@[simp] theorem State.updAdm_power (s : State) (i : Nat) (f : AdmSt → AdmSt) : (s.updAdm i f).power = s.power := rfl
@[simp] theorem State.updAdm_bc (s : State) (i : Nat) (f : AdmSt → AdmSt) : (s.updAdm i f).bc = s.bc := rfl
@[simp] theorem State.updAdm_msix (s : State) (i : Nat) (f : AdmSt → AdmSt) : (s.updAdm i f).msix = s.msix := rfl
@[simp] theorem State.updAdm_msi (s : State) (i : Nat) (f : AdmSt → AdmSt) : (s.updAdm i f).msi = s.msi := rfl
@[simp] theorem State.updAdm_mgtWatch (s : State) (i : Nat) (f : AdmSt → AdmSt) : (s.updAdm i f).mgtWatch = s.mgtWatch := rfl
@[simp] theorem State.updAdm_mgtRefused (s : State) (i : Nat) (f : AdmSt → AdmSt) : (s.updAdm i f).mgtRefused = s.mgtRefused := rfl
@[simp] theorem State.updAdm_mgtSram (s : State) (i : Nat) (f : AdmSt → AdmSt) : (s.updAdm i f).mgtSram = s.mgtSram := rfl
@[simp] theorem State.updAdm_mgtCores (s : State) (i : Nat) (f : AdmSt → AdmSt) : (s.updAdm i f).mgtCores = s.mgtCores := rfl
@[simp] theorem State.updAdm_mgtData (s : State) (i : Nat) (f : AdmSt → AdmSt) : (s.updAdm i f).mgtData = s.mgtData := rfl
@[simp] theorem State.updAdm_jtagServed (s : State) (i : Nat) (f : AdmSt → AdmSt) : (s.updAdm i f).jtagServed = s.jtagServed := rfl

-- State.updEntry

@[simp] theorem State.updEntry_pending (s : State) (kind i : Nat) (f : PoolEntry → PoolEntry) : (s.updEntry kind i f).pending = s.pending := rfl
@[simp] theorem State.updEntry_ticks (s : State) (kind i : Nat) (f : PoolEntry → PoolEntry) : (s.updEntry kind i f).ticks = s.ticks := rfl
@[simp] theorem State.updEntry_freeCtr (s : State) (kind i : Nat) (f : PoolEntry → PoolEntry) : (s.updEntry kind i f).freeCtr = s.freeCtr := rfl
@[simp] theorem State.updEntry_phase (s : State) (kind i : Nat) (f : PoolEntry → PoolEntry) : (s.updEntry kind i f).phase = s.phase := rfl
@[simp] theorem State.updEntry_boot (s : State) (kind i : Nat) (f : PoolEntry → PoolEntry) : (s.updEntry kind i f).boot = s.boot := rfl
@[simp] theorem State.updEntry_faultHold (s : State) (kind i : Nat) (f : PoolEntry → PoolEntry) : (s.updEntry kind i f).faultHold = s.faultHold := rfl
@[simp] theorem State.updEntry_railFailed (s : State) (kind i : Nat) (f : PoolEntry → PoolEntry) : (s.updEntry kind i f).railFailed = s.railFailed := rfl
@[simp] theorem State.updEntry_pins (s : State) (kind i : Nat) (f : PoolEntry → PoolEntry) : (s.updEntry kind i f).pins = s.pins := rfl
@[simp] theorem State.updEntry_fuses (s : State) (kind i : Nat) (f : PoolEntry → PoolEntry) : (s.updEntry kind i f).fuses = s.fuses := rfl
@[simp] theorem State.updEntry_prs (s : State) (kind i : Nat) (f : PoolEntry → PoolEntry) : (s.updEntry kind i f).prs = s.prs := rfl
@[simp] theorem State.updEntry_clusters (s : State) (kind i : Nat) (f : PoolEntry → PoolEntry) : (s.updEntry kind i f).clusters = s.clusters := rfl
@[simp] theorem State.updEntry_channels (s : State) (kind i : Nat) (f : PoolEntry → PoolEntry) : (s.updEntry kind i f).channels = s.channels := rfl
@[simp] theorem State.updEntry_ports (s : State) (kind i : Nat) (f : PoolEntry → PoolEntry) : (s.updEntry kind i f).ports = s.ports := rfl
@[simp] theorem State.updEntry_adm (s : State) (kind i : Nat) (f : PoolEntry → PoolEntry) : (s.updEntry kind i f).adm = s.adm := rfl
@[simp] theorem State.updEntry_hubOrder (s : State) (kind i : Nat) (f : PoolEntry → PoolEntry) : (s.updEntry kind i f).hubOrder = s.hubOrder := rfl
@[simp] theorem State.updEntry_parts (s : State) (kind i : Nat) (f : PoolEntry → PoolEntry) : (s.updEntry kind i f).parts = s.parts := rfl
@[simp] theorem State.updEntry_kv (s : State) (kind i : Nat) (f : PoolEntry → PoolEntry) : (s.updEntry kind i f).kv = s.kv := rfl
@[simp] theorem State.updEntry_writes (s : State) (kind i : Nat) (f : PoolEntry → PoolEntry) : (s.updEntry kind i f).writes = s.writes := rfl
@[simp] theorem State.updEntry_counts (s : State) (kind i : Nat) (f : PoolEntry → PoolEntry) : (s.updEntry kind i f).counts = s.counts := rfl
@[simp] theorem State.updEntry_nextWrite (s : State) (kind i : Nat) (f : PoolEntry → PoolEntry) : (s.updEntry kind i f).nextWrite = s.nextWrite := rfl
@[simp] theorem State.updEntry_walkers (s : State) (kind i : Nat) (f : PoolEntry → PoolEntry) : (s.updEntry kind i f).walkers = s.walkers := rfl
@[simp] theorem State.updEntry_trackers (s : State) (kind i : Nat) (f : PoolEntry → PoolEntry) : (s.updEntry kind i f).trackers = s.trackers := rfl
@[simp] theorem State.updEntry_regulators (s : State) (kind i : Nat) (f : PoolEntry → PoolEntry) : (s.updEntry kind i f).regulators = s.regulators := rfl
@[simp] theorem State.updEntry_recov (s : State) (kind i : Nat) (f : PoolEntry → PoolEntry) : (s.updEntry kind i f).recov = s.recov := rfl
@[simp] theorem State.updEntry_fw (s : State) (kind i : Nat) (f : PoolEntry → PoolEntry) : (s.updEntry kind i f).fw = s.fw := rfl
@[simp] theorem State.updEntry_sessions (s : State) (kind i : Nat) (f : PoolEntry → PoolEntry) : (s.updEntry kind i f).sessions = s.sessions := rfl
@[simp] theorem State.updEntry_irq (s : State) (kind i : Nat) (f : PoolEntry → PoolEntry) : (s.updEntry kind i f).irq = s.irq := rfl
@[simp] theorem State.updEntry_log (s : State) (kind i : Nat) (f : PoolEntry → PoolEntry) : (s.updEntry kind i f).log = s.log := rfl
@[simp] theorem State.updEntry_sensors (s : State) (kind i : Nat) (f : PoolEntry → PoolEntry) : (s.updEntry kind i f).sensors = s.sensors := rfl
@[simp] theorem State.updEntry_power (s : State) (kind i : Nat) (f : PoolEntry → PoolEntry) : (s.updEntry kind i f).power = s.power := rfl
@[simp] theorem State.updEntry_bc (s : State) (kind i : Nat) (f : PoolEntry → PoolEntry) : (s.updEntry kind i f).bc = s.bc := rfl
@[simp] theorem State.updEntry_msix (s : State) (kind i : Nat) (f : PoolEntry → PoolEntry) : (s.updEntry kind i f).msix = s.msix := rfl
@[simp] theorem State.updEntry_msi (s : State) (kind i : Nat) (f : PoolEntry → PoolEntry) : (s.updEntry kind i f).msi = s.msi := rfl
@[simp] theorem State.updEntry_mgtWatch (s : State) (kind i : Nat) (f : PoolEntry → PoolEntry) : (s.updEntry kind i f).mgtWatch = s.mgtWatch := rfl
@[simp] theorem State.updEntry_mgtRefused (s : State) (kind i : Nat) (f : PoolEntry → PoolEntry) : (s.updEntry kind i f).mgtRefused = s.mgtRefused := rfl
@[simp] theorem State.updEntry_mgtSram (s : State) (kind i : Nat) (f : PoolEntry → PoolEntry) : (s.updEntry kind i f).mgtSram = s.mgtSram := rfl
@[simp] theorem State.updEntry_mgtCores (s : State) (kind i : Nat) (f : PoolEntry → PoolEntry) : (s.updEntry kind i f).mgtCores = s.mgtCores := rfl
@[simp] theorem State.updEntry_mgtData (s : State) (kind i : Nat) (f : PoolEntry → PoolEntry) : (s.updEntry kind i f).mgtData = s.mgtData := rfl
@[simp] theorem State.updEntry_jtagServed (s : State) (kind i : Nat) (f : PoolEntry → PoolEntry) : (s.updEntry kind i f).jtagServed = s.jtagServed := rfl

-- State.fresh

@[simp] theorem State.fresh_pending (s : State) : s.fresh.2.pending = s.pending := rfl
@[simp] theorem State.fresh_ticks (s : State) : s.fresh.2.ticks = s.ticks := rfl
@[simp] theorem State.fresh_phase (s : State) : s.fresh.2.phase = s.phase := rfl
@[simp] theorem State.fresh_boot (s : State) : s.fresh.2.boot = s.boot := rfl
@[simp] theorem State.fresh_faultHold (s : State) : s.fresh.2.faultHold = s.faultHold := rfl
@[simp] theorem State.fresh_railFailed (s : State) : s.fresh.2.railFailed = s.railFailed := rfl
@[simp] theorem State.fresh_pins (s : State) : s.fresh.2.pins = s.pins := rfl
@[simp] theorem State.fresh_fuses (s : State) : s.fresh.2.fuses = s.fuses := rfl
@[simp] theorem State.fresh_prs (s : State) : s.fresh.2.prs = s.prs := rfl
@[simp] theorem State.fresh_pool (s : State) : s.fresh.2.pool = s.pool := rfl
@[simp] theorem State.fresh_clusters (s : State) : s.fresh.2.clusters = s.clusters := rfl
@[simp] theorem State.fresh_channels (s : State) : s.fresh.2.channels = s.channels := rfl
@[simp] theorem State.fresh_ports (s : State) : s.fresh.2.ports = s.ports := rfl
@[simp] theorem State.fresh_adm (s : State) : s.fresh.2.adm = s.adm := rfl
@[simp] theorem State.fresh_hubOrder (s : State) : s.fresh.2.hubOrder = s.hubOrder := rfl
@[simp] theorem State.fresh_parts (s : State) : s.fresh.2.parts = s.parts := rfl
@[simp] theorem State.fresh_kv (s : State) : s.fresh.2.kv = s.kv := rfl
@[simp] theorem State.fresh_writes (s : State) : s.fresh.2.writes = s.writes := rfl
@[simp] theorem State.fresh_counts (s : State) : s.fresh.2.counts = s.counts := rfl
@[simp] theorem State.fresh_nextWrite (s : State) : s.fresh.2.nextWrite = s.nextWrite := rfl
@[simp] theorem State.fresh_walkers (s : State) : s.fresh.2.walkers = s.walkers := rfl
@[simp] theorem State.fresh_trackers (s : State) : s.fresh.2.trackers = s.trackers := rfl
@[simp] theorem State.fresh_regulators (s : State) : s.fresh.2.regulators = s.regulators := rfl
@[simp] theorem State.fresh_recov (s : State) : s.fresh.2.recov = s.recov := rfl
@[simp] theorem State.fresh_fw (s : State) : s.fresh.2.fw = s.fw := rfl
@[simp] theorem State.fresh_sessions (s : State) : s.fresh.2.sessions = s.sessions := rfl
@[simp] theorem State.fresh_irq (s : State) : s.fresh.2.irq = s.irq := rfl
@[simp] theorem State.fresh_log (s : State) : s.fresh.2.log = s.log := rfl
@[simp] theorem State.fresh_sensors (s : State) : s.fresh.2.sensors = s.sensors := rfl
@[simp] theorem State.fresh_power (s : State) : s.fresh.2.power = s.power := rfl
@[simp] theorem State.fresh_bc (s : State) : s.fresh.2.bc = s.bc := rfl
@[simp] theorem State.fresh_msix (s : State) : s.fresh.2.msix = s.msix := rfl
@[simp] theorem State.fresh_msi (s : State) : s.fresh.2.msi = s.msi := rfl
@[simp] theorem State.fresh_mgtWatch (s : State) : s.fresh.2.mgtWatch = s.mgtWatch := rfl
@[simp] theorem State.fresh_mgtRefused (s : State) : s.fresh.2.mgtRefused = s.mgtRefused := rfl
@[simp] theorem State.fresh_mgtSram (s : State) : s.fresh.2.mgtSram = s.mgtSram := rfl
@[simp] theorem State.fresh_mgtCores (s : State) : s.fresh.2.mgtCores = s.mgtCores := rfl
@[simp] theorem State.fresh_mgtData (s : State) : s.fresh.2.mgtData = s.mgtData := rfl
@[simp] theorem State.fresh_jtagServed (s : State) : s.fresh.2.jtagServed = s.jtagServed := rfl
@[simp] theorem State.fresh_freeCtr (s : State) : s.fresh.2.freeCtr = s.freeCtr + 1 := rfl

-- reading a unit back

theorem State.cl_updCl (s : State) (i j : Nat) (f : ClusterSt → ClusterSt) :
    (s.updCl i f).cl j = if j = i then f (s.cl i) else s.cl j := tabGet_tabSet _ _ _ _ _
@[simp] theorem State.cl_updCl_same (s : State) (i : Nat) (f : ClusterSt → ClusterSt) : (s.updCl i f).cl i = f (s.cl i) :=
  tabGet_tabSet_same _ _ _ _
theorem State.cl_updCl_other (s : State) (i j : Nat) (f : ClusterSt → ClusterSt) (h : j ≠ i) : (s.updCl i f).cl j = s.cl j :=
  tabGet_tabSet_other _ _ _ _ _ h
@[simp] theorem ClusterSt.co_updCo_same (c : ClusterSt) (k : Nat) (f : CoreSt → CoreSt) : (c.updCo k f).co k = f (c.co k) :=
  tabGet_tabSet_same _ _ _ _
theorem ClusterSt.co_updCo_other (c : ClusterSt) (k j : Nat) (f : CoreSt → CoreSt) (h : j ≠ k) : (c.updCo k f).co j = c.co j :=
  tabGet_tabSet_other _ _ _ _ _ h
@[simp] theorem ClusterSt.co_setCo_same (c : ClusterSt) (k : Nat) (x : CoreSt) : (c.setCo k x).co k = x := tabGet_tabSet_same _ _ _ _
theorem ClusterSt.co_setCo_other (c : ClusterSt) (k j : Nat) (x : CoreSt) (h : j ≠ k) : (c.setCo k x).co j = c.co j :=
  tabGet_tabSet_other _ _ _ _ _ h
@[simp] theorem State.core_updCore_same (s : State) (k : CoreId) (f : CoreSt → CoreSt) : (s.updCore k f).core k = f (s.core k) := by
  simp [State.core, State.updCore]
/-- Another core keeps its state. -/
theorem State.core_updCore_other (s : State) (k j : CoreId) (f : CoreSt → CoreSt) (h : j ≠ k) :
    (s.updCore k f).core j = s.core j := by
  by_cases hc : j.cl = k.cl
  · have hk : (j.core : Nat) ≠ k.core := by
      intro e
      exact h (by cases j; cases k; simp_all [Fin.ext_iff])
    simp [State.core, State.updCore, hc, ClusterSt.co_updCo_other _ _ _ _ hk]
  · have hn : (j.cl : Nat) ≠ k.cl := fun e => hc (Fin.ext e)
    simp [State.core, State.updCore, State.cl_updCl_other _ _ _ _ hn]
@[simp] theorem State.chan_updChan_same (s : State) (i : Nat) (f : ChannelSt → ChannelSt) : (s.updChan i f).chan i = f (s.chan i) :=
  tabGet_tabSet_same _ _ _ _
theorem State.chan_updChan_other (s : State) (i j : Nat) (f : ChannelSt → ChannelSt) (h : j ≠ i) : (s.updChan i f).chan j = s.chan j :=
  tabGet_tabSet_other _ _ _ _ _ h
@[simp] theorem State.part_updPart_same (s : State) (p : Nat) (f : PartSt → PartSt) : (s.updPart p f).part p = f (s.part p) :=
  tabGet_tabSet_same _ _ _ _
theorem State.part_updPart_other (s : State) (p q : Nat) (f : PartSt → PartSt) (h : q ≠ p) : (s.updPart p f).part q = s.part q :=
  tabGet_tabSet_other _ _ _ _ _ h
@[simp] theorem State.ctx_updCtx_same (s : State) (p c : Nat) (f : CtxSt → CtxSt) : (s.updCtx p c f).ctx p c = f (s.ctx p c) := by
  simp [State.ctx, State.updCtx, PartSt.ctx, tabGet_tabSet_same]
@[simp] theorem State.queue_updQueue_same (s : State) (p c q : Nat) (f : QueueSt → QueueSt) :
    (s.updQueue p c q f).queue p c q = f (s.queue p c q) := by
  simp [State.queue, State.updQueue, CtxSt.queue, tabGet_tabSet_same]
@[simp] theorem State.port_updPort_same (s : State) (i : Nat) (f : PortSt → PortSt) : (s.updPort i f).port i = f (s.port i) :=
  tabGet_tabSet_same _ _ _ _
theorem State.port_updPort_other (s : State) (i j : Nat) (f : PortSt → PortSt) (h : j ≠ i) : (s.updPort i f).port j = s.port j :=
  tabGet_tabSet_other _ _ _ _ _ h
@[simp] theorem State.admch_updAdm_same (s : State) (i : Nat) (f : AdmSt → AdmSt) : (s.updAdm i f).admch i = f (s.admch i) :=
  tabGet_tabSet_same _ _ _ _
theorem State.admch_updAdm_other (s : State) (i j : Nat) (f : AdmSt → AdmSt) (h : j ≠ i) : (s.updAdm i f).admch j = s.admch j :=
  tabGet_tabSet_other _ _ _ _ _ h

/-- A cluster that hosts a context is listed, so that putting it back unchanged changes nothing. -/
theorem State.updCl_self (s : State) (i : Nat) (h : (s.cl i).ctx.isSome = true) : s.updCl i (fun c => c) = s := by
  have hn : tabGet ({} : ClusterSt) s.clusters i ≠ {} := by
    intro e
    have h2 : (tabGet ({} : ClusterSt) s.clusters i).ctx.isSome = true := h
    rw [e] at h2
    exact absurd h2 (by decide)
  show { s with clusters := tabSet s.clusters i (s.cl i) } = s
  rw [State.cl, tabSet_self {} s.clusters i hn]

/-- A core that does not idle is listed, so that putting it back unchanged changes nothing. -/
theorem ClusterSt.updCo_self (c : ClusterSt) (k : Nat) (h : (c.co k).run ≠ .idle) : c.updCo k (fun x => x) = c := by
  have hn : tabGet ({} : CoreSt) c.cores k ≠ {} := by
    intro e
    have h2 : (tabGet ({} : CoreSt) c.cores k).run ≠ .idle := h
    rw [e] at h2
    exact h2 rfl
  show { c with cores := tabSet c.cores k (c.co k) } = c
  rw [ClusterSt.co, tabSet_self {} c.cores k hn]

end Sys2Proof.Machine
end

