-- ==== Sys2Proof/Laws/Admin.lean ====
section
/-! SUPPORT. What a command of an admin channel goes through (R348-R362): it is dropped, or accepted; an accepted command that passes its
checks runs; and what a reply leaves. Also what raising an MSI-X vector does (R318). -/

namespace Sys2Proof.Machine

-- MSI-X

/-- A masked vector becomes pending, and no message is sent. -/
theorem MsiSt.raise_masked (m : MsiSt) (v : Msix) (h : (m.entry v).mask = true) :
    v ∈ (m.raise v).pend ∧ (m.raise v).sent = m.sent ∧ (m.raise v).tab = m.tab := by
  by_cases hp : m.pend.any (fun x => decide (x = v)) = true
  · refine ⟨?_, ?_, ?_⟩ <;> simp [MsiSt.raise, h, hp]
    simpa using hp
  · refine ⟨?_, ?_, ?_⟩ <;> simp [MsiSt.raise, h, hp]

/-- Another sends its message, and is not pending. -/
theorem MsiSt.raise_open (m : MsiSt) (v : Msix) (h : (m.entry v).mask = false) :
    v ∉ (m.raise v).pend ∧ (m.raise v).tab = m.tab ∧
      (m.raise v).sent = m.sent ++ [{ port := v.port, addr := (m.entry v).addr, data := (m.entry v).data }] := by
  simp [MsiSt.raise, h, MsiSt.send]

/-- Raising a vector changes nothing but the vectors raised and the functions' MSI-X registers. -/
theorem State.raise_frame (s : State) (v : Msix) : { s.raise v with msix := s.msix, msi := s.msi } = s := rfl

-- management's interrupts

/-- Raising a management source changes nothing but the interrupt controller. -/
theorem State.irqRaise_frame (s : State) (n : Nat) : { s.irqRaise n with irq := s.irq } = s := by
  unfold State.irqRaise
  simp only
  split
  · rfl
  · split
    · rfl
    · split <;> rfl

@[simp] theorem State.irqRaise_adm (s : State) (n : Nat) : (s.irqRaise n).adm = s.adm := by
  have h := congrArg State.adm (s.irqRaise_frame n)
  exact h
@[simp] theorem State.irqRaise_hubOrder (s : State) (n : Nat) : (s.irqRaise n).hubOrder = s.hubOrder := by
  have h := congrArg State.hubOrder (s.irqRaise_frame n)
  exact h
@[simp] theorem State.irqRaise_parts (s : State) (n : Nat) : (s.irqRaise n).parts = s.parts := by
  have h := congrArg State.parts (s.irqRaise_frame n)
  exact h
@[simp] theorem State.irqRaise_phase (s : State) (n : Nat) : (s.irqRaise n).phase = s.phase := by
  have h := congrArg State.phase (s.irqRaise_frame n)
  exact h

-- accepting

/-- The channel and the hub's order as accepting a packet leaves them, before management is told. -/
def State.admTake (s : State) (ch : Nat) (p : List Byte) : State :=
  let u := s.updAdm ch (fun a => { a with accepted := (a.accepted + 1) % 2 ^ 32, lastRing := 0, running := true, replyValid := false,
                                          started := false, copy := p })
  { u with bc := if ch = 4 then { s.bc with reply := s.bc.asked } else s.bc, hubOrder := dropAll s.hubOrder ch ++ [ch] }

theorem State.admAccept_eq (s : State) (ch : Nat) (p : List Byte) : s.admAccept ch p = (s.admTake ch p).irqRaise ch := by
  unfold State.admAccept State.admTake
  by_cases h : ch = 4 <;> simp [h]

/-- Accepting a command changes nothing but its channel, the hub's order, the BC's request and management's interrupts. -/
theorem State.admAccept_frame (s : State) (ch : Nat) (p : List Byte) :
    { s.admAccept ch p with adm := s.adm, bc := s.bc, hubOrder := s.hubOrder, irq := s.irq } = s := by
  have h := congrArg (fun t : State => { t with adm := s.adm, bc := s.bc, hubOrder := s.hubOrder }) ((s.admTake ch p).irqRaise_frame ch)
  rw [State.admAccept_eq]
  exact h

/-- The channel then holds the packet, counted and running. -/
theorem State.admAccept_admch (s : State) (ch : Nat) (p : List Byte) : (s.admAccept ch p).admch ch =
    { s.admch ch with accepted := ((s.admch ch).accepted + 1) % 2 ^ 32, lastRing := 0, running := true, replyValid := false, started := false,
                      copy := p } := by
  simp only [State.admAccept_eq, State.admch, State.irqRaise_adm]
  exact tabGet_tabSet_same _ _ _ _

/-- It stands last in the hub's order. -/
theorem State.admAccept_hubOrder (s : State) (ch : Nat) (p : List Byte) :
    (s.admAccept ch p).hubOrder = dropAll s.hubOrder ch ++ [ch] := by
  rw [State.admAccept_eq, State.irqRaise_hubOrder]
  rfl

/-- A command of the row's form on an idle channel that exists is accepted and runs its checks. -/
theorem State.admCommand_new (s : State) (ch : Nat) (pkt : List Byte) (mine : List Byte → Bool) (run : State → List Byte → State)
    (he : s.chanExists ch = true) (hm : mine (chanPacket ch pkt) = true) (hw : packetWhole ch (chanPacket ch pkt) = true)
    (hb : s.admBusy ch = false) :
    s.admCommand ch pkt mine run = (s.admAccept ch (chanPacket ch pkt)).admRun ch (fun t => run t (chanPacket ch pkt)) := by
  have hr : (s.admch ch).running = false := by
    simp only [State.admBusy, Bool.or_eq_false_iff] at hb
    exact hb.1.1
  simp [State.admCommand, he, hm, hw, hb, hr]

/-- One that finds its channel busy with another command is dropped. -/
theorem State.admCommand_drop (s : State) (ch : Nat) (pkt : List Byte) (mine : List Byte → Bool) (run : State → List Byte → State)
    (he : s.chanExists ch = true) (hm : mine (chanPacket ch pkt) = true) (hw : packetWhole ch (chanPacket ch pkt) = true)
    (hb : s.admBusy ch = true) (hc : (s.admch ch).copy ≠ chanPacket ch pkt) :
    s.admCommand ch pkt mine run = s.admDrop ch := by
  simp [State.admCommand, he, hm, hw, hb, hc]

-- running

/-- An accepted command of no device-busy class that passes every check runs. -/
theorem State.admRun_passes (s : State) (ch : Nat) (run : State → State)
    (hf : frameCheck (s.admch ch).copy = none) (hd : deviceBusyOp (s.admch ch).copy = false) (hw : s.mustWait ch = false)
    (hp : s.permCode ch (s.admch ch).copy = none) (hs : s.partStateCode (s.admch ch).copy = none) :
    s.admRun ch run = run (s.updAdm ch (fun a => { a with started := true })) := by
  simp [State.admRun, hf, hd, hw, hp, hs]

/-- A packet that breaks checks 1 to 4 is refused with the first code. -/
theorem State.admRun_frame (s : State) (ch : Nat) (run : State → State) {c : Nat} (hf : frameCheck (s.admch ch).copy = some c) :
    s.admRun ch run = s.refuse ch c := by
  simp [State.admRun, hf]

/-- One that its channel may not issue is refused with check 5's code. -/
theorem State.admRun_denied (s : State) (ch : Nat) (run : State → State) {c : Nat}
    (hf : frameCheck (s.admch ch).copy = none) (hd : deviceBusyOp (s.admch ch).copy = false) (hw : s.mustWait ch = false)
    (hp : s.permCode ch (s.admch ch).copy = some c) : s.admRun ch run = s.refuse ch c := by
  simp [State.admRun, hf, hd, hw, hp]

-- replying

/-- A reply on a channel with no device-busy command: the reply, then the message of the BC channel or the interrupt asked for. -/
theorem State.reply_plain (s : State) (ch status code : Nat) (res : List Byte) (hb : (s.admch ch).busyClass = false) :
    let a := s.admch ch
    let bytes := replyBytes (pktOp a.copy) status code (a.accepted % 65536) (fieldAt a.copy 8 4) res
    let t := s.updAdm ch (fun a =>
      { a with reply := bytes, replyStatus := status, replyValid := true, running := false, started := false, busyClass := false })
    let t := { t with hubOrder := dropAll s.hubOrder ch }
    s.reply ch status code res =
      if ch = 4 then { t with bc := s.bc.send s.bc.reply (s.bcHead ++ bytes) }
      else if (fieldAt a.copy 3 1).testBit 0 then t.raise { port := ch, fn := 0, vector := 0 } else t := by
  simp only [State.reply, hb]
  rfl

end Sys2Proof.Machine
end

