-- ==== Sys2Proof/Laws/Issue.lean ====
section
/-! SUPPORT. What issuing a bundle does (R54, R76, R565): a core that can issue takes the bundle in its next free cycle; the bundle is
held, faults, or has the effects of its slots. -/

namespace Sys2Proof.Machine

/-- A cluster that has reached a cycle does not move to it. -/
theorem State.advance_reached (s : State) (i t : Nat) (ht : t ≤ (s.cl i).cycle) : s.advance i t = s := if_pos ht

/-- Putting a running core back unchanged changes nothing. -/
theorem State.updCore_self (s : State) (k : CoreId) (f : CoreSt → CoreSt) (h : (s.cl k.cl).ctx.isSome = true)
    (hr : (s.core k).run ≠ .idle) (hf : f (s.core k) = s.core k) : s.updCore k f = s := by
  have e : s.updCore k f = s.updCl k.cl (fun c => c.updCo k.core (fun x => x)) := by
    simp only [State.updCore, State.updCl, ClusterSt.updCo]
    rw [show f ((s.cl k.cl).co k.core) = (s.cl k.cl).co k.core from hf]
  rw [e]
  simp only [State.updCl]
  rw [ClusterSt.updCo_self _ _ hr]
  exact State.updCl_self s k.cl h

/-- A core that holds no data of a read takes none. -/
theorem CoreSt.takeArrived_none {c : CoreSt} (h : c.arrived = []) : c.takeArrived = c := by
  cases c
  subst h
  rfl

theorem CoreSt.held_none {c : CoreSt} (ha : c.arrived = []) (h : c.held = none) : { c.takeArrived with held := none } = c := by
  rw [CoreSt.takeArrived_none ha]
  cases c
  subst h
  rfl

/-- A core that can issue, whose next free cycle is reached and is no gap cycle, with no read's data and no parked result to take, and
whose bundle is not held, issues it: its fault, or its effects. -/
theorem State.issue_eq (s : State) (k : CoreId) (h : HostCtx) (b : Bundle)
    (hc : (s.cl k.cl).ctx = some h) (hr : (s.core k).ready = true) (hh : (s.core k).held = none)
    (ht : s.clTaped k.cl = false) (hn : (s.core k).nextFree ≤ (s.cl k.cl).cycle)
    (hg : (s.cl k.cl).issueCycle (s.cl k.cl).cycle = (s.cl k.cl).cycle) (hu : (s.core k).resuming = false)
    (ha : (s.core k).arrived = []) (hp : (s.core k).pendFault = none) (hw : holdOf (s.cl k.cl) (s.core k) b = .no) :
    s.issue k b = issueBundle (s.issueCtx k h (s.cl k.cl).cycle) b := by
  have hs : (s.cl k.cl).ctx.isSome = true := by simp [hc]
  have hrun : (s.core k).run ≠ .idle := by
    intro e
    simp [CoreSt.ready, e] at hr
  have ht' : (s.cl k.cl).issueCycle (max (s.cl k.cl).cycle (s.core k).nextFree) = (s.cl k.cl).cycle := by
    rw [Nat.max_eq_left hn, hg]
  have h0 : s.updCore k (fun c => if c.resuming then c.unpark (s.cl k.cl).cycle else c) = s :=
    State.updCore_self s k _ hs hrun (by simp [hu])
  have h1 : s.updCore k (fun c => { c.takeArrived with held := none }) = s :=
    State.updCore_self s k _ hs hrun (CoreSt.held_none ha hh)
  have h2 : s.issue k b = s.offer k h b := by
    unfold State.issue
    rw [hc]
    simp only [hr, hh, ht, Option.isNone_none, Bool.not_false, Bool.and_self, if_true]
  have h3 : s.offer k h b = issueBundle (s.issueCtx k h (s.cl k.cl).cycle) b := by
    unfold State.offer
    simp only [ht', State.advance_reached s k.cl _ (Nat.le_refl _), h0, CoreSt.takeArrived_none ha, hp, hw, h1]
  rw [h2, h3]

/-- A bundle without a fault has the effects of its slots. -/
theorem issueBundle_ok {x : IssueCtx} {b : Bundle} (hf : bundleFault x b = none) : issueBundle x b = applyBundle x b := by
  unfold issueBundle
  rw [hf]

/-- A bundle with a fault has no effect: the core faults at its PC (R76). -/
theorem issueBundle_fault {x : IssueCtx} {b : Bundle} {code : Nat} (hf : bundleFault x b = some code) :
    issueBundle x b = x.st.coreFault x.k code x.c.pc := by
  unfold issueBundle
  rw [hf]

-- what the effects of a bundle can change

/-- A core after an issue: what is in flight and the outstanding reads are kept and added to; registers, memories, instruction memory and
freeze state stay. -/
structure CoreFrame (c d : CoreSt) : Prop where
  landing : c.landing <+: d.landing
  wait : ∀ r ∈ c.wait, ∃ f g v, { r with noFill := f, sent := g, rev := v } ∈ d.wait
  rest : { d with landing := c.landing, draws := c.draws, lastVrand := c.lastVrand, mexec := c.mexec, mpend := c.mpend,
                  pendFault := c.pendFault, run := c.run, wait := c.wait, dmaq := c.dmaq, epoch := c.epoch,
                  globalEpoch := c.globalEpoch } = c

/-- The package after core `k` issued a bundle: outside its cluster only writes are added or sent, and
regulators note a chance to issue (R454); in the cluster the read cache, the
cycle's fences and reads, and what outstanding reads of its cores may fill; of core `k` what `CoreFrame` leaves open. -/
structure IssueFrame (k : CoreId) (s t : State) : Prop where
  rest : { t with clusters := s.clusters, writes := s.writes, nextWrite := s.nextWrite, regulators := s.regulators } = s
  clusters : ∀ i, i ≠ k.cl.val → t.cl i = s.cl i
  cluster : { t.cl k.cl with cores := (s.cl k.cl).cores, cache := (s.cl k.cl).cache, readNow := (s.cl k.cl).readNow,
                             fencesNow := (s.cl k.cl).fencesNow } = s.cl k.cl
  cores : ∀ j, j ≠ k.core.val → { (t.cl k.cl).co j with wait := ((s.cl k.cl).co j).wait } = (s.cl k.cl).co j
  core : CoreFrame (s.core k) (t.core k)
  writes : ∀ w ∈ s.writes, ∃ g v, { w with sent := g, rev := v } ∈ t.writes

theorem CoreFrame.refl (c : CoreSt) : CoreFrame c c := ⟨List.prefix_refl _, fun r hr => ⟨r.noFill, r.sent, r.rev, hr⟩, rfl⟩

/-- A change that leaves what is in flight and the outstanding reads. -/
theorem CoreFrame.quiet {c d : CoreSt} (hl : d.landing = c.landing) (hw : d.wait = c.wait)
    (h : { d with landing := c.landing, draws := c.draws, lastVrand := c.lastVrand, mexec := c.mexec, mpend := c.mpend,
                  pendFault := c.pendFault, run := c.run, wait := c.wait, dmaq := c.dmaq, epoch := c.epoch,
                  globalEpoch := c.globalEpoch } = c) : CoreFrame c d :=
  ⟨hl ▸ List.prefix_refl _, by rw [hw]; exact fun r hr => ⟨r.noFill, r.sent, r.rev, hr⟩, h⟩

theorem CoreFrame.trans {c d e : CoreSt} (h : CoreFrame c d) (g : CoreFrame d e) : CoreFrame c e := by
  refine ⟨h.landing.trans g.landing, fun r hr => ?_, ?_⟩
  · obtain ⟨_, _, _, hf⟩ := h.wait r hr
    obtain ⟨f, x, v, hf'⟩ := g.wait _ hf
    exact ⟨f, x, v, hf'⟩
  have h2 := h.rest
  rw [← g.rest] at h2
  exact h2

theorem IssueFrame.refl (k : CoreId) (s : State) : IssueFrame k s s :=
  ⟨rfl, fun _ _ => rfl, rfl, fun _ _ => rfl, CoreFrame.refl _, fun w hw => ⟨w.sent, w.rev, hw⟩⟩

theorem IssueFrame.trans {k : CoreId} {s t u : State} (h : IssueFrame k s t) (g : IssueFrame k t u) : IssueFrame k s u := by
  refine ⟨?_, fun i hi => (g.clusters i hi).trans (h.clusters i hi), ?_, fun j hj => ?_, h.core.trans g.core, fun w hw => ?_⟩
  · have h2 := h.rest
    rw [← g.rest] at h2
    exact h2
  · have h2 := h.cluster
    rw [← g.cluster] at h2
    exact h2
  · have h2 := h.cores j hj
    rw [← g.cores j hj] at h2
    exact h2
  · obtain ⟨_, _, hf⟩ := h.writes w hw
    obtain ⟨x, v, hf'⟩ := g.writes _ hf
    exact ⟨x, v, hf'⟩

/-- A change of core `k` alone. -/
theorem IssueFrame.updCore (k : CoreId) (s : State) (f : CoreSt → CoreSt) (hf : CoreFrame (s.core k) (f (s.core k))) :
    IssueFrame k s (s.updCore k f) := by
  refine ⟨rfl, fun i hi => State.cl_updCl_other _ _ _ _ hi, ?_, fun j hj => ?_, ?_, fun w hw => ⟨w.sent, w.rev, hw⟩⟩
  · simp [State.updCore, ClusterSt.updCo, ClusterSt.setCo]
  · simp [State.updCore, ClusterSt.co_updCo_other _ _ _ _ hj]
  · simpa using hf

/-- A change of the cluster's cache and its notes of the cycle alone. -/
theorem IssueFrame.updCl (k : CoreId) (s : State) (f : ClusterSt → ClusterSt)
    (h : ∀ c, { f c with cache := c.cache, readNow := c.readNow, fencesNow := c.fencesNow } = c) : IssueFrame k s (s.updCl k.cl f) := by
  have hco : ∀ c, (f c).cores = c.cores := fun c => (congrArg ClusterSt.cores (h c) :)
  have hco' : ∀ c j, (f c).co j = c.co j := fun c j => by unfold ClusterSt.co; rw [hco]
  refine ⟨rfl, fun i hi => State.cl_updCl_other _ _ _ _ hi, ?_, fun j _ => ?_, ?_, fun w hw => ⟨w.sent, w.rev, hw⟩⟩
  · rw [State.cl_updCl_same]
    have h1 := h (s.cl k.cl)
    rw [← hco (s.cl k.cl)]
    exact h1
  · rw [State.cl_updCl_same, hco']
  · simp only [State.core, State.cl_updCl_same, hco']
    exact CoreFrame.refl _

/-- A change of the writes and of what regulators note alone. -/
theorem IssueFrame.outside (k : CoreId) (s t : State) (hc : t.clusters = s.clusters)
    (hw : ∀ w ∈ s.writes, ∃ g v, { w with sent := g, rev := v } ∈ t.writes)
    (h : { t with clusters := s.clusters, writes := s.writes, nextWrite := s.nextWrite, regulators := s.regulators } = s) : IssueFrame k s t := by
  have hcl : ∀ i, t.cl i = s.cl i := fun i => by simp [State.cl, hc]
  refine ⟨h, fun i _ => hcl i, ?_, fun j _ => ?_, ?_, hw⟩
  · rw [hcl]
  · rw [hcl]
  · simp only [State.core, hcl]
    exact CoreFrame.refl _

theorem CoreFrame.later (c : CoreSt) (due : Nat) (w : LandKind) : CoreFrame c (c.later due w) :=
  ⟨List.prefix_append _ _, fun r hr => ⟨r.noFill, r.sent, r.rev, hr⟩, rfl⟩

theorem IssueFrame.later (k : CoreId) (s : State) (due : Nat) (w : LandKind) :
    IssueFrame k s (s.updCore k (fun c => c.later due w)) :=
  IssueFrame.updCore k s _ (CoreFrame.later _ _ _)

theorem IssueFrame.foldl {α : Type} (k : CoreId) (f : State → α → State) (hf : ∀ s a, IssueFrame k s (f s a)) (l : List α) (s : State) :
    IssueFrame k s (l.foldl f s) := by
  induction l generalizing s with
  | nil => exact IssueFrame.refl k s
  | cons a l ih => exact (hf s a).trans (ih (f s a))

/-- A chance to issue is noted by regulators alone. -/
theorem IssueFrame.tensionTried (k : CoreId) (s : State) (src : Source) (p label : Nat) (xs : List Crossing) :
    IssueFrame k s (s.tensionTried src p label xs) := by
  refine IssueFrame.foldl k _ (fun s c => ?_) _ s
  split
  · exact IssueFrame.refl _ _
  · exact IssueFrame.outside k s _ rfl (fun v hv => ⟨v.sent, v.rev, hv⟩) rfl

/-- A write enters the mesh: of the writes only whether they are sent, and under which revision, changes. -/
theorem IssueFrame.sendId (k : CoreId) (s : State) (w : FabWrite) : IssueFrame k s (s.sendId w) := by
  refine IssueFrame.outside k s _ rfl (fun v hv => ?_) rfl
  by_cases e : v.id = w.id
  · exact ⟨true, (s.part v.part).revision, List.mem_map.mpr ⟨v, hv, by simp [e]⟩⟩
  · exact ⟨v.sent, v.rev, List.mem_map.mpr ⟨v, hv, by simp [e]⟩⟩

theorem IssueFrame.trySend (k : CoreId) (s : State) (w : FabWrite) : IssueFrame k s (s.trySend w) := by
  unfold State.trySend
  split
  · exact IssueFrame.refl _ _
  · unfold State.tensionGate
    split <;> (rename_i e; obtain ⟨rfl, -⟩ := Prod.mk.inj e)
    · exact (IssueFrame.tensionTried k s _ _ _ _).trans (IssueFrame.sendId k _ _)
    · exact IssueFrame.tensionTried k s _ _ _ _

theorem IssueFrame.sendWrite (k : CoreId) (s : State) (w : FabWrite) : IssueFrame k s (s.sendWrite w) := by
  have h : IssueFrame k s { s with writes := s.writes ++ [{ w with id := s.nextWrite, sent := false }], nextWrite := s.nextWrite + 1 } :=
    IssueFrame.outside k s _ rfl (fun v hv => ⟨v.sent, v.rev, List.mem_append_left _ hv⟩) rfl
  exact h.trans (IssueFrame.trySend k _ _)

theorem CoreFrame.foldl {α : Type} (f : CoreSt → α → CoreSt) (hf : ∀ c a, CoreFrame c (f c a)) (l : List α) (c : CoreSt) :
    CoreFrame c (l.foldl f c) := by
  induction l generalizing c with
  | nil => exact CoreFrame.refl c
  | cons a l ih => exact (hf c a).trans (ih (f c a))

theorem IssueFrame.storeOut (k : CoreId) (s : State) (h : HostCtx) (addr : Nat) (data mask : List Byte) (pc : Nat) :
    IssueFrame k s (s.storeOut k h addr data mask pc) := by
  unfold State.storeOut
  refine IssueFrame.foldl k _ (fun s e => ?_) _ s
  dsimp only
  exact (IssueFrame.updCl k s (fun c => { c with cache := updateLine c.cache e.1 e.2.1 e.2.2 false }) (fun _ => rfl)).trans
    (IssueFrame.sendWrite k _ _)

theorem IssueFrame.doStore (s : State) (x : IssueCtx) (addr : Nat) (data mask : List Byte) (own other : Nat) :
    IssueFrame x.k s (s.doStore x addr data mask own other) := by
  unfold State.doStore
  split
  · refine IssueFrame.updCore x.k s _ (CoreFrame.foldl _ (fun c e => CoreFrame.later c _ _) _ _)
  · exact IssueFrame.storeOut x.k s x.h addr data mask x.c.pc
  · exact IssueFrame.refl _ _

/-- Sending a core's reads changes only whether they are sent, and under which revision. -/
theorem IssueFrame.sendReads (k : CoreId) (s : State) : IssueFrame k s (s.sendReads k) := by
  refine IssueFrame.foldl k _ (fun s r => ?_) _ s
  split
  · split
    · unfold State.tensionGate
      split <;> (rename_i e; obtain ⟨rfl, -⟩ := Prod.mk.inj e)
      · refine (IssueFrame.tensionTried k s _ _ _ _).trans (IssueFrame.updCore k _ _ ⟨List.prefix_refl _, fun x hx => ?_, rfl⟩)
        by_cases e : x = r
        · exact ⟨x.noFill, true, _, List.mem_map.mpr ⟨x, hx, by simp [e]; rfl⟩⟩
        · exact ⟨x.noFill, x.sent, x.rev, List.mem_map.mpr ⟨x, hx, by simp [e]⟩⟩
      · exact IssueFrame.tensionTried k s _ _ _ _
    · exact IssueFrame.refl _ _
  · exact IssueFrame.refl _ _

theorem IssueFrame.doLoad (s : State) (x : IssueCtx) (addr n : Nat) (d : ReadDest) (v : Bool) (own other : Nat) :
    IssueFrame x.k s (s.doLoad x addr n d v own other) := by
  unfold State.doLoad
  split
  · dsimp only
    refine IssueFrame.trans (IssueFrame.updCore x.k s _ ?_) (IssueFrame.updCl x.k _ _ (fun _ => rfl))
    cases d <;> exact CoreFrame.later _ _ _
  · dsimp only
    refine IssueFrame.trans (IssueFrame.updCore x.k s _ ?_) (IssueFrame.sendReads x.k _)
    exact ⟨List.prefix_refl _, fun r hr => ⟨r.noFill, r.sent, r.rev, List.mem_append_left _ hr⟩, rfl⟩
  · exact IssueFrame.refl _ _

theorem IssueFrame.runS (s : State) (x : IssueCtx) (t : SSlot) : IssueFrame x.k s (s.runS x t) := by
  unfold State.runS
  split
  · exact IssueFrame.later x.k s _ _
  · exact IssueFrame.refl _ _

theorem IssueFrame.runB (s : State) (x : IssueCtx) (t : BSlot) : IssueFrame x.k s (s.runB x t) := by
  unfold State.runB
  dsimp only
  split
  · exact IssueFrame.doLoad s x _ _ _ _ _ _
  · split
    · exact IssueFrame.doStore s x _ _ _ _ _
    · split
      · exact IssueFrame.later x.k s _ _
      · split
        · exact IssueFrame.updCore x.k s _ (CoreFrame.quiet rfl rfl rfl)
        · exact IssueFrame.refl _ _

theorem IssueFrame.noteDraw (s : State) (x : IssueCtx) (t : VSlot) : IssueFrame x.k s (s.noteDraw x t) := by
  unfold State.noteDraw
  split
  · exact IssueFrame.updCore x.k s _ (CoreFrame.quiet rfl rfl rfl)
  · exact IssueFrame.refl _ _

theorem IssueFrame.runV (s : State) (x : IssueCtx) (t : VSlot) : IssueFrame x.k s (s.runV x t) := by
  have hd := IssueFrame.noteDraw s x t
  unfold State.runV
  dsimp only
  generalize s.noteDraw x t = u at hd ⊢
  refine hd.trans ?_
  cases elemFmtOf t.fmt.toNat with
  | none => exact IssueFrame.refl _ _
  | some fmt =>
    dsimp only
    split
    · exact IssueFrame.doLoad u x _ _ _ _ _ _
    split
    · split
      · exact IssueFrame.refl _ _
      · exact IssueFrame.doStore u x _ _ _ _ _
    split
    · exact IssueFrame.later x.k u _ _
    split
    · exact IssueFrame.later x.k u _ _
    split
    · exact IssueFrame.later x.k u _ _
    · exact IssueFrame.later x.k u _ _

/-- Reading an operand row changes the executing MMA, the pending one and the fault it leaves. -/
theorem CoreFrame.readOperand (c : CoreSt) (r : Nat) (v : Mem × List Nat) : CoreFrame c (c.readOperand r v) := by
  unfold CoreSt.readOperand
  split
  · exact CoreFrame.refl c
  · dsimp only
    split <;> exact CoreFrame.quiet rfl rfl rfl

theorem CoreFrame.reads {c d : CoreSt} (v : Mem × List Nat) (l : List Nat) (h : CoreFrame c d) :
    CoreFrame c (l.foldl (fun k r => k.readOperand r v) d) :=
  h.trans (CoreFrame.foldl _ (fun c r => CoreFrame.readOperand c r v) l d)

/-- An MMA that starts changes its core's matrix unit alone. -/
theorem IssueFrame.mmaStart (k : CoreId) (s : State) (m : MmaRun) :
    IssueFrame k s (s.updCl k.cl (fun c => c.mmaStart k.cl k.core m)) := by
  let v := startView k.cl k.core (s.cl k.cl)
  let m' := { m with start := (s.cl k.cl).cycle, opA := leNat (memRead v.1 m.aOff m.mode.aBytes),
                     opB := leNat (memRead v.1 m.bOff m.mode.bBytes) }
  exact IssueFrame.updCore k s
    (fun c => (m'.rows.filter (fun r => decide (rowSees k.cl k.core (s.cl k.cl).cycle r = 0))).foldl (fun c r => c.readOperand r v)
      { c with mexec := some m' }) (CoreFrame.reads v _ (CoreFrame.quiet rfl rfl rfl))

theorem IssueFrame.runM (s : State) (x : IssueCtx) (t : MSlot) : IssueFrame x.k s (s.runM x t) := by
  unfold State.runM
  split
  · dsimp only
    split
    · exact IssueFrame.mmaStart x.k s _
    · exact IssueFrame.updCore x.k s _ (CoreFrame.quiet rfl rfl rfl)
  · exact IssueFrame.refl _ _

theorem IssueFrame.acquire (k : CoreId) (s : State) (start len : Nat) :
    IssueFrame k s (s.updCl k.cl (fun c => c.acquire start len)) := by
  have hco : ∀ (c : ClusterSt) (j : Nat), (c.acquire start len).co j = (c.co j).acquired start len := by
    intro c j
    unfold ClusterSt.acquire ClusterSt.co
    exact tabGet_map ({} : CoreSt) ({} : CoreSt) (fun x : CoreSt => x.acquired start len) c.cores j rfl
  refine ⟨rfl, fun i hi => State.cl_updCl_other _ _ _ _ hi, ?_, fun j _ => ?_, ?_, fun w hw => ⟨w.sent, w.rev, hw⟩⟩
  · simp [ClusterSt.acquire]
  · rw [State.cl_updCl_same, hco]
    rfl
  · simp only [State.core, State.cl_updCl_same, hco]
    refine ⟨List.prefix_refl _, fun r hr => ?_, rfl⟩
    exact ⟨r.noFill || fenceCovers start len r, r.sent, r.rev, List.mem_map.mpr ⟨r, hr, rfl⟩⟩

theorem IssueFrame.runX (s : State) (x : IssueCtx) (t : XSlot) : IssueFrame x.k s (s.runX x t) := by
  unfold State.runX
  dsimp only
  split
  · split
    · exact IssueFrame.refl _ _
    · exact IssueFrame.updCore x.k s _ (CoreFrame.quiet rfl rfl rfl)
  split
  · exact IssueFrame.updCore x.k s _ (CoreFrame.quiet rfl rfl rfl)
  split
  · exact IssueFrame.later x.k s _ _
  split
  · exact IssueFrame.later x.k s _ _
  split
  · exact IssueFrame.sendWrite x.k s _
  split
  · exact IssueFrame.acquire x.k s _ _
  split
  · exact IssueFrame.updCore x.k s _ (CoreFrame.quiet rfl rfl rfl)
  split
  · exact (IssueFrame.acquire x.k s _ _).trans (IssueFrame.updCore x.k _ _ (CoreFrame.quiet rfl rfl rfl))
  · exact IssueFrame.refl _ _

/-- The bookkeeping of an issue, and the state each slot in turn works on. -/
def issued (x : IssueCtx) (b : Bundle) : State := x.st.updCore x.k (fun c => (c.nextPc (takenBranch x b)).counted x.t (bundleBeats x b))
def afterS (x : IssueCtx) (b : Bundle) : State := if sOn x b then (issued x b).runS x b.s else issued x b
def afterB (x : IssueCtx) (b : Bundle) : State := if bOn x b then (afterS x b).runB x b.b else afterS x b
def afterV (x : IssueCtx) (b : Bundle) : State := if vOn x b then (afterB x b).runV x b.v else afterB x b
def afterM (x : IssueCtx) (b : Bundle) : State := if b.m.op = 1 then (afterV x b).runM x b.m else afterV x b

theorem applyBundle_eq (x : IssueCtx) (b : Bundle) :
    applyBundle x b = if xOn x b then (afterM x b).runX x b.x else afterM x b := rfl

theorem IssueFrame.afterS (x : IssueCtx) (b : Bundle) : IssueFrame x.k (Machine.issued x b) (Machine.afterS x b) := by
  unfold Machine.afterS
  split
  · exact IssueFrame.runS _ x _
  · exact IssueFrame.refl _ _

theorem IssueFrame.afterB (x : IssueCtx) (b : Bundle) : IssueFrame x.k (Machine.afterS x b) (Machine.afterB x b) := by
  unfold Machine.afterB
  split
  · exact IssueFrame.runB _ x _
  · exact IssueFrame.refl _ _

theorem IssueFrame.afterV (x : IssueCtx) (b : Bundle) : IssueFrame x.k (Machine.afterB x b) (Machine.afterV x b) := by
  unfold Machine.afterV
  split
  · exact IssueFrame.runV _ x _
  · exact IssueFrame.refl _ _

theorem IssueFrame.afterM (x : IssueCtx) (b : Bundle) : IssueFrame x.k (Machine.afterV x b) (Machine.afterM x b) := by
  unfold Machine.afterM
  split
  · exact IssueFrame.runM _ x _
  · exact IssueFrame.refl _ _

theorem IssueFrame.afterX (x : IssueCtx) (b : Bundle) : IssueFrame x.k (Machine.afterM x b) (applyBundle x b) := by
  rw [applyBundle_eq]
  split
  · exact IssueFrame.runX _ x _
  · exact IssueFrame.refl _ _

/-- Everything that may change in the slots' effects from the B slot on. -/
theorem IssueFrame.fromB (x : IssueCtx) (b : Bundle) : IssueFrame x.k (Machine.afterS x b) (applyBundle x b) :=
  ((IssueFrame.afterB x b).trans (IssueFrame.afterV x b)).trans ((IssueFrame.afterM x b).trans (IssueFrame.afterX x b))

/-- Everything that may change in the effects of the V, M and X slots. -/
theorem IssueFrame.fromV (x : IssueCtx) (b : Bundle) : IssueFrame x.k (Machine.afterB x b) (applyBundle x b) :=
  (IssueFrame.afterV x b).trans ((IssueFrame.afterM x b).trans (IssueFrame.afterX x b))

/-- Everything that may change in the effects of the M and X slots. -/
theorem IssueFrame.fromM (x : IssueCtx) (b : Bundle) : IssueFrame x.k (Machine.afterV x b) (applyBundle x b) :=
  (IssueFrame.afterM x b).trans (IssueFrame.afterX x b)

/-- Everything that the effects of a bundle can change after the bookkeeping of its issue. -/
theorem IssueFrame.applyBundle (x : IssueCtx) (b : Bundle) : IssueFrame x.k (Machine.issued x b) (applyBundle x b) :=
  (IssueFrame.afterS x b).trans (IssueFrame.fromB x b)

/-- A core keeps what it had in flight. -/
theorem IssueFrame.keeps {k : CoreId} {s t : State} (f : IssueFrame k s t) {e : Landing} (he : e ∈ (s.core k).landing) :
    e ∈ (t.core k).landing := f.core.landing.subset he

end Sys2Proof.Machine
end

