-- ==== Sys2Proof/Laws/Save.lean ====
section
/-! SUPPORT. The sizes of the save records (R82, R423, R425, R426), and what the accesses of an agent over a range of PLA space do where
every address of the range has a place: a read returns, and a write completes. -/

namespace Sys2Proof.Machine

-- lengths

@[simp] theorem leBytes_length (n v : Nat) : (leBytes n v).length = n := by
  induction n generalizing v with
  | zero => rfl
  | succ n ih => simp [leBytes, ih]

@[simp] theorem zeros_length (n : Nat) : (zeros n).length = n := List.length_replicate

@[simp] theorem padTo_length (n : Nat) (bs : List Byte) : (padTo n bs).length = n := by
  simp only [padTo, List.length_append, List.length_take, zeros_length]; omega

@[simp] theorem memRead_length (m : Mem) (a n : Nat) : (memRead m a n).length = n := by
  induction n generalizing a with
  | zero => rfl
  | succ n ih => simp [memRead, ih]

@[simp] theorem natRange_length (a n : Nat) : (natRange a n).length = n := by
  induction n generalizing a with
  | zero => rfl
  | succ n ih => simp [natRange, ih]

/-- Pieces of one size. -/
theorem flatMap_length {α β : Type} (f : α → List β) (n : Nat) (h : ∀ a, (f a).length = n) (l : List α) :
    (l.flatMap f).length = n * l.length := by
  induction l with
  | nil => rfl
  | cons a l ih => simp only [List.flatMap_cons, List.length_append, List.length_cons, ih, h, Nat.mul_add]; omega

@[simp] theorem poisonBytes_length (rows n : Nat) (poison : List Nat) : (poisonBytes rows n poison).length = n := by
  simp [poisonBytes]

/-- A core's record has the size of its layout (R82). -/
theorem CoreSt.record_length (k : CoreSt) : k.record.length = 0x70A00 := by
  simp only [CoreSt.record, List.length_append, leBytes_length, zeros_length, padTo_length, memRead_length,
    flatMap_length _ 8 (fun _ => leBytes_length 8 _), flatMap_length _ 256 (fun _ => leBytes_length 256 _),
    flatMap_length _ 4 (fun _ => leBytes_length 4 _), flatMap_length _ 512 (fun _ => padTo_length 512 _), natRange_length]

/-- A cluster's record has the size of its layout (R426). -/
theorem ClusterSt.record_length (c : ClusterSt) (vc rcache : Nat) (ws : List FabWrite) : (c.record vc rcache ws).length = clusterRecordLen := by
  simp only [ClusterSt.record, List.length_append, leBytes_length, zeros_length, padTo_length, poisonBytes_length,
    flatMap_length _ 8 (fun _ => leBytes_length 8 _), flatMap_length _ 128 (fun _ => poisonBytes_length _ 128 _),
    flatMap_length _ 0x70A00 (fun _ => CoreSt.record_length _), natRange_length, clusterRecordLen]

/-- A save area has the size that the driver gives its object (R423, R425). -/
theorem saveBytes_length (c n kind : Nat) (w : Bool) (rev image : Nat) (loop cls : List Byte) (h : cls.length = n * clusterRecordLen) :
    (saveBytes c n kind w rev image loop cls).length = saveLen n := by
  simp only [saveBytes, saveLen, List.length_append, leBytes_length, zeros_length, padTo_length, h]

-- accesses over a range that has places

/-- The states resolve and refuse the same addresses. -/
structure SameMap (s t : State) : Prop where
  pool : t.pool = s.pool
  recov : t.recov = s.recov
  parts : t.parts = s.parts
  ports : ∀ i, (t.port i).hdmBase = (s.port i).hdmBase ∧ (t.port i).failed = (s.port i).failed

theorem SameMap.refl (s : State) : SameMap s s := ⟨rfl, rfl, rfl, fun _ => ⟨rfl, rfl⟩⟩

theorem SameMap.trans {s t u : State} (h : SameMap s t) (g : SameMap t u) : SameMap s u :=
  ⟨g.pool.trans h.pool, g.recov.trans h.recov, g.parts.trans h.parts,
    fun i => ⟨(g.ports i).1.trans (h.ports i).1, (g.ports i).2.trans (h.ports i).2⟩⟩

theorem SameMap.chanRefuses {s t : State} (h : SameMap s t) (ch : Nat) : t.chanRefuses ch = s.chanRefuses ch := by
  simp only [State.chanRefuses, State.chTaped, State.chEntry, h.pool, h.recov]
  rfl

theorem SameMap.locatePla {s t : State} (h : SameMap s t) (p pla : Nat) :
    t.locatePla (t.part p).pat pla = s.locatePla (s.part p).pat pla := by
  have hp : t.part p = s.part p := by rw [State.part, State.part, h.parts]
  have hg : ∀ l, t.groupLost l = s.groupLost l := fun l => by simp only [State.groupLost, State.chEntry, h.pool]
  rw [hp]
  unfold State.locatePla State.plaRefuses
  simp only [h.chanRefuses, hg]

theorem SameMap.snoopLine (s : State) (ch : Nat) (g : Bool) (l : Nat) : SameMap s (s.snoopLine ch g l) := by
  unfold State.snoopLine State.fresh
  by_cases h : (!hasNat (s.chan ch).hostLines l) = true
  · simp only [h, if_true]; exact .refl s
  · simp only [h]; exact ⟨rfl, rfl, rfl, fun _ => ⟨rfl, rfl⟩⟩

theorem SameMap.snoopRange (s : State) (ch off n : Nat) (g : Bool) : SameMap s (s.snoopRange ch off n g) := by
  unfold State.snoopRange
  generalize (if g = true then _ else _ : List Nat) = l
  induction l generalizing s with
  | nil => exact .refl s
  | cons a l ih => exact (SameMap.snoopLine s ch g a).trans (ih _)

theorem SameMap.snoopRead (s : State) (l : Loc) (n : Nat) : SameMap s (s.snoopRead l n) := by
  cases l with
  | chan ch off => exact .snoopRange s ch off n false
  | host port a => exact .refl s

theorem SameMap.writeLoc (s : State) (l : Loc) (data mask : List Byte) (poisoned : Bool) : SameMap s (s.writeLoc l data mask poisoned) := by
  cases l with
  | chan ch off => exact (SameMap.snoopRange s ch off data.length true).trans ⟨rfl, rfl, rfl, fun _ => ⟨rfl, rfl⟩⟩
  | host port a =>
    refine ⟨rfl, rfl, rfl, fun i => ?_⟩
    simp only [State.writeLoc, State.port, State.updPort, tabGet_tabSet]
    split
    · next h => subst h; exact ⟨rfl, rfl⟩
    · exact ⟨rfl, rfl⟩

/-- Bytes that regulators count change regulators alone. -/
theorem State.served_only (s : State) (src : Source) (p label : Nat) (xs : List Crossing) (n : Nat) :
    { s.served src p label xs n with regulators := s.regulators } = s := by
  unfold State.served
  induction xs generalizing s with
  | nil => rfl
  | cons c xs ih => exact (congrArg (fun t : State => { t with regulators := s.regulators }) (ih (s.setReg c.reg _))).trans rfl

theorem SameMap.servedAt (s : State) (v : Via) (p : Nat) (l : Loc) (w : Bool) (n : Nat) : SameMap s (s.servedAt v p l w n) := by
  have h := s.served_only v.src p v.label (s.crossings p v.node v.src l w) n
  have hp : (s.servedAt v p l w n).ports = s.ports := (congrArg State.ports h :)
  exact ⟨(congrArg State.pool h :), (congrArg State.recov h :), (congrArg State.parts h :),
    fun i => by rw [State.port, State.port, hp]; exact ⟨rfl, rfl⟩⟩

theorem SameMap.routeHpa {s t : State} (h : SameMap s t) (p hpa : Nat) : t.routeHpa p hpa = s.routeHpa p hpa := by
  have hp : t.part p = s.part p := by rw [State.part, State.part, h.parts]
  have hl : ∀ x, t.locatePla (s.part p).pat x = s.locatePla (s.part p).pat x := fun x => hp ▸ h.locatePla p x
  unfold State.routeHpa
  simp only [hp, (h.ports _).1, (h.ports _).2, hl]

/-- An address of an agent, a PLA or an HPA, lies in a place that serves it. -/
def State.landsAt (s : State) (p addr : Nat) (l : Loc) : Prop :=
  (addr / 2 ^ 60 = 1 ∧ bitsAt addr 59 44 = 0 ∧ s.locatePla (s.part p).pat (addr % 2 ^ 44) = .ok l) ∨
  (addr / 2 ^ 60 = 9 ∧ bitsAt addr 59 52 = 0 ∧ s.routeHpa p (addr % 2 ^ 52) = .ok l)

theorem SameMap.landsAt {s t : State} (h : SameMap s t) {p a : Nat} {l : Loc} (r : s.landsAt p a l) : t.landsAt p a l :=
  r.imp (fun ⟨a, b, e⟩ => ⟨a, b, (h.locatePla p _).trans e⟩) (fun ⟨a, b, e⟩ => ⟨a, b, (h.routeHpa p _).trans e⟩)

theorem State.landsAt_pla (s : State) (p a : Nat) {l : Loc} (ha : a < 2 ^ 44) (e : s.locatePla (s.part p).pat a = .ok l) :
    s.landsAt p (plaAddr a) l := by
  refine .inl ⟨?_, ?_, ?_⟩
  · simp only [plaAddr]; omega
  · simp only [bitsAt, plaAddr]; omega
  · have h3 : plaAddr a % 2 ^ 44 = a := by simp only [plaAddr]; omega
    rw [h3, e]

theorem State.agentLoc_lands (s : State) (p c a : Nat) (w hub : Bool) (lab : Option Nat) {l : Loc} (r : s.landsAt p a l) :
    s.agentLoc p c a w hub lab = (s, .ok l) := by
  obtain ⟨h1, h2, e⟩ | ⟨h1, h2, e⟩ := r <;> simp only [State.agentLoc, h1, h2, e, reduceIte, Nat.reduceEqDiff, ne_eq, not_true_eq_false]

/-- A write over addresses that have places completes. -/
theorem State.agentWrite_lands (p c : Nat) (poisoned hub : Bool) (lab : Option Nat) (fuel : Nat) (a : Nat) (bs : List Byte) (s : State)
    (r : ∀ i, i < bs.length → ∃ l, s.landsAt p (a + i) l) : ∃ t, agentWriteFrom p c poisoned hub lab fuel a bs s = (t, .ok ()) := by
  induction fuel generalizing a bs s with
  | zero => exact ⟨s, rfl⟩
  | succ fuel ih =>
    cases bs with
    | nil => exact ⟨s, by simp [agentWriteFrom]⟩
    | cons b bs =>
      obtain ⟨l, hr⟩ := r 0 (Nat.succ_pos _)
      have hl := s.agentLoc_lands p c a true hub lab hr
      simp only [agentWriteFrom, hl, List.isEmpty_cons, Bool.false_eq_true, if_false]
      generalize hm : min (b :: bs).length (256 - a % 256) = m
      refine ih _ _ _ (fun i hi => ?_)
      simp only [List.length_drop] at hi
      obtain ⟨k, hk⟩ := r (m + i) (by omega)
      exact ⟨k, ((SameMap.writeLoc s _ _ _ _).trans (SameMap.servedAt _ _ _ _ _ _)).landsAt (by simpa only [Nat.add_assoc] using hk)⟩

/-- A write over a range of PLA space that has places completes. -/
theorem State.agentWrite_pla (p c : Nat) (poisoned hub : Bool) (lab : Option Nat) (fuel : Nat) (a : Nat) (bs : List Byte) (s : State)
    (ha : a + bs.length ≤ 2 ^ 44) (r : ∀ i, i < bs.length → ∃ l, s.locatePla (s.part p).pat (a + i) = .ok l) :
    ∃ t, agentWriteFrom p c poisoned hub lab fuel (plaAddr a) bs s = (t, .ok ()) := by
  refine s.agentWrite_lands p c poisoned hub lab fuel _ bs fun i hi => ?_
  obtain ⟨l, e⟩ := r i hi
  exact ⟨l, by simpa only [plaAddr, Nat.add_assoc] using s.landsAt_pla p (a + i) (by omega) e⟩

-- what a read over a range of one channel returns

theorem memRead_append (m : Mem) (a n k : Nat) : memRead m a (n + k) = memRead m a n ++ memRead m (a + n) k := by
  induction n generalizing a with
  | zero => simp [memRead]
  | succ n ih => rw [Nat.succ_add, memRead, memRead, ih, List.cons_append, Nat.add_assoc, Nat.add_comm 1 n]

/-- A field that lies within the bytes read is the memory's. -/
theorem fieldAt_memRead (m : Mem) (a n off size : Nat) (h : off + size ≤ n) : fieldAt (memRead m a n) off size = leNat (memRead m (a + off) size) := by
  obtain ⟨k, rfl⟩ : ∃ k, n = off + (size + k) := ⟨n - (off + size), by omega⟩
  simp [fieldAt, memRead_append]

/-- Nothing of a range of addresses is with the host, and it lies on one channel from an offset on, clean. -/
structure State.plain (s : State) (p ch addr a n : Nat) : Prop where
  place : ∀ i, i < n → s.landsAt p (addr + i) (.chan ch (a + i))
  away : (s.chan ch).hostLines = []
  clean : (s.chan ch).poison = []
  sound : (s.chan ch).ecc = []

theorem State.plain.served {s t : State} {p ch addr a n : Nat} (r : s.plain p ch addr a n) (h : { t with regulators := s.regulators } = s) :
    t.plain p ch addr a n := by
  have hq : t.ports = s.ports := (congrArg State.ports h :)
  have hm : SameMap s t := ⟨(congrArg State.pool h :), (congrArg State.recov h :), (congrArg State.parts h :),
    fun i => by rw [State.port, State.port, hq]; exact ⟨rfl, rfl⟩⟩
  have hc : t.chan ch = s.chan ch := (congrArg (fun u : State => u.chan ch) h :)
  exact ⟨fun i hi => hm.landsAt (r.place i hi), hc ▸ r.away, hc ▸ r.clean, hc ▸ r.sound⟩

/-- A read over such a range returns the channel's bytes, clean; only regulators change. -/
theorem State.agentRead_plain (p c ch : Nat) (hub : Bool) (lab : Option Nat) (fuel addr a n : Nat) (s : State)
    (r : s.plain p ch addr a n) (hf : n ≤ 256 * fuel - addr % 256) (h0 : n = 0 ∨ 0 < fuel) :
    ∃ t, agentReadFrom p c hub lab fuel addr n s = (t, .ok (memRead (s.chan ch).mem a n, false)) ∧
      { t with regulators := s.regulators } = s := by
  induction fuel generalizing addr a n s with
  | zero =>
    have : n = 0 := by omega
    subst this; exact ⟨s, rfl, rfl⟩
  | succ fuel ih =>
    by_cases hn : n = 0
    · subst hn; exact ⟨s, by simp [agentReadFrom, memRead], rfl⟩
    · have hl := s.agentLoc_lands p c addr false hub lab (by simpa using r.place 0 (by omega))
      have hs : ∀ m, s.snoopRead (.chan ch a) m = s := fun m => by
        simp [State.snoopRead, State.snoopRange, ChannelSt.dirtyLines, ChannelSt.heldLines, r.away, hasNat, List.filter_eq_nil_iff.mpr]
      have hk : ∀ m, s.eccRead (.chan ch a) m = s := fun m => by simp [State.eccRead, r.sound]
      simp only [agentReadFrom, hn, if_false, hl, hs, hk]
      generalize hm : min n (256 - addr % 256) = m
      have hu := s.served_only (s.agentVia p c hub lab).src p (s.agentVia p c hub lab).label
        (s.crossings p (s.agentVia p c hub lab).node (s.agentVia p c hub lab).src (.chan ch a) false) m
      change { s.servedAt (s.agentVia p c hub lab) p (.chan ch a) false m with regulators := s.regulators } = s at hu
      generalize s.servedAt (s.agentVia p c hub lab) p (.chan ch a) false m = u at hu
      have hc : u.chan ch = s.chan ch := (congrArg (fun u : State => u.chan ch) hu :)
      have hz : n - m = 0 ∨ (addr + m) % 256 = 0 := by omega
      have r2 : u.plain p ch (addr + m) (a + m) (n - m) :=
        State.plain.served ⟨fun i hi => by simpa only [Nat.add_assoc] using r.place (m + i) (by omega), r.away, r.clean, r.sound⟩ hu
      obtain ⟨t, ht, hr⟩ := ih (addr + m) (a + m) (n - m) u r2 (by omega) (by omega)
      rw [ht]
      have hkm : m + (n - m) = n := by omega
      refine ⟨t, ?_, ?_⟩
      · simp only [State.readLoc, hc, r.clean, ← memRead_append, hkm]
        simp [anyPoison, hasNat, ChannelSt.uncorrectableAt, r.sound, tabGet]
      · exact (congrArg (fun v : State => { v with regulators := s.regulators }) hr).trans hu

/-- A whole read over such a range returns the channel's bytes, clean. -/
theorem State.agentRead_range (s : State) (p c ch addr a n : Nat) (r : s.plain p ch addr a n) (hub : Bool := false) (lab : Option Nat := none) :
    ∃ t, s.agentRead p c addr n hub lab = (t, .ok (memRead (s.chan ch).mem a n, false)) ∧ { t with regulators := s.regulators } = s :=
  s.agentRead_plain p c ch hub lab _ addr a n r (by omega) (by omega)

end Sys2Proof.Machine
end

