-- ==== Sys2Proof/Laws/Reports.lean ====
section
/-! SUPPORT. Lengths of reports (R515 to R518) and of a partition's descriptor (R279), whatever the free values in them are. -/

namespace Sys2Proof.Machine

@[simp] theorem beBytes_length (n v : Nat) : (beBytes n v).length = n := by simp [beBytes]

@[simp] theorem PartSt.bytes_length (x : PartSt) (p : Nat) : (x.bytes p).length = 64 := by
  simp only [PartSt.bytes, List.length_append, leBytes_length, zeros_length]

@[simp] theorem patchAt_length (bs : List Byte) (off : Nat) (new : List Byte) (h : off + new.length ≤ bs.length) :
    (patchAt bs off new).length = bs.length := by
  simp only [patchAt, List.length_append, padTo_length, List.length_drop]; omega

@[simp] theorem FwSt.meas_length (f : FwSt) : f.meas.length = 256 := by
  have h : ((natRange 0 4).flatMap (fun d => padTo 32 (tabGet [] f.seqDigest d))).length = 128 := by
    rw [flatMap_length _ 32 (fun d => padTo_length 32 (tabGet [] f.seqDigest d)), natRange_length]
  simp only [FwSt.meas, List.length_append, padTo_length, zeros_length, h]

@[simp] theorem State.reportBody_length (s : State) (p leaf : Nat) (nonce : List Byte) : (s.reportBody p leaf nonce).length = 0x270 := by
  unfold State.reportBody
  generalize hx : (if p < 64 then (s.part p).bytes p else zeros 64) = x
  have h : x.length = 64 := by subst hx; split <;> simp
  simp only [idPub, List.length_append, leBytes_length, zeros_length, padTo_length, FwSt.meas_length, h]

@[simp] theorem FwSt.reportSig_length (f : FwSt) (lower : Nat) (body : List Byte) : (f.reportSig lower body).length = 5556 := by
  have h (x : List Byte) : (patchAt (padTo 2828 x) 0 (beBytes 4 lower)).length = 2828 := by rw [patchAt_length] <;> simp
  simp only [FwSt.reportSig, List.length_append, beBytes_length, padTo_length, h]

/-- A report has 11,648 bytes (R516). -/
@[simp] theorem State.reportOf_length (s : State) (p leaf : Nat) (nonce : List Byte) : (s.reportOf p leaf nonce).length = 11648 := by
  simp only [State.reportOf, List.length_append, State.reportBody_length, FwSt.reportSig_length, zeros_length, padTo_length]

@[simp] theorem State.takeReport_length (s : State) (p : Nat) (nonce : List Byte) : (s.takeReport p nonce).2.length = 11648 :=
  State.reportOf_length _ _ _ _

end Sys2Proof.Machine
end

