-- ==== Sys2Proof/Machine/Keys.lean ====
section
/-! DEFINITION. The encryption of HBM (R300-R302): which key a channel's data is under, the tweak of a location, and what its DRAM cells
hold of the plaintext that the state keeps. The keys are fixed at manufacture, and nothing reads them. -/

namespace Sys2Proof.Machine

/-- A key of the hub's store (R300). -/
inductive HbmKey where
  | slot (part : Nat)
  | kv
  | management
  deriving DecidableEq, Repr

/-- The key's place in the store: slots 0 to 63, then the KV key and the management key. -/
def HbmKey.place : HbmKey → Nat
  | .slot p => p
  | .kv => 64
  | .management => 65

/-- The key that a channel's data is under, with the generation of its tweak; none where its key is not enabled, and at debug level 2 (R293,
R300, R301). -/
def State.chanKey (s : State) (ch : Nat) : Option (HbmKey × Nat) :=
  let e := s.chEntry ch
  let aux (i : Nat) : Bool := (fieldAt s.prs.regs 0x44 1).testBit i && decide (s.prs.debugLevel ≠ 2)
  match e.state with
  | .bound => if s.keyActive e.owner then some (.slot e.owner, (s.part e.owner).generation) else none
  | .stripping => if e.toBound && s.keyActive e.owner then some (.slot e.owner, (s.part e.owner).generation) else none
  | .reserved =>
    if hasNat s.prs.kvChans ch then (if aux 0 then some (.kv, s.kv.keyGen) else none)
    else (if aux 1 then some (.management, 0) else none)
  | .free | .disabled | .retired => none

/-- The tweak of a location (R301): location index, channel number, generation, in 16 little-endian bytes. -/
def hbmTweak (ch loc gen : Nat) : List Byte := leBytes 16 (loc % 2 ^ 24 + ch % 2 ^ 9 * 2 ^ 24 + gen % 2 ^ 16 * 2 ^ 48)

/-- Multiplication by α in the field of IEEE 1619, on a 16-byte little-endian value. -/
def mulAlpha (t : List Byte) : List Byte :=
  let v := 2 * leNat t
  leBytes 16 (if 2 ^ 128 ≤ v then (v - 2 ^ 128) ^^^ 0x87 else v)

/-- Bytes exclusive-or'd in pairs. -/
def xorBytes (a b : List Byte) : List Byte := (a.zip b).map (fun x => x.1 ^^^ x.2)

/-- The blocks of a data unit under XTS: block j with the encrypted tweak multiplied by α^j (R301). -/
def xtsBlocks (key : List Byte) : Nat → List Byte → List Byte → List Byte
  | 0, _, _ => []
  | n + 1, t, data => xorBytes (Config.aesBlock key (xorBytes (padTo 16 data) t)) t ++ xtsBlocks key n (mulAlpha t) (data.drop 16)

/-- A 256-byte location as XTS stores it: the first half of the key pair encrypts the data, the second the tweak. -/
def xtsUnit (k : HbmKey) (ch loc gen : Nat) (data : List Byte) : List Byte :=
  let pair := Config.hbmKey k.place
  xtsBlocks (pair.take 32) 16 (Config.aesBlock (pair.drop 32) (hbmTweak ch loc gen)) data

/-- What the DRAM cells of a channel's location hold: its plaintext where no key is enabled. -/
def State.dramUnit (s : State) (ch loc : Nat) : List Byte :=
  let data := memRead (s.chan ch).mem (256 * loc) 256
  match s.chanKey ch with
  | some (k, gen) => xtsUnit k ch loc gen data
  | none => data

end Sys2Proof.Machine
end

