-- ==== Sys2Proof/Tests/Slice0.lean ====
section
/-! SUPPORT. Tests of one step each, and, for every statement with hypotheses, a state and operands that meet them. -/

namespace Sys2Proof.Test
open Sys2Proof.Machine Sys2Proof.Claim

set_option Elab.async false

/-- The next state of an outcome; reset where it has none. -/
def after (c : Instr) (s : State) : State :=
  match exec c s with
  | .next t => t
  | _ => State.reset

/-- A partition owned by HP0: root and one VD on cluster 0, and channel 0 at PLA 0. -/
def part0 : PartSt :=
  { pstate := .enabled, generation := 3,
    desc := { ownerPort := 0, enable := true, keyActive := true, ctxMax := 256, clusterCap := 192, channelCap := 320, linkCap := 24 },
    pat := { vds := [{ node := 1, clusters := [0] }], map := [{ node := 2, base := 0, chans := [0] }], top := 3000000000 } }

/-- Admin-ready, with the board controller's address assigned, HP0 the pool manager, and P0 holding a cluster and a channel. -/
def ready : State :=
  { phase := .ready, bc := { address := some 9 },
    prs := { regs := [1, 0, 0, 0, 1] ++ zeros 11 ++ leBytes 16 0x180140C0 ++ leBytes 2 0x8001 ++ zeros 94 },
    pool := { clusters := [(0, { state := .bound })], channels := [(0, { state := .bound })], sequence := 1 },
    parts := [(0, part0)], ports := [(0, { modules := 3, hdmBase := some 0, numVfs := 64 })] }

/-- A command packet: opcode, target, parameters. -/
def pk (op target : Nat) (ps : List Byte) : List Byte :=
  leBytes 2 op ++ leBytes 1 target ++ leBytes 1 0 ++ leBytes 4 ps.length ++ leBytes 4 7 ++ zeros 20 ++ ps

/-- The checks of `Admitted`, evaluated. -/
def admittedB (s : State) (ch : Fin 5) (pkt : List Byte) : Bool :=
  s.chanExists ch && decide (s.phase = .ready) && !(s.admch ch).running && !(s.admch ch).deviceBusy
    && packetWhole ch (chanPacket ch pkt) && (frameCheck (chanPacket ch pkt)).isNone
    && !(s.admAccept ch (chanPacket ch pkt)).mustWait ch && (s.permCode ch (chanPacket ch pkt)).isNone
    && (s.partStateCode (chanPacket ch pkt)).isNone

theorem admitted_of {s : State} {ch : Fin 5} {pkt : List Byte} (h : admittedB s ch pkt = true) : Admitted s ch pkt := by
  simp only [admittedB, Bool.and_eq_true, Bool.not_eq_true', decide_eq_true_eq, Option.isNone_iff_eq_none] at h
  obtain ⟨⟨⟨⟨⟨⟨⟨⟨a, b⟩, c⟩, d⟩, e⟩, f⟩, g⟩, i⟩, j⟩ := h
  exact ⟨a, b, c, d, e, f, g, i, j⟩

theorem test_identify_admitted : Admitted ready 4 (pk 1 0xFF []) := admitted_of (by decide +kernel)
theorem test_host_admitted : Admitted ready 0 (pk 0x0101 5 (zeros 64)) := admitted_of (by decide +kernel)

-- bundles of the worked kernel of chapter 2, written out from the layouts of R42 to R47

/-- `mma a0, [s1], [s2], afmt=e4m3, bfmt=e4m3, zero=1` beside `addi s1, s1, 2048`. -/
theorem test_bundle_mma_addi :
    bundleOf (1 <<< 252 ||| 1 <<< (160 + 26) ||| 1 <<< (160 + 18) ||| 2 <<< (160 + 13) ||| 3 <<< (160 + 9) ||| 3 <<< (160 + 5) |||
      1 <<< (160 + 3) ||| 0x02 <<< 40 ||| 1 <<< 31 ||| 1 <<< 26 ||| 2048) =
    { m := { op := 1, sa := 1, sb := 2, afmt := 3, bfmt := 3, zero := true }, s := { op := 0x02, rd := 1, ra := 1, imm := 2048 } } := by
  decide +kernel

/-- `vmova v3, a0, row 63`: row in imm[5:0], tile in imm[8:6]. -/
theorem test_bundle_vmova :
    bundleOf (1 <<< 252 ||| 0x24 <<< (96 + 56) ||| 3 <<< (96 + 46) ||| 63 <<< 96) = { v := { op := 0x24, vd := 3, imm := 63 } } := by
  decide +kernel

/-- `dma [s4] := [s3], length s5, queue 0, flags=C, counter 5`. -/
theorem test_bundle_dma :
    bundleOf (1 <<< 252 ||| 0x01 <<< (192 + 50) ||| 3 <<< (192 + 41) ||| 4 <<< (192 + 36) ||| 5 <<< (192 + 31) ||| 5 <<< (192 + 25) |||
      4 <<< (192 + 16)) = { x := { op := 0x01, sa := 3, sb := 4, sl := 5, cnt := 5, flags := 4 } } := by
  decide +kernel

/-- A branch under the negation of p2 with offset -3: the B slot's imm is 26 bits. -/
theorem test_bundle_br :
    bundleOf (1 <<< 252 ||| 0x01 <<< (48 + 40) ||| 2 <<< (48 + 37) ||| 1 <<< (48 + 36) ||| 0x3FFFFFD <<< 48) =
    { b := { op := 0x01, pred := 2, pneg := true, imm := -3 } } := by
  decide +kernel

-- the manual's worked examples

/-- The window address of core K07 of vc40, offset 0x1_2340 (chapter 4). -/
theorem test_window_address : addrOf 0x2028138000012340 = some (.wa 40 (some 7) 0x12340) := by decide +kernel
/-- The WA of offset 0x1_0000 in vc1's cluster memory (chapter 4). -/
theorem test_window_address_cmem : addrOf 0x2001000000010000 = some (.wa 1 none 0x10000) := by decide +kernel
/-- PLA 0x5_9683_0A40 of a map of 8 and 4 channels resolves to CH202 at 0x640 (chapter 5). -/
theorem test_resolve : ({ map := [{ node := 2, base := 0, chans := [0, 1, 2, 3, 4, 5, 6, 7] },
    { node := 3, base := 0x59682F000, chans := [200, 201, 202, 203] }], top := 36000000000 } : Pattern).resolve 0x596830A40 =
    some (202, 0x640) := by decide +kernel
/-- Fence 7 in its first generation (R377). -/
theorem test_handle : ({ dir := some { base := 0, fences := 64, memobjs := 64 } } : PartSt).handle 3 7 = 0x30010007 := by decide +kernel
/-- The save area of a VD of 16 clusters (chapter 12). -/
theorem test_save_area : saveLen 16 = 304644096 := by decide +kernel
/-- The record of a point at 105.5 degrees (R371). -/
theorem test_temp_record : ({ State.reset with sensors := { temps := [(3, some 6752)] } } : State).tempRecord 0 3 =
    leBytes 4 0x00031A60 := by decide +kernel
/-- 0x3FA6_6666 to FP4 under stochastic rounding: 1.5 below the threshold, 1.0 above (chapter 3). -/
theorem test_stochastic_fp4 : narrowElem .fp4 false false (rndOf 1 0x40000000) 0x3FA66666 = 3 ∧
    narrowElem .fp4 false false (rndOf 1 0xA0000000) 0x3FA66666 = 2 := by decide +kernel
/-- One rounding of 4096 + 2^-12 + 2^-12 (chapter 3). -/
theorem test_one_rounding : fpSum .nearestEven [fp32Val 0x45800000, .fin false 1 (-12), .fin false 1 (-12)] = 0x45800001 := by decide +kernel
/-- 2.5 to INT8 gives 2 (R120). -/
theorem test_tie_to_even : narrowElem .int8 false false .nearestEven 0x40200000 = 2 := by decide +kernel
/-- The worked rib block: row 0, column 0 of the tile is 0x3D80_0000 (chapter 3). -/
theorem test_rib_block :
    (⟨.e4m3, .fp4, false, false, true, 2⟩ : MmaMode).result (leNat (List.replicate 64 0x38#8 ++ zeros 4032 ++ List.replicate 128 0x7F#8))
      (leNat ([0x00, 0x50, 0, 0, 0, 0, 0xE0] ++ zeros 2041 ++ [0x7A, 0x20])) 0 0 0 = 0x3D800000 := by decide +kernel
/-- The worked coded FP4 frame: 0x62 0x17 under lengths 1, 2, 3, 3 (chapter 5). -/
theorem test_coded_frame :
    readSymbols ⟨16, 4, [1, 2, 3, 3], [0, 1, 9, 2]⟩ (⟨16, 4, [1, 2, 3, 3], [0, 1, 9, 2]⟩ : CodeTable).codes 0x1762 8 0 =
      .ok [0, 1, 0, 0, 9, 2, 0, 1] := by rfl
/-- Signed division of the most negative value by -1 (R57). -/
theorem test_division_corners : (0x8000000000000000#64).sdiv (-1) = 0x8000000000000000#64 ∧
    (0x8000000000000000#64).srem (-1) = 0 := by decide +kernel

-- well-formed commands, and an ill-formed one for each check

theorem test_wf_bundle : (Instr.add ⟨0, 0⟩ { s := { op := 0x01 } }).wf = true := by decide
theorem test_ill_format : (Instr.add ⟨0, 0⟩ { format := 2, s := { op := 0x01 } }).wf = false := by decide
theorem test_ill_reserved : (Instr.add ⟨0, 0⟩ { rsv := 1, s := { op := 0x01 } }).wf = false := by decide
theorem test_ill_opcode : (Instr.add ⟨0, 0⟩ { s := { op := 0x02 } }).wf = false := by decide
theorem test_wf_admin : (Instr.identify 4 (pk 1 0xFF [])).wf = true := by decide +kernel
theorem test_ill_short_packet : (Instr.identify 4 [1]).wf = false := by decide +kernel
theorem test_ill_long_packet : (Instr.fwStageWrite 4 (pk 0x0704 0xFF (leBytes 4 2 ++ zeros 4061)) true).wf = false := by decide +kernel
theorem test_ill_packet_length : (Instr.inventory 4 (pk 2 0xFF (zeros 8) ++ [0])).wf = false := by decide +kernel
theorem test_ill_packet_opcode : (Instr.status 4 (pk 1 0xFF [])).wf = false := by decide +kernel
theorem test_ill_sub_operation : (Instr.commitSvn 4 (pk 0x0705 0xFF (leBytes 8 1))).wf = false := by decide +kernel
theorem test_ill_data_length : (Instr.cxlMemWrite 0 0 [] false).wf = false := by decide
theorem test_ill_address : (Instr.cxlMemRead 0 8).wf = false := by decide
theorem test_ill_point : (Instr.sensorRound [(1076, none)]).wf = false := by decide
theorem test_ill_rails : (Instr.railSample []).wf = false := by decide
theorem test_table_word : decodeTableWord 0 0 = none ∧ State.reset.withFetchWord 0 0 = State.reset := ⟨rfl, rfl⟩

-- a core that can issue

def k00 : CoreId := ⟨0, 0⟩
def hc : HostCtx := { part := 0, ctx := 0, queue := 0, vd := 1, vc := 0, n := 1, formats := 0x7FF, rcache := 0, seed := 5 }

/-- Cluster 0 hosts context 0 of P0; its core 0 runs. -/
def withCore (c : CoreSt) : State :=
  { ready with clusters := [(0, { ctx := some hc, cycle := 100, cores := [(0, { c with run := .running })] })] }

/-- s1 = 5 and s2 = -7; v1 all ones; a tile address in s3. -/
def core1 : CoreSt :=
  { sregs := [(1, 5), (2, -7), (3, 0x100), (4, 0x400000), (5, 256)], vregs := [(1, ofLanes (List.replicate 64 0x3F800000))], pc := 10 }

/-- The conditions of `CanIssue`, evaluated. -/
def canIssueB (s : State) (k : CoreId) (h : HostCtx) : Bool :=
  decide ((s.cl k.cl).ctx = some h) && !s.clTaped k.cl && decide ((s.core k).run = .running) && !(s.core k).frozen
    && decide ((s.core k).wait = []) && decide ((s.core k).held = none) && decide ((s.core k).nextFree ≤ (s.cl k.cl).cycle)
    && decide ((s.cl k.cl).cycle % 16 ≥ (s.cl k.cl).gap) && decide ((s.core k).arrived = []) && !(s.core k).resuming
    && decide ((s.core k).pendFault = none)

theorem canIssue_of {s : State} {k : CoreId} {h : HostCtx} (e : canIssueB s k h = true) : CanIssue s k h := by
  simp only [canIssueB, Bool.and_eq_true, Bool.not_eq_true', decide_eq_true_eq] at e
  obtain ⟨⟨⟨⟨⟨⟨⟨⟨⟨⟨a, b⟩, c⟩, d⟩, f⟩, g⟩, i⟩, l⟩, m⟩, n⟩, j⟩ := e
  exact ⟨a, b, c, d, f, g, i, l, m, n, j⟩

/-- The conditions of `Issues`, evaluated. -/
def issuesB (s : State) (k : CoreId) (h : HostCtx) (b : Bundle) : Bool :=
  canIssueB s k h && decide (holdOf (s.cl k.cl) (s.core k) b = .no) && (bundleFault (seen s k h) b).isNone

theorem issues_of {s : State} {k : CoreId} {h : HostCtx} {b : Bundle} (e : issuesB s k h b = true) : Issues s k h b := by
  simp only [issuesB, Bool.and_eq_true, decide_eq_true_eq, Option.isNone_iff_eq_none] at e
  exact ⟨canIssue_of e.1.1, e.1.2, e.2⟩

/-- What the core has in flight after a command. -/
def flying (c : Instr) (s : State) : List (Nat × LandKind) := ((after c s).core k00).landing.map (fun l => (l.due, l.what))

theorem test_hyp_scalar : ∀ r ∈ sRows, Issues (withCore core1) k00 hc { s := { op := r.op, rd := 1 } } ∧
    predOn ((withCore core1).core k00) 0 false = true :=
  fun r h => ⟨issues_of (List.all_eq_true.mp (show (sRows.all fun r =>
    issuesB (withCore core1) k00 hc { s := { op := r.op, rd := 1 } }) = true by decide +kernel) r h), by decide +kernel⟩
theorem test_hyp_predicate : ∀ t ∈ [({ op := 0x20, rd := 1, ra := 1, rb := 2 } : SSlot), { op := 0x21, rd := 7 }, { op := 0x22 }, { op := 0x23 },
    { op := 0x24 }, { op := 0x25 }, { op := 0x33, ra := 1 }, { op := 0x32, rd := 1, ra := 7 }, { op := 0x31, ra := 1, imm := 8 },
    { op := 0x30, rd := 1 }, { op := 0x30, imm := 1 }, { op := 0x30, imm := 2 }, { op := 0x30, imm := 3 }, { op := 0x30, imm := 4 },
    { op := 0x30, imm := 5 }, { op := 0x30, imm := 8 }, { op := 0x30, imm := 11 }], Issues (withCore core1) k00 hc { s := t } := by
  intro t h
  refine issues_of ?_
  revert t; decide +kernel
theorem test_hyp_branch : ∀ t ∈ [({ op := 1, imm := 3 } : BSlot), { op := 2, ra := 1, imm := 3 }, { op := 2, imm := 3 }, { op := 3, ra := 1, imm := 3 },
    { op := 3, imm := 3 }, { op := 5, imm := 3 }, { op := 6, ra := 1 }, { op := 0x18 }], Issues (withCore core1) k00 hc { b := t } := by
  intro t h
  refine issues_of ?_
  revert t; decide +kernel
theorem test_hyp_memory : (∀ r ∈ loadRows, Issues (withCore core1) k00 hc { b := { op := r.op, rd := 1, ra := 3 } }) ∧
    (∀ r ∈ storeRows, Issues (withCore core1) k00 hc { b := { op := r.2.1, rd := 2, ra := 3 } }) := by
  constructor <;> intro r h <;> refine issues_of ?_
  · exact List.all_eq_true.mp (show (loadRows.all fun r => issuesB (withCore core1) k00 hc { b := { op := r.op, rd := 1, ra := 3 } }) = true
      by decide +kernel) r h
  · exact List.all_eq_true.mp (show (storeRows.all fun r => issuesB (withCore core1) k00 hc { b := { op := r.2.1, rd := 2, ra := 3 } }) = true
      by decide +kernel) r h
/-- A load from another cluster and one of a PLA leave the cluster. -/
theorem test_hyp_memory_outside : Issues (withCore { core1 with sregs := [(6, 0x1000000000000000)] }) k00 hc { b := { op := 0x0B, rd := 1, ra := 6 } } ∧
    resolves (withCore { core1 with sregs := [(6, 0x1000000000000000)] }) k00 hc 0x1000000000000000 8 = some (.pla 0) :=
  ⟨issues_of (by decide +kernel), by decide +kernel⟩
theorem test_hyp_vector : (∀ r ∈ vRows, Issues (withCore core1) k00 hc { v := { op := r.op, vd := 2 } }) ∧
    (∀ r ∈ vWide, Issues (withCore core1) k00 hc { v := { op := r.op, vd := 2, fmt := if r.op = 0x10 then 1 else 0 } }) := by
  constructor <;> intro r h <;> refine issues_of ?_
  · exact List.all_eq_true.mp (show (vRows.all fun r => issuesB (withCore core1) k00 hc { v := { op := r.op, vd := 2 } }) = true
      by decide +kernel) r h
  · exact List.all_eq_true.mp (show (vWide.all fun r => issuesB (withCore core1) k00 hc
      { v := { op := r.op, vd := 2, fmt := if r.op = 0x10 then 1 else 0 } }) = true by decide +kernel) r h
theorem test_hyp_vector_moves : ∀ t ∈ [({ op := 0x09, vd := 1, va := 1 } : VSlot), { op := 0x1F, va := 1, sreg := 1 }, { op := 0x25, va := 1 },
    { op := 0x20, vd := 1, sreg := 3 }, { op := 0x21, va := 1, sreg := 3 }, { op := 0x21, va := 1, sreg := 3, fmt := 1 }],
    Issues (withCore core1) k00 hc { v := t } := by
  intro t h
  refine issues_of ?_
  revert t; decide +kernel
theorem test_hyp_frame : Issues (withCore core1) k00 hc { s := { op := 1, rd := 1 } } ∧
    (Instr.add k00 { s := { op := 1, rd := 1 } }).shape = .bundle k00 { s := { op := 1, rd := 1 } } 1 1 :=
  ⟨issues_of (by decide +kernel), rfl⟩
/-- An undefined S opcode faults as ILLEGAL_BUNDLE. -/
theorem test_hyp_fault : CanIssue (withCore core1) k00 hc ∧ bundleFault (seen (withCore core1) k00 hc) { s := { op := 0x7F } } = some 0x8410 :=
  ⟨canIssue_of (by decide +kernel), by decide +kernel⟩

/-- An E4M3 MMA on tiles at 0 and 0x800. -/
def mma1 : Bundle := { m := { op := 1, sa := 0, sb := 0, afmt := 3, bfmt := 3, zero := true } }
def run1 (st : Nat) : MmaRun := { mode := ⟨.e4m3, .e4m3, false, false, true, 0⟩, acc := 0, aOff := 0, bOff := 0, pc := 9, start := st }

theorem test_hyp_mma : Issues (withCore core1) k00 hc mma1 ∧ Issues (withCore { core1 with mexec := some (run1 50) }) k00 hc mma1 :=
  ⟨issues_of (by decide +kernel), issues_of (by decide +kernel)⟩
theorem test_hyp_mma_pending : let s := withCore { core1 with mexec := some (run1 0), mpend := some (run1 0) }
    let t := s.updCl 0 (fun c => { c with cycle := 255 })
    (t.core k00).mexec = some (run1 0) ∧ (t.core k00).mpend = some (run1 0) ∧ (t.cl 0).cycle + 1 = (run1 0).start + 256 := by decide +kernel
theorem test_hyp_fabric : ∀ t ∈ [({ op := 0x01, sa := 3, sb := 4, sl := 5 } : XSlot), { op := 0x01, sa := 3, sb := 4 },
    { op := 0x02, sa := 3 }, { op := 0x08, imm := 0x8001 }, { op := 0x09, sl := 1, cnt := 63 }, { op := 0x0A, sb := 9, cnt := 63 },
    { op := 0x0B, cnt := 3 }, { op := 0x0C, sa := 1, sb := 6, cnt := 2 }, { op := 0x10, sa := 7, sl := 5 }, { op := 0x11 },
    { op := 0x12, sa := 7, sl := 5 }],
    Issues (withCore { core1 with sregs := core1.sregs ++ [(6, 0x2000000000000000), (7, 0x1000000000000000)] }) k00 hc { x := t } := by
  intro t h
  refine issues_of ?_
  revert t; decide +kernel
theorem test_hyp_held : let b : Bundle := { x := { op := 0x0B, sl := 1 } }
    CanIssue (withCore core1) k00 hc ∧ holdOf ((withCore core1).cl 0) ((withCore core1).core k00) b = .held :=
  ⟨canIssue_of (by decide +kernel), by decide +kernel⟩
theorem test_hyp_released : let b : Bundle := { x := { op := 0x08, imm := 1 } }
    let s := withCore { core1 with held := some b }
    CanIssue (s.updCore k00 (fun c => { c with held := none })) k00 hc ∧ holdOf (s.cl 0) (s.core k00) b = .no ∧
    bundleFault (seen (s.updCore k00 (fun c => { c with held := none })) k00 hc) b = none :=
  ⟨canIssue_of (by decide +kernel), by decide +kernel, by decide +kernel⟩
theorem test_hyp_result : ((withCore { core1 with landing := [⟨101, .scalar 1 9, 0⟩] }).core k00).landing = [⟨((withCore core1).cl 0).cycle + 1, .scalar 1 9, 0⟩] ∧
    isResult (.scalar 1 9) = true := by decide +kernel

-- what an operation leaves in flight, or does

theorem test_add : flying (.add k00 { s := { op := 1, rd := 1, ra := 1, rb := 2 } }) (withCore core1) = [(101, .scalar 1 (-2))] := by decide +kernel
theorem test_div_overflow : flying (.div k00 { s := { op := 0x12, rd := 3, ra := 1, rb := 2 } })
    (withCore { core1 with sregs := [(1, 0x8000000000000000), (2, -1)] }) = [(120, .scalar 3 0x8000000000000000)] := by decide +kernel
theorem test_div_zero : flying (.rem k00 { s := { op := 0x14, rd := 3, ra := 1 } }) (withCore core1) = [(120, .scalar 3 5)] := by decide +kernel
theorem test_mulh : flying (.mulh k00 { s := { op := 0x11, rd := 3, ra := 1, rb := 2 } }) (withCore core1) = [(103, .scalar 3 (-1))] := by decide +kernel
theorem test_lis : flying (.lis k00 { s := { op := 7, rd := 1, ra := 1, imm := 0x1FFFFF } }) (withCore core1) =
    [(101, .scalar 1 0xBFFFFF)] := by decide +kernel
theorem test_sra : flying (.srai k00 { s := { op := 0x0D, rd := 1, ra := 2, imm := 1 } }) (withCore core1) = [(101, .scalar 1 (-4))] := by decide +kernel
theorem test_cmp_signed : flying (.cmp k00 .lt { s := { op := 0x22, rd := 1, ra := 2, rb := 1 } }) (withCore core1) =
    [(101, .pred 1 (-1) (-1))] := by decide +kernel
theorem test_cmp_unsigned : flying (.cmp k00 .ltu { s := { op := 0x23, rd := 1, ra := 2, rb := 1 } }) (withCore core1) =
    [(101, .pred 1 0 (-1))] := by decide +kernel
theorem test_call : ((after (.call k00 { b := { op := 5, imm := -4 } }) (withCore core1)).core k00).brTarget = 6 ∧
    flying (.call k00 { b := { op := 5, imm := -4 } }) (withCore core1) = [(101, .scalar 31 13)] := by decide +kernel
theorem test_store : flying (.st k00 .h { b := { op := 0x11, rd := 2, ra := 3 } }) (withCore core1) =
    [(104, .store (some 0) 0x100 [0xF9, 0xFF] [])] := by decide +kernel
theorem test_visible : ((after (.resultVisible k00) (withCore { core1 with landing := [⟨101, .scalar 1 9, 0⟩] })).core k00).sreg 1 = 9 := by decide +kernel
theorem test_zero_register : ((after (.resultVisible k00) (withCore { core1 with landing := [⟨101, .scalar 0 9, 0⟩] })).core k00).sreg 0 = 0 := by
  decide +kernel

-- events of cores, DMA, fabric

/-- The value of an answer that is no error. -/
def okOf {ε α : Type} : Except ε α → Option α
  | .ok a => some a
  | .error _ => none

/-- The code of an answer that is an error. -/
def errOf {ε α : Type} : Except ε α → Option ε
  | .ok _ => none
  | .error e => some e

/-- What a function that also changes the state answers: a state for it. -/
theorem answers {α β : Type} {x : α × β} {b : β} (h : x.2 = b) : ∃ u, x = (u, b) := ⟨x.1, Prod.ext rfl h⟩

/-- A read of 8 bytes of PLA 0 into s1. -/
def read0 : OutRead := { addr := 0x1000000000000000, len := 8, dest := .scalar 1 8 false, gen := 3, sent := true }
/-- A DMA entry of 512 bytes from PLA 0 to the own scratchpad. -/
def dma0 : DmaEntry := { ix := false, src := 0x1000000000000000, dst := 0, len := 512, flags := 4, cnt := 0, pc := 0 }
/-- A store to offset 0 of the cluster memory of vc0, an MSG to it, and a store to PLA 0. -/
def store0 : FabWrite :=
  { id := 5, k := k00, part := 0, vd := 1, rev := 0, gen := 3, msg := false, addr := 0x2000000000000000, data := [1, 2], sent := true,
    served := true }
def storePla : FabWrite := { store0 with addr := 0x1000000000000000 }

theorem test_hyp_outside_read : let s := withCore { core1 with wait := [read0] }
    read0.sent = true ∧ read0.faulted = false ∧
    ∃ u bs, readRows k00 hc read0.rev read0.volatile (!read0.noFill) (s.writeRanges k00 s.nextWrite) 3 0 read0.addr read0.len s =
      (u, .data bs false) := by
  intro s
  obtain ⟨u, h⟩ := answers (show (readRows k00 hc read0.rev read0.volatile (!read0.noFill) (s.writeRanges k00 s.nextWrite) 3 0 read0.addr
    read0.len s).2 = .data (zeros 8) false by decide +kernel)
  exact ⟨rfl, rfl, u, _, h⟩
theorem test_hyp_no_wait : (withCore { core1 with wait := [read0] }).vaWaits 0 0 0 read0.addr read0.len false = false ∧
    (let e : DmaEntry := { dma0 with started := true, total := 2 }
     let s := withCore { core1 with dmaq := [(0, [e])] }
     s.vaWaits 0 0 0 (dma0.src + 256) 256 false = false ∧ s.vaWaits 0 0 0 (dma0.dst + 256) 256 true = false ∧ s.txRoom k00 e 1 = true) := by
  decide +kernel
/-- The 257th VA access of a cluster waits (R427). -/
theorem test_access_257 :
    let f (i : Nat) : DmaFault := { tx := i, onWrite := false, addr := 2 ^ 63, dst := 0, n := 8 }
    (withCore { core1 with dmaq := [(0, [{ dma0 with faulted := (natRange 0 256).map f }])] }).vaWaits 0 0 0 (2 ^ 63) 8 true = true ∧
    (withCore { core1 with dmaq := [(0, [{ dma0 with faulted := (natRange 0 255).map f }])] }).vaWaits 0 0 0 (2 ^ 63) 8 true = false := by
  decide +kernel
/-- The data of a read is there for the next bundle (R55). -/
theorem test_read_arrives :
    let t := after (.outsideReadArrives k00 .data) (withCore { core1 with sregs := [(1, 5)], wait := [read0] })
    (t.core k00).wait = [] ∧ (t.core k00).sreg 1 = 5 ∧ (t.core k00).takeArrived.sreg 1 = 0 := by decide +kernel
theorem test_hyp_takes_data : Issues ((withCore { core1 with arrived := [.scalar 1 9] }).updCore k00 CoreSt.takeArrived) k00 hc
    { s := { op := 1, rd := 1 } } := issues_of (by decide +kernel)
theorem test_core_stop : ((after (.coreStop k00) { ready with clusters := [(0, { ctx := some hc, cores := [(0, { run := .halting })] })] }).core k00).run =
    .stopped := by decide +kernel
theorem test_hyp_dma_start : let s := withCore { core1 with dmaq := [(0, [dma0])] }
    nextStart ((s.core k00).dma 0) = some (0, dma0) ∧ okOf (startCheck s k00 hc dma0) = some 2 := by decide +kernel
theorem test_hyp_freeze : let s := withCore { core1 with frozen := true }
    (s.core k00).frozen = true ∧ (s.core k00).fzDone = false ∧ (s.core k00).run = .running ∧ (s.core k00).wait = [] ∧
    (s.core k00).pendFault = none ∧ (s.core k00).resuming = false ∧ (s.core k00).nextFree ≤ (s.cl 0).cycle ∧ (s.part 0).batches = [] := by
  decide +kernel
theorem txRev_same {s : State} {h : HostCtx} {e : DmaEntry} (g : (s.part h.part).revision = e.rev) : (s.txRev h e).1 = e.rev := by
  simp only [State.txRev, g, ite_self]

theorem test_hyp_dma_transaction : let e : DmaEntry := { dma0 with started := true, total := 2 }
    let s := withCore { core1 with dmaq := [(0, [e])] }
    s.txRoom k00 e 0 = true ∧ ∃ g u v, s.txGate k00 hc e 0 e.src e.dst = (g, true) ∧
      (g.txRev hc e).2.dmaRead k00 hc (g.txRev hc e).1 e.src 256 false (e.busyRanges (g.core k00) 0) 0 = (u, .data (zeros 256) false) ∧
      dmaWrite k00 hc (g.txRev hc e).1 false (e.busyRanges (g.core k00) 0) 3 e.dst (zeros 256) u = (v, .ok []) := by
  intro e s
  refine ⟨by decide +kernel, (s.txGate k00 hc e 0 e.src e.dst).1, ?_⟩
  have hg : (s.txGate k00 hc e 0 e.src e.dst).2 = true := by decide +kernel
  have hr : ((s.txGate k00 hc e 0 e.src e.dst).1.txRev hc e).1 = 0 := txRev_same (by decide +kernel)
  have hb : e.busyRanges ((s.txGate k00 hc e 0 e.src e.dst).1.core k00) 0 = [] := by decide +kernel
  simp only [hr, hb]
  obtain ⟨u, h⟩ := answers (show (((s.txGate k00 hc e 0 e.src e.dst).1.txRev hc e).2.dmaRead k00 hc 0 e.src 256 false [] 0).2 =
    .data (zeros 256) false by decide +kernel)
  have hu : u = (((s.txGate k00 hc e 0 e.src e.dst).1.txRev hc e).2.dmaRead k00 hc 0 e.src 256 false [] 0).1 := by rw [h]
  subst hu
  obtain ⟨v, g⟩ := answers (show (dmaWrite k00 hc 0 false [] 3 e.dst (zeros 256)
    (((s.txGate k00 hc e 0 e.src e.dst).1.txRev hc e).2.dmaRead k00 hc 0 e.src 256 false [] 0).1).2 = .ok [] by decide +kernel)
  exact ⟨_, v, Prod.ext rfl hg, h, g⟩
theorem test_hyp_write_lands : let s := { withCore core1 with writes := [store0] }
    s.findWrite 5 = some store0 ∧ addrOf store0.addr = some (.wa 0 none 0) ∧ s.writeReady store0 = true ∧ store0.moved = false ∧
    store0.served = true ∧ store0.place = (0, 0) ∧ (s.cl 0).landedNow = [] ∧ (s.cl 0).readNow = false ∧ store0.mask = [] := by decide +kernel
theorem test_hyp_write_performed : let w := { storePla with served := false }
    let s := { withCore core1 with writes := [w] }
    s.findWrite 5 = some w ∧ addrOf w.addr = some (.pla 0) ∧ s.writeReady w = true ∧ w.moved = false ∧ w.served = false ∧
    s.writeAnswer w = .serve 0 0 ∧ (s.chan 0).heldLines 0 2 = [] ∧ Mem.wf (s.chan 0).mem = true := by decide +kernel
/-- After the pattern has moved, a write under a revision that is neither the current nor the previous one. -/
theorem test_hyp_moved : let w := { store0 with served := false, rev := 4 }
    let pat := { part0.pat with vds := [{ node := 1, clusters := [1] }] }
    let s := { withCore core1 with writes := [w], parts := [(0, { part0 with revision := 5, prev := some pat })] }
    s.findWrite 5 = some w ∧ s.writeReady w = true ∧ w.moved = false ∧ s.writeAnswer w = .moved := by decide +kernel
/-- A write that its target answered MOVED goes out again (R256). -/
theorem test_reissue : let s := { withCore core1 with writes := [{ store0 with served := false, moved := true }] }
    (after (.movedReissue 5) s).writes = [{ store0 with served := false, moved := false }] := by decide +kernel
theorem test_message_lands : let s := { withCore core1 with writes := [{ store0 with msg := true, cnt := 3, data := zeros 7 ++ [9] }] }
    (after (.remoteWriteLands 5) s).counts = [{ cl := 0, cnt := 3, amount := 1 }] ∧ memGet ((after (.remoteWriteLands 5) s).cl 0).cmem 7 = 9 := by
  decide +kernel
theorem test_counter_stops : let c : ClusterSt := { ctx := some hc, cnt := [(1, 2 ^ 48 - 3)] }
    let s := { ready with counts := [{ cl := 0, cnt := 1, amount := 9 }], clusters := [(0, c)] }
    tabGet 0 ((after (.countedArrival 0) s).cl 0).cnt 1 % 2 ^ 48 = 2 ^ 48 - 1 := by decide +kernel
theorem test_hyp_fence : let w := { store0 with sent := false, served := false, epoch := 1 }
    let s := { withCore { core1 with epoch := 1 } with writes := [w] }
    (s.core k00).released < (s.core k00).epoch ∧ s.epochBusy k00 (s.core k00).released = false ∧ w.k = k00 ∧ w.sent = false ∧
    w.epoch = (s.core k00).released + 1 ∧ s.trackRoom 0 1 = true ∧ s.regulators = [] := by decide +kernel
/-- No regulator has told anything. -/
theorem unheld_of {s : State} (h : s.regulators = []) (src : Source) (p label : Nat) : Unheld s src p label := by
  intro c e he
  simp [State.heard, State.reg, h, tabGet] at he
theorem test_hyp_unheld : Unheld ready (clSource 0) 0 0 := unheld_of (by decide +kernel) _ _ _
/-- A store of the issuing core inside its cluster that has not landed holds back what follows its FENCE.REL (R152). -/
theorem test_landing_holds : (withCore { core1 with epoch := 1, landing := [⟨103, .store none 0 [1] [], 0⟩] }).epochBusy k00 0 = true := by
  decide +kernel

-- HBM channels and frames

theorem test_hyp_channel : ready.chanAnswers 0 11718749 = true ∧ ready.chanRefuses 0 = none ∧ (ready.chan 0).heldLines 0 256 = [] ∧
    Mem.wf (ready.chan 0).mem = true ∧ (∀ x ∈ ready.channels, x.2.reports = []) ∧ tabGet 0 (ready.chan 0).ecc 11718749 ≤ 2 := by decide +kernel
theorem test_hyp_channel_held : let s := { ready with channels := [(0, { hostLines := [3] })] }
    s.chanAnswers 0 0 = true ∧ s.chanRefuses 0 = none ∧ (s.chan 0).heldLines 0 256 = [3] := by decide +kernel
theorem test_hyp_channel_refused : let s := { ready with pool := { ready.pool with channels := [(0, { state := .stripping })] } }
    s.chanAnswers 0 0 = true ∧ s.chanRefuses 0 = some 0x8201 := by decide +kernel
theorem test_channel_uncorrectable : let c := (after (.channelRead 0 0 .uncorrectable) ready).chan 0
    c.readData = zeros 256 ∧ c.readPoison = true ∧ c.uncorrectable = 1 ∧ tabGet 0 c.ecc 0 = 2 ∧ c.reports = [] := by decide +kernel
theorem test_hyp_record : ready.plaAnswer 0 (ready.part 0).revision 512 = .serve 0 512 ∧ (ready.chan 0).dirtyLines 512 256 = [] ∧
    ready.poolRoom (chDie 0) = true ∧
    (let s := { ready with channels := [(0, { hostLines := [8] })] }
     s.plaAnswer 0 (s.part 0).revision 512 = .serve 0 512 ∧ (s.chan 0).dirtyLines 512 256 = [8]) := by decide +kernel
theorem test_hyp_parity : ready.hubRuns = true ∧ (parityTimes (tabGet [] (ready.chan 0).parity 63) ready.ticks).length ≤ 64 ∧
    let s := { ready with pool := { ready.pool with channels := [] }, channels := [(0, { parity := [(63, List.replicate 64 0)] })] }
    s.hubRuns = true ∧ (parityTimes (tabGet [] (s.chan 0).parity 63) s.ticks).length > 64 ∧ (s.chEntry 0).state = .free ∧
    (s.chEntry 0).retireAs = 0 := by decide +kernel
/-- A transaction that waits at its stop takes the entry that frees (R179). -/
theorem test_hyp_tracker : let w := { store0 with sent := false, served := false }
    let s := { withCore core1 with writes := [w] }
    w.k.cl.val = 48 * 0 + 0 ∧ w.sent = false ∧ w.epoch ≤ (s.core w.k).released ∧ s.trackRoom 0 1 = true ∧ s.regulators = [] ∧
    (after (.trackerEntryFreed 0 (.cluster 0)) s).writes = [{ w with sent := true }] := by decide +kernel

/-- The check register of R184 over a string, from a value. -/
def crcFrom (c : Nat) (bs : List Byte) : Nat := bs.foldl (fun c b => Nat.repeat crcBit 8 (c ^^^ (b.toNat * 256))) c

theorem crcFrom_append (c : Nat) (a b : List Byte) : crcFrom c (a ++ b) = crcFrom (crcFrom c a) b := by
  simp only [crcFrom, List.foldl_append]

theorem zeros_224 : zeros 224 = zeros 32 ++ (zeros 32 ++ (zeros 32 ++ (zeros 32 ++ (zeros 32 ++ (zeros 32 ++ zeros 32))))) := by decide +kernel

/-- A skip frame, with its check. -/
def frameSkip : List Byte := leBytes 14 0 ++ leBytes 2 16872 ++ leBytes 16 0 ++ zeros 224

theorem frameSkip_check : checkOk frameSkip 14 = true := by
  have e : padTo 256 (patchAt frameSkip 14 [0#8, 0#8]) = (leBytes 14 0 ++ zeros 2 ++ leBytes 16 0) ++ zeros 224 := by decide +kernel
  have c : crcFrom 0xFFFF ((leBytes 14 0 ++ zeros 2 ++ leBytes 16 0) ++ zeros 224) = 16872 := by
    rw [zeros_224]
    simp only [crcFrom_append]
    rw [show crcFrom 0xFFFF (leBytes 14 0) = 43370 by decide +kernel, show crcFrom 43370 (zeros 2) = 27146 by decide +kernel,
      show crcFrom 27146 (leBytes 16 0) = 61772 by decide +kernel,
      show crcFrom 61772 (zeros 32) = 55002 by decide +kernel,
      show crcFrom 55002 (zeros 32) = 35372 by decide +kernel,
      show crcFrom 35372 (zeros 32) = 61450 by decide +kernel,
      show crcFrom 61450 (zeros 32) = 1352 by decide +kernel,
      show crcFrom 1352 (zeros 32) = 33778 by decide +kernel,
      show crcFrom 33778 (zeros 32) = 46877 by decide +kernel,
      show crcFrom 46877 (zeros 32) = 16872 by decide +kernel]
  unfold checkOk
  rw [e]
  show (crcFrom 0xFFFF _ == _) = true
  rw [c]
  decide +kernel

/-- A raw frame of the bytes 7, 8, 9 at offset 0, with its check. -/
def frameRaw : List Byte := leBytes 14 196610 ++ leBytes 2 26859 ++ leBytes 16 591879 ++ zeros 224

theorem frameRaw_check : checkOk frameRaw 14 = true := by
  have e : padTo 256 (patchAt frameRaw 14 [0#8, 0#8]) = (leBytes 14 196610 ++ zeros 2 ++ leBytes 16 591879) ++ zeros 224 := by decide +kernel
  have c : crcFrom 0xFFFF ((leBytes 14 196610 ++ zeros 2 ++ leBytes 16 591879) ++ zeros 224) = 26859 := by
    rw [zeros_224]
    simp only [crcFrom_append]
    rw [show crcFrom 0xFFFF (leBytes 14 196610) = 23095 by decide +kernel, show crcFrom 23095 (zeros 2) = 42944 by decide +kernel,
      show crcFrom 42944 (leBytes 16 591879) = 34609 by decide +kernel,
      show crcFrom 34609 (zeros 32) = 62108 by decide +kernel,
      show crcFrom 62108 (zeros 32) = 60522 by decide +kernel,
      show crcFrom 60522 (zeros 32) = 1975 by decide +kernel,
      show crcFrom 1975 (zeros 32) = 35908 by decide +kernel,
      show crcFrom 35908 (zeros 32) = 24322 by decide +kernel,
      show crcFrom 24322 (zeros 32) = 40768 by decide +kernel,
      show crcFrom 40768 (zeros 32) = 26859 by decide +kernel]
  unfold checkOk
  rw [e]
  show (crcFrom 0xFFFF _ == _) = true
  rw [c]
  decide +kernel

/-- A frame of an undefined kind, with its check. -/
def frameBad : List Byte := leBytes 14 5 ++ leBytes 2 34227 ++ leBytes 16 0 ++ zeros 224

theorem frameBad_check : checkOk frameBad 14 = true := by
  have e : padTo 256 (patchAt frameBad 14 [0#8, 0#8]) = (leBytes 14 5 ++ zeros 2 ++ leBytes 16 0) ++ zeros 224 := by decide +kernel
  have c : crcFrom 0xFFFF ((leBytes 14 5 ++ zeros 2 ++ leBytes 16 0) ++ zeros 224) = 34227 := by
    rw [zeros_224]
    simp only [crcFrom_append]
    rw [show crcFrom 0xFFFF (leBytes 14 5) = 12206 by decide +kernel, show crcFrom 12206 (zeros 2) = 17148 by decide +kernel,
      show crcFrom 17148 (leBytes 16 0) = 56627 by decide +kernel,
      show crcFrom 56627 (zeros 32) = 16803 by decide +kernel,
      show crcFrom 16803 (zeros 32) = 5112 by decide +kernel,
      show crcFrom 5112 (zeros 32) = 2185 by decide +kernel,
      show crcFrom 2185 (zeros 32) = 31028 by decide +kernel,
      show crcFrom 31028 (zeros 32) = 29027 by decide +kernel,
      show crcFrom 29027 (zeros 32) = 64628 by decide +kernel,
      show crcFrom 64628 (zeros 32) = 34227 by decide +kernel]
  unfold checkOk
  rw [e]
  show (crcFrom 0xFFFF _ == _) = true
  rw [c]
  decide +kernel

theorem test_hyp_frame_skip : frameParse frameSkip = .ok .skip := by
  unfold frameParse
  simp only [frameSkip_check]
  rfl
theorem test_hyp_frame_raw : frameParse frameRaw = .ok (.raw 0 [7, 8, 9]) := by
  unfold frameParse
  simp only [frameRaw_check]
  rfl
theorem test_hyp_frame_bad : frameParse frameBad = .error .header := by
  unfold frameParse
  simp only [frameBad_check]
  rfl

/-- A W entry over one frame at PLA 0. -/
def frameS (bs : List Byte) : State :=
  { withCore { core1 with dmaq := [(0, [{ dma0 with flags := 8, started := true, total := 1 }])] } with
    channels := [(0, { mem := memWrite [] 0 bs })] }

theorem test_hyp_frame_place : let e : DmaEntry := { dma0 with flags := 8, started := true, total := 1 }
    let s := frameS frameRaw
    let g := (s.txGate k00 hc e 0 e.src e.dst).1
    s.txGate k00 hc e 0 e.src e.dst = (g, true) ∧ (g.txRev hc e).1 = 0 ∧ (s.core k00).dma 0 = [e] ∧ e.isW = true ∧ (s.core k00).fzDone = false ∧
    s.txRoom k00 e 0 = true ∧ g.plaAnswer hc.part 0 (e.src % 2 ^ 44 + 256 * 0) = .serve 0 0 ∧ (g.chan 0).dirtyLines 0 256 = [] ∧
    memRead (g.chan 0).mem 0 256 = frameRaw ∧ (g.chan 0).uncorrectableAt 0 256 = false ∧ tabGet 0 (g.chan 0).ecc 0 = 0 :=
  ⟨Prod.ext rfl (by decide +kernel), txRev_same (by decide +kernel), by decide +kernel⟩
/-- The pool of tracker entries is full (R179, R192). -/
theorem test_hyp_pool_full : let r : OutRead := { read0 with len := 8 }
    let k : CoreSt := { core1 with run := .running, wait := List.replicate 3000 r }
    ({ ready with clusters := (natRange 0 3).map (fun i => (i, { ctx := some hc, cores := [(0, k)] })) } : State).poolRoom 0 = true ∧
    ({ ready with clusters := (natRange 0 4).map (fun i => (i, { ctx := some hc, cores := [(0, k)] })) } : State).poolRoom 0 = false := by
  decide +kernel

theorem zeros_192 : zeros 192 = zeros 32 ++ (zeros 32 ++ (zeros 32 ++ (zeros 32 ++ (zeros 32 ++ zeros 32)))) := by decide +kernel
/-- A coded FP4 frame of eight symbols under the record at PLA 0x100, with its check. -/
def frameCoded : List Byte := leBytes 14 18446744073710077697 ++ leBytes 2 41165 ++ leBytes 16 5986 ++ zeros 224
theorem frameCoded_check : checkOk frameCoded 14 = true := by
  have e : padTo 256 (patchAt frameCoded 14 [0#8, 0#8]) = (leBytes 14 18446744073710077697 ++ zeros 2 ++ leBytes 16 5986) ++ zeros 224 := by decide +kernel
  have c : crcFrom 0xFFFF ((leBytes 14 18446744073710077697 ++ zeros 2 ++ leBytes 16 5986) ++ zeros 224) = 41165 := by
    rw [zeros_224]
    simp only [crcFrom_append]
    rw [show crcFrom 0xFFFF (leBytes 14 18446744073710077697) = 17931 by decide +kernel,
      show crcFrom 17931 (zeros 2) = 5633 by decide +kernel,
      show crcFrom 5633 (leBytes 16 5986) = 61701 by decide +kernel,
      show crcFrom 61701 (zeros 32) = 63358 by decide +kernel,
      show crcFrom 63358 (zeros 32) = 47540 by decide +kernel,
      show crcFrom 47540 (zeros 32) = 14425 by decide +kernel,
      show crcFrom 14425 (zeros 32) = 62752 by decide +kernel,
      show crcFrom 62752 (zeros 32) = 54200 by decide +kernel,
      show crcFrom 54200 (zeros 32) = 62289 by decide +kernel,
      show crcFrom 62289 (zeros 32) = 41165 by decide +kernel]
  unfold checkOk
  rw [e]
  show (crcFrom 0xFFFF _ == _) = true
  rw [c]
  decide +kernel
/-- The record of lengths 1, 2, 3, 3 and symbols 0, 1, 9, 2, with its check. -/
def record4 : List Byte := leBytes 6 4468045403221 ++ leBytes 2 50871 ++ leBytes 24 50528769 ++ leBytes 32 629855074385704669667131392 ++ zeros 192
theorem record4_check : checkOk record4 6 = true := by
  have e : padTo 256 (patchAt record4 6 [0#8, 0#8]) = (leBytes 6 4468045403221 ++ zeros 2 ++ leBytes 24 50528769 ++ leBytes 32 629855074385704669667131392) ++ zeros 192 := by decide +kernel
  have c : crcFrom 0xFFFF ((leBytes 6 4468045403221 ++ zeros 2 ++ leBytes 24 50528769 ++ leBytes 32 629855074385704669667131392) ++ zeros 192) = 50871 := by
    rw [zeros_192]
    simp only [crcFrom_append]
    rw [show crcFrom 0xFFFF (leBytes 6 4468045403221) = 2430 by decide +kernel,
      show crcFrom 2430 (zeros 2) = 9665 by decide +kernel,
      show crcFrom 9665 (leBytes 24 50528769) = 31149 by decide +kernel,
      show crcFrom 31149 (leBytes 32 629855074385704669667131392) = 27648 by decide +kernel,
      show crcFrom 27648 (zeros 32) = 9623 by decide +kernel,
      show crcFrom 9623 (zeros 32) = 24659 by decide +kernel,
      show crcFrom 24659 (zeros 32) = 50527 by decide +kernel,
      show crcFrom 50527 (zeros 32) = 8015 by decide +kernel,
      show crcFrom 8015 (zeros 32) = 34165 by decide +kernel,
      show crcFrom 34165 (zeros 32) = 50871 by decide +kernel]
  unfold checkOk
  rw [e]
  show (crcFrom 0xFFFF _ == _) = true
  rw [c]
  decide +kernel
def tbl4 : CodeTable := ⟨16, 4, [1, 2, 3, 3] ++ List.replicate 28 0, [0, 1, 9, 2] ++ List.replicate 28 0⟩
theorem record4_parse : tableParse record4 = some tbl4 := by
  have hl : (natRange 0 32).map (fun e => fieldAt record4 (0x08 + e) 1) = [1, 2, 3, 3] ++ List.replicate 28 0 := by decide +kernel
  have hs : (natRange 0 32).map (fun e => fieldAt record4 (0x28 + e) 1) = [0, 1, 9, 2] ++ List.replicate 28 0 := by decide +kernel
  have h0 : fieldAt record4 0 4 = 0x4C425455 ∧ fieldAt record4 4 1 = 16 ∧ fieldAt record4 5 1 = 4 ∧ zeroAt record4 0x48 184 = true := by
    decide +kernel
  unfold tableParse
  simp only [hl, hs, h0.1, h0.2.1, h0.2.2.1, h0.2.2.2, record4_check]
  decide +kernel
/-- A frame under a record that is read as a table. -/
theorem frameDecode_of {bs r : List Byte} {t : CodeTable} (w n : Nat) (h : tableParse r = some t) :
    frameDecode bs r w n = if t.width ≠ w then .error .table
      else match readSymbols t t.codes (leNat ((bs.drop 0x10).take 240)) n 0 with
        | .error f => .error f
        | .ok syms => .ok (leBytes (n * w / 8) (packElems w syms)) := by
  unfold frameDecode
  simp only [h] <;> rfl
theorem symbols_ok {x : Except UnravelFault (List Nat)} {l : List Nat} (h : okOf x = some l) : x = .ok l := by
  cases x <;> simp_all [okOf]
theorem test_hyp_frame_coded : frameParse frameCoded = .ok (.coded 4 8 0 0x100) ∧
    frameDecode frameCoded record4 4 8 = .ok (leBytes 4 (packElems 4 [0, 1, 0, 0, 9, 2, 0, 1])) ∧
    frameDecode frameCoded record4 8 8 = .error .table := by
  have hn : leNat ((frameCoded.drop 0x10).take 240) = 0x1762 := by decide +kernel
  have hd : readSymbols tbl4 tbl4.codes 0x1762 8 0 = .ok [0, 1, 0, 0, 9, 2, 0, 1] := symbols_ok (by decide +kernel)
  refine ⟨?_, ?_, ?_⟩
  · unfold frameParse
    simp only [frameCoded_check]
    rfl
  · rw [frameDecode_of 4 8 record4_parse, hn, hd, if_neg (by decide)]
  · rw [frameDecode_of 8 8 record4_parse, if_pos (by decide)]
/-- What a frame writes is delivered. -/
theorem test_hyp_frame_delivers : let e : DmaEntry := { dma0 with flags := 8, started := true, total := 1 }
    (okOf ((frameS frameRaw).txDeliver k00 hc 0 0 0 0 e e.dst [7, 8, 9] false [])).isSome = true ∧
    (okOf ((frameS frameRaw).txDeliver k00 hc 0 0 0 0 e e.dst (zeros 4) true [])).isSome = true := by decide +kernel

-- composition commands

/-- `ready` with another P0. -/
def withPart (x : PartSt) : State := { ready with parts := [(0, x)] }
/-- Items of a VD, each a kind, flags, index and value. -/
def items (vd : Nat) (l : List (Nat × Nat × Nat × Nat)) : List Byte :=
  leBytes 2 vd ++ leBytes 2 l.length ++ zeros 4 ++
    l.flatMap (fun i => leBytes 1 i.1 ++ leBytes 1 i.2.1 ++ leBytes 2 i.2.2.1 ++ leBytes 4 i.2.2.2)

theorem test_hyp_define : Admitted ready 0 (pk 0x0201 0 (zeros 8)) ∧ (ready.part 0).commit = none ∧ (ready.part 0).staged.nodes < 4096 :=
  ⟨admitted_of (by decide +kernel), by decide +kernel, by decide +kernel⟩
theorem test_hyp_define_parent : Admitted ready 0 (pk 0x0201 0 (leBytes 8 9)) ∧ (ready.part 0).staged.isVd 9 = false :=
  ⟨admitted_of (by decide +kernel), by decide +kernel⟩
theorem test_hyp_locked : let s := withPart { part0 with commit := some { ch := 0 } }
    Admitted s 0 (pk 0x0201 0 (zeros 8)) ∧ Admitted s 0 (pk 0x0202 0 (items 1 [(1, 0, 1, 0)])) ∧
    Admitted s 0 (pk 0x0203 0 (items 1 [(1, 0, 0, 0)])) ∧ Admitted s 0 (pk 0x0206 0 (leBytes 8 1)) ∧ (s.part 0).commit.isSome = true :=
  ⟨admitted_of (by decide +kernel), admitted_of (by decide +kernel), admitted_of (by decide +kernel), admitted_of (by decide +kernel),
    by decide +kernel⟩
theorem test_hyp_dissolve : Admitted ready 0 (pk 0x0206 0 (leBytes 8 1)) ∧ (ready.part 0).staged.isVd 1 = true ∧
    Admitted ready 0 (pk 0x0206 0 (leBytes 8 2)) ∧ (ready.part 0).staged.isVd 2 = false :=
  ⟨admitted_of (by decide +kernel), by decide +kernel, admitted_of (by decide +kernel), by decide +kernel⟩
theorem test_hyp_bind_off : let p := chanPacket 0 (pk 0x0203 0 (items 1 [(1, 0, 0, 0)]))
    Admitted ready 0 (pk 0x0203 0 (items 1 [(1, 0, 0, 0)])) ∧ parseItems p false = some [{ kind := 1, flags := 0, index := 0, value := 0 }] ∧
    vdNamed (ready.part 0).staged (par p 0 2) [{ kind := 1, flags := 0, index := 0, value := 0 }] = true ∧
    (okOf (applyItems (fun q i => q.bindOffItem 1 i) [{ kind := 1, flags := 0, index := 0, value := 0 }] ((ready.part 0).staged, []))).isSome = true ∧
    errOf (applyItems (fun q i => q.bindOffItem 1 i) [{ kind := 1, flags := 0, index := 7, value := 0 }] ((ready.part 0).staged, [])) = some 0x0202 :=
  ⟨admitted_of (by decide +kernel), by decide +kernel, by decide +kernel, by decide +kernel, by decide +kernel⟩
theorem test_hyp_bind_off_invalid : Admitted ready 0 (pk 0x0203 0 (items 1 [(9, 0, 0, 0)])) ∧
    parseItems (chanPacket 0 (pk 0x0203 0 (items 1 [(9, 0, 0, 0)]))) false = none ∧ Admitted ready 0 (pk 0x0203 0 (items 7 [(1, 0, 0, 0)])) :=
  ⟨admitted_of (by decide +kernel), by decide +kernel, admitted_of (by decide +kernel)⟩

/-- A cast-on of the FREE cluster 191, of the BOUND one it already holds, and of a group of one channel. -/
def castPk : List Byte := pk 0x0202 0 (items 1 [(1, 0, 191, 0)])
theorem test_hyp_cast : Admitted ready 0 castPk ∧ (okOf (ready.castCheck 0 (chanPacket 0 castPk))).map (fun x => x.2) = some ([], [(1, 191)]) ∧
    errOf (ready.castCheck 0 (chanPacket 0 (pk 0x0202 0 (items 1 [(1, 0, 0, 0)])))) = some 0x0202 ∧
    Admitted ready 0 (pk 0x0202 0 (items 1 [(1, 0, 0, 0)])) :=
  ⟨admitted_of (by decide +kernel), by decide +kernel, by decide +kernel, admitted_of (by decide +kernel)⟩
theorem test_hyp_cast_bound : let s := { ready with pool := { ready.pool with clusters := ready.pool.clusters ++ [(191, { state := .bound })] } }
    Admitted s 0 castPk ∧ (okOf (s.castCheck 0 (chanPacket 0 castPk))).map (fun x => x.2) = some ([], []) :=
  ⟨admitted_of (by decide +kernel), by decide +kernel⟩
theorem test_cast_strips : ((after (.vdCastOn 0 castPk) ready).entry 1 191).state = .stripping ∧
    ((after (.vdCastOn 0 castPk) ready).admch 0).running = true := by decide +kernel
theorem test_hyp_query : Admitted ready 0 (pk 0x0205 0 (leBytes 2 0 ++ leBytes 2 127 ++ zeros 4)) := admitted_of (by decide +kernel)

/-- A stage that differs from the live pattern in the order of nothing but one VD more. -/
def staged : PartSt := { part0 with stage := some { part0.pat with vds := part0.pat.vds ++ [{ node := 3 }] }, stageSeq := 4 }
theorem test_hyp_commit : Admitted (withPart staged) 0 (pk 0x0204 0 (leBytes 8 4)) ∧
    commitFieldsOk (chanPacket 0 (pk 0x0204 0 (leBytes 8 4))) = true ∧ (withPart staged).commitCheck 0 (staged.stage.getD {}) = none ∧
    Admitted (withPart staged) 0 (pk 0x0204 0 (leBytes 8 5)) ∧ Admitted ready 0 (pk 0x0204 0 (zeros 8)) :=
  ⟨admitted_of (by decide +kernel), by decide +kernel, by decide +kernel, admitted_of (by decide +kernel), admitted_of (by decide +kernel)⟩
theorem test_hyp_commit_fails : let x := { part0 with stage := some { part0.pat with vds := [{ node := 1, clusters := [0, 5] }] } }
    Admitted (withPart x) 0 (pk 0x0204 0 (zeros 8)) ∧ (withPart x).commitCheck 0 (x.stage.getD {}) = some (0x0202, [1]) :=
  ⟨admitted_of (by decide +kernel), by decide +kernel⟩
theorem test_hyp_discard : Admitted (withPart staged) 0 (pk 0x0204 0 (leBytes 4 4 ++ leBytes 4 1)) := admitted_of (by decide +kernel)

/-- HP0 has a VD_COMMIT accepted whose check has passed, and that has reached its step 3. -/
def committing : State :=
  { withPart { staged with commit := some { ch := 0, frozen := true } } with
    adm := [(0, { running := true, started := true, copy := pk 0x0204 0 (leBytes 8 4), accepted := 1 })], hubOrder := [0] }
theorem test_hyp_publish : let x := committing.part 0
    x.commit = some { ch := 0, frozen := true } ∧ (x.moving (x.stage.getD {})).all (fun k => committing.freezeDone 0 k) = true ∧
    pktOp (committing.admch 0).copy = 0x0204 ∧ x.prev = none ∧ x.stage ≠ some x.pat := by decide +kernel
/-- Context 0 is resident in VD 1, which the stage gives another cluster; the window of the commit before is open. -/
def waiting : PartSt :=
  { part0 with stage := some { part0.pat with vds := [{ node := 1, clusters := [0, 5] }] }, commit := some { ch := 0 }, prev := some part0.pat,
               ctxs := [(0, { state := 1, vd := 1, resident := true, residentVd := [0] })] }
theorem test_hyp_commit_waits : waiting.moving (waiting.stage.getD {}) = [0] ∧
    (({ waiting with prev := none, commit := some { ch := 0, frozen := true } } : PartSt).moving (waiting.stage.getD {})).all (fun k =>
      ({ withPart { waiting with prev := none, commit := some { ch := 0, frozen := true } } with
         clusters := [(0, { ctx := some hc, cores := [(0, { run := .running })] })] } : State).freezeDone 0 k) = false ∧
    (after (.commitPublish 0) (withPart waiting)).part 0 = waiting ∧
    ((after (.graceWindowClose 0) (withPart waiting)).ctx 0 0).frozen = true := by decide +kernel
theorem test_publish : ((after (.commitPublish 0) committing).part 0).revision = 1 ∧
    ((after (.commitPublish 0) committing).part 0).pat.vds.length = 2 ∧ ((after (.commitPublish 0) committing).admch 0).replyValid = true := by
  decide +kernel
theorem test_grace_window : let x := { part0 with prev := some part0.pat, refusedLast := 3, leaving := [(1, 0, true)] }
    let t := after (.graceWindowClose 0) (withPart x)
    (t.part 0).prev = none ∧ (t.entry 1 0).state = .stripping := by decide +kernel
theorem test_hyp_notice : (({ part0 with windowClosedAt := some 0, refusedLast := 3 } : PartSt)).windowClosedAt = some 0 := rfl

def takePk : List Byte := pk 0x0207 0 (leBytes 8 1)
theorem test_hyp_take : Admitted ready 0 takePk ∧ ready.wholeCheck 0 (chanPacket 0 takePk) = none ∧
    ready.entriesWhere (fun e => decide (e.state = .bound) && decide (e.owner ≠ 0)) = [] ∧ (ready.part 0).vdBusy 1 = false ∧
    (ready.part 0).stage = none ∧ ready.castShort 0 ((ready.freeOf 3 24).map (fun i => (3, i))) = false :=
  ⟨admitted_of (by decide +kernel), by decide +kernel, by decide +kernel, by decide +kernel, by decide +kernel, by decide +kernel⟩
/-- P5 has a guarantee of two modules' worth on the edge of module 0: a take of all six would break it. -/
theorem test_hyp_take_short : let x : PartSt := { pstate := .enabled, pat := { vds := [{ node := 1, links := [{ node := 2, edge := 0, exclusive := false, gbps := 512 }] }] } }
    ({ ready with parts := [(0, part0), (5, x)] } : State).castShort 0 ((natRange 0 6).map (fun i => (3, i))) = true := by decide +kernel
/-- With cluster 3 FREE and everything else disabled but what P0 holds, the take fits. -/
def small : State :=
  { ready with pool := { clusters := ((natRange 0 192).map (fun i => (i, { state := if i = 0 then .bound else if i = 3 then .free else .disabled }))),
                         channels := ((natRange 0 320).map (fun i => (i, { state := if i = 0 then .bound else .disabled }))),
                         links := ((natRange 0 24).map (fun i => (i, { state := .disabled }))) } }
theorem test_hyp_take_fits : small.freeOf 1 192 = [3] ∧ small.bindFits 0 1 1 = true ∧
    (okOf ((small.part 0).pat.takeAll 1 [3] [] [])).map (fun q => q.clusters 1) = some [0, 3] := by decide +kernel
theorem test_hyp_take_refused : (ready.bindFits 0 1 191 && ready.bindFits 0 2 319 && ready.bindFits 0 3 24) = true ∧
    (withPart { part0 with desc := { part0.desc with clusterCap := 191 } }).bindFits 0 1 191 = false ∧
    ({ ready with pool := { ready.pool with clusters := [(7, { state := .bound, owner := 2 })] } } : State).entriesWhere
      (fun e => decide (e.state = .bound) && decide (e.owner ≠ 0)) ≠ [] := by decide +kernel
theorem test_hyp_release : Admitted ready 0 (pk 0x0208 0 (leBytes 8 1)) ∧ ready.wholeCheck 0 (chanPacket 0 (pk 0x0208 0 (leBytes 8 1))) = none ∧
    ready.commitCheck 0 ((ready.part 0).pat.releaseAll []) = none :=
  ⟨admitted_of (by decide +kernel), by decide +kernel, by decide +kernel⟩

-- the token loop

/-- Bytes written at a PLA of P0. -/
def at' (s : State) (pla : Nat) (bs : List Byte) : State := (s.agentWrite 0 0 (plaAddr pla) bs false).1
/-- What is read at a PLA of P0. -/
def pla (s : State) (a n : Nat) : List Byte := s.plaRead 0 a n
theorem test_pla : pla (at' ready 0x1000 [1, 2, 3]) 0x1001 2 = [2, 3] := by decide +kernel

/-- A GENERATE payload: 2 slots, chunks of 4 rows, a budget of 16, KEEP_ALIVE, the table at 0x10000, the ring of 4 records at 0x20000,
head, tail and control words at 0x30000, 0x30040 and 0x30080. -/
def genPay : List Byte :=
  patchAt (patchAt (patchAt (patchAt (patchAt (patchAt (zeros 128) 4 (leBytes 2 2 ++ leBytes 2 2 ++ leBytes 2 4 ++ leBytes 2 0 ++ leBytes 2 16))
    0xF [1]) 0x20 (leBytes 4 0x4000)) 0x28 (leBytes 8 (plaAddr 0x10000))) 0x38 (leBytes 8 (plaAddr 0x20000) ++ leBytes 4 4 ++ leBytes 4 2))
    0x48 (leBytes 8 (plaAddr 0x30000) ++ leBytes 8 (plaAddr 0x30040) ++ leBytes 8 (plaAddr 0x30080))
def gen0 : GenSt := { queue := 0, payload := genPay }
def genRun : PacketRun := { typ := 2, slot := 0, bytes := [2#8] ++ zeros 63 ++ genPay, doneFence := 0, doneValue := 0, resident := true, entries := [(0, 0, 7)] }
/-- Context 0 of P0 runs a GENERATE on queue 0 in VD 1. -/
def ctxGen (g : GenSt) : CtxSt :=
  { state := 1, vd := 1, queues := 1, resident := true, residentVd := [0], genr := some g, qs := [(0, { enabled := true, cur := some genRun })] }
def genSt (g : GenSt) : State :=
  { withPart { part0 with ctxs := [(0, ctxGen g)] } with clusters := [(0, { ctx := some hc, cores := [(0, { run := .running })] })] }
/-- A DECODE entry at position 3. -/
def decodeRow : List Byte := patchAt (patchAt (patchAt (zeros 64) 0 [2]) 0x1C (leBytes 4 3)) 0x24 (leBytes 4 100 ++ zeros 8 ++ leBytes 4 64)
/-- What a step reads. -/
def genReads (s : State) (g : GenSt) (n : Nat) : Option (List Byte) × Option (List Byte) :=
  let a := (s.updCtx 0 0 (fun x => { x with genrBefore := some g })).genRead 0 0 (g.fld 0x58 8) 8
  (a.2, (a.1.genRead 0 0 (g.fld 0x28 8) n).2)

theorem test_hyp_step : let s := at' (genSt gen0) 0x10000 decodeRow
    (s.ctx 0 0).genr = some gen0 ∧ (s.ctx 0 0).running = some (0, genRun) ∧ s.genReady 0 0 = true ∧
    genReads s gen0 128 = (some (zeros 8), some (decodeRow ++ zeros 64)) ∧
    ({ gen0 with seqs := tableRows (decodeRow ++ zeros 64) gen0.slots 64 }.admitRows ((leNat (zeros 8)).testBit 1)).seqs.any (fun e => seqActive e.2) = true := by
  decide +kernel
/-- No active slot: KEEP_ALIVE waits; END completes; an entry cancelled in this step ends the step. -/
theorem test_hyp_step_idle :
    genReads (genSt gen0) gen0 128 = (some (zeros 8), some (zeros 128)) ∧ (genSt gen0).runQuiet 0 0 = true ∧
    genReads (at' (genSt gen0) 0x30080 (leBytes 8 1)) gen0 128 = (some (leBytes 8 1), some (zeros 128)) ∧
    ({ gen0 with seqs := tableRows (zeros 128) 2 64 }.admitRows false).ended = [] ∧ (gen0.fld 0xF 1).testBit 0 = true ∧
    ({ gen0 with seqs := tableRows (decodeRow ++ zeros 64) 2 64 }.admitRows true).ended = [0] ∧
    ({ gen0 with seqs := tableRows (decodeRow ++ zeros 64) 2 64 }.admitRows true).seqs.any (fun e => seqActive e.2) = false := by decide +kernel
def prefill : List Byte :=
  patchAt (patchAt (patchAt (zeros 64) 0 [1]) 0x10 (leBytes 8 (plaAddr 0x40000) ++ leBytes 4 6)) 0x24 (leBytes 4 100 ++ zeros 8 ++ leBytes 4 64)
theorem test_hyp_plan : let g := { gen0 with seqs := tableRows (prefill ++ zeros 64) 2 64, seen := [0] }
    let g1 := ((g.decodeRows 0).draftRows)
    let g2 := (g1.chooseChunk (g1.slots + 1)).1
    g.fld 8 2 ≠ 0 ∧ g1.plan.length < g1.budget ∧ (g1.chooseChunk (g1.slots + 1)).2 = some 0 ∧
    ((genSt g).fresh.2.genReadOf 0 0 g2 (plaAddr 0x40000) 16).2.isSome = true ∧
    ((({ gen0 with payload := patchAt genPay 8 [0, 0], seqs := tableRows (decodeRow ++ zeros 64) 2 64 }).decodeRows 0).draftRows).plan.length = 1 := by
  decide +kernel
theorem test_hyp_place : ((genSt gen0).runClusters 0 0).Nodup ∧ (genRun.entries.map (fun e => (e.1, e.2.1))).Nodup ∧
    Mem.wf ((genSt gen0).cl 0).cmem = true ∧ ((genSt gen0).runClusters 0 0)[0]? = some 0 := by decide +kernel
theorem test_generate_step : let t := after (.generateStepStart 0 0) (at' (genSt gen0) 0x10000 decodeRow)
    ((t.cl 0).co 0).pc = 7 ∧ ((t.ctx 0 0).genr.map (fun g => (g.inStep, g.plan.length))) = some (true, 1) := by decide +kernel

theorem test_hyp_step_end : let g := { gen0 with inStep := true }
    (genSt g).runHalted 0 0 genRun = false ∧ (genSt g).batchBlocks 0 0 = false ∧
    ({ genSt g with clusters := [(0, { ctx := some hc, cores := [(0, { run := .stopped })] })] } : State).runHalted 0 0 genRun = true := by decide +kernel
def rec0 : List Byte := leBytes 16 0x77
/-- Four records against a ring of four: no space while TAIL is behind, space once it has caught up. -/
theorem test_hyp_ring : let g := { gen0 with ringWait := true, inStep := true, records := [rec0, rec0], ended := [1], head := 3, seqs := [(0, decodeRow)] }
    let s := at' (genSt g) 0x30040 (leBytes 8 1)
    ((genSt g).genRead 0 0 (g.fld 0x50 8) 8).2 = some (zeros 8) ∧ (s.genRead 0 0 (g.fld 0x50 8) 8).2 = some (leBytes 8 1) ∧
    (leNat (zeros 8) + g.fld 0x40 4 < g.head + g.records.length) ∧ (g.head + g.records.length ≤ leNat (leBytes 8 1) + g.fld 0x40 4) ∧
    (genWrites 0 0 (((natRange 0 2).zip g.records).map (fun x => (g.fld 0x38 8 + 16 * ((g.head + x.1) % g.fld 0x40 4), x.2))
      ++ (g.seqs.filter (fun e => seqActive e.2 || hasNat g.ended e.1)).flatMap (fun e => entryPieces (g.fld 0x28 8) e.1 e.2)
      ++ [(g.fld 0x48 8, leBytes 8 (g.head + 2))]) s).2 = true ∧
    pla (after (.ringTailReread 0 0) s) 0x30000 8 = leBytes 8 5 ∧ pla (after (.ringTailReread 0 0) s) 0x20030 16 = rec0 ∧
    pla (after (.ringTailReread 0 0) (genSt g)) 0x30000 8 = zeros 8 := by decide +kernel
/-- A waiting GENERATE, switched out and resident. -/
def keepOut0 : State := let g := { gen0 with keepWait := true }
  { withPart { part0 with ctxs := [(0, { ctxGen g with resident := false, residentVd := [], saved := true })] } with clusters := [] }
theorem test_hyp_keep : let g := { gen0 with keepWait := true }
    keepOut0.switchedOut 0 0 = true ∧ (keepOut0.ctx 0 0).genr = some g ∧ (keepOut0.genRead 0 0 (g.fld 0x58 8) 8).2 = some (zeros 8) ∧
    (keepOut0.genRead 0 0 (g.fld 0x28 8) 128).2 = some (zeros 128) ∧
    ((at' keepOut0 0x30080 (leBytes 8 1)).genRead 0 0 (g.fld 0x58 8) 8).2 = some (leBytes 8 1) ∧
    (genSt g).switchedOut 0 0 = false ∧ (genSt g).genReady 0 0 = true ∧
    hasNat ((after (.keepAliveReread 0 0) (at' keepOut0 0x30080 (leBytes 8 1))).part 0).runnable 0 = true ∧
    hasNat ((after (.keepAliveReread 0 0) keepOut0).part 0).runnable 0 = false := by decide +kernel

/-- The conditions of `PacketReady`, evaluated. -/
def packetReadyB (s : State) (r : QRef) (b : List Byte) : Bool :=
  let a := s.headOf r.part r.ctx (queueOf s r)
  s.ctxStarts r.part r.ctx && decide (a.2 = .packet b false) && (a.1.packetCheck r.part b false false).isNone
    && (decide (pkTyp b ≠ 1 ∧ pkTyp b ≠ 2) || (!(a.1.ctx r.part r.ctx).occupied && !a.1.earlierRun r.part r.ctx r.queue))

theorem packetReady_of {s : State} {r : QRef} {b : List Byte} (e : packetReadyB s r b = true) :
    PacketReady s (s.headOf r.part r.ctx (queueOf s r)).1 r b := by
  simp only [packetReadyB, Bool.and_eq_true, Bool.or_eq_true, Bool.not_eq_true', decide_eq_true_eq, Option.isNone_iff_eq_none] at e
  exact ⟨e.1.1.1, Prod.ext rfl e.1.1.2, e.1.2, e.2⟩

def q0 : QRef := ⟨0, 0, 0⟩
/-- A packet of one payload. -/
def wp (typ slots : Nat) (p : List Byte) : List Byte := leBytes 1 typ ++ leBytes 1 slots ++ zeros 62 ++ padTo (64 * slots - 64) p
/-- P0 with a directory, context 0 LIVE in VD 1 and its queue 0 enabled on the ring at 0x100000. -/
def partQ (q : QueueSt) : PartSt :=
  { part0 with dir := some { base := 0x1000000, fences := 64, memobjs := 64 }, ctxs := [(0, { state := 1, vd := 1, queues := 1, qs := [(0, q)] })] }
/-- Fence 5 at 7, and memory object 3 with one reference. -/
def withObjects (s : State) : State :=
  at' (at' s (0x1000000 + 0x150000 + 160) (leBytes 8 7 ++ zeros 8 ++ leBytes 4 0x30010005 ++ [0xFF, 1, 0xFF, 0xFF] ++ zeros 8))
    (0x1000000 + 0x150000 + 2048 + 96) (leBytes 8 (plaAddr 0x10000) ++ leBytes 8 256 ++ leBytes 4 1 ++ leBytes 4 0x40010003 ++ [1])
/-- That partition with a packet in its ring; channel 1 serves KV. -/
def stOf (x : PartSt) : State :=
  { withPart x with pool := { ready.pool with channels := [(0, { state := .bound }), (1, { state := .reserved })] } }
def ringOf (b : List Byte) : State :=
  at' (withObjects (stOf (partQ { enabled := true, ring := plaAddr 0x100000, entries := 64, tail := b.length / 64 }))) 0x100000 b
/-- That partition with a packet in progress. -/
def goes (r : PacketRun) : State := withObjects (stOf (partQ { enabled := true, ring := plaAddr 0x100000, entries := 64, cur := some r }))
def runOf (b : List Byte) : PacketRun := { typ := pkTyp b, slot := 0, bytes := b, doneFence := 0, doneValue := 0, order := 2 }
/-- The state in which a packet's own checks run. -/
def readOf (b : List Byte) : State := ((ringOf b).headOf 0 0 (queueOf (ringOf b) q0)).1
def fence5 : Nat := 0x30010005
def obj3 : Nat := 0x40010003
/-- A sampler of one shard of 4 tokens, whose logits are 1.0, 2.0, NaN and 2.0 (R213: ties to the lower token). -/
def genV : GenSt := { gen0 with payload := patchAt (patchAt genPay 0x10 (leBytes 4 4 ++ leBytes 2 0 ++ leBytes 2 1 ++ leBytes 4 0x8000 ++ leBytes 4 256)) 0x24 (leBytes 4 0) }
def logits0 : State :=
  { genSt genV with clusters := [(0, { ctx := some hc, cmem := memWrite [] 0x8000 ([0, 0, 0x80, 0x3F] ++ [0, 0, 0, 0x40] ++ [0, 0, 0xC0, 0x7F] ++ [0, 0, 0, 0x40]) })] }
theorem test_hyp_row : 1 ≤ genV.fld 0x16 2 ∧ logits0.rowCands [0] genV 0 3 = [(1, 0x40000000), (3, 0x40000000), (0, 0x3F800000)] := by decide +kernel
/-- 1.0, 2.0 as temperatures and thresholds: one candidate is kept whole; TOP_K 1 and TEMPERATURE 0 keep rank 1 alone. -/
theorem test_hyp_kept : fp32Abs 0x3F800000 ≠ 0 ∧ rowDist [(3, 0)] 0x3F800000 0x3F800000 2 = { first := 3, toks := [(3, 0x3F800000)] } ∧
    rowDist [(3, 0), (5, 0)] 0 0x3F800000 2 = { first := 3, toks := [(3, 0x3F800000)] } ∧
    rowDist [(3, 0), (5, 0)] 0x3F800000 0x3F800000 1 = { first := 3, toks := [(3, 0x3F800000)] } := by decide +kernel
/-- A draw at the edge between two ranks takes the second; one that no sum exceeds takes the last; with no weight left, rank 1. -/
theorem test_hyp_draws : let d : Dist := { first := 7, toks := [(7, 0x3F800000), (9, 0x3F800000)] }
    d.draw 0 = 7 ∧ d.draw 0x80000000 = 9 ∧ d.draw 0x7FFFFF00 = 7 ∧ ({ first := 7, toks := [(7, 0x3F800000)] } : Dist).draw 0xFFFFFFFF = 7 ∧
    ({ first := 7, toks := [(9, 0), (8, 0)] } : Dist).draw 5 = 7 := by decide +kernel
/-- Rows of a plan: a decode row, and a draft of it. -/
def row0 : PlanRow := { token := 1, position := 2, slot := 0, kind := 1, parent := 0xFFFF, logitRow := 0 }
def kid (tok : Nat) : PlanRow := { token := tok, position := 3, slot := 0, kind := 3, parent := 0, logitRow := 1, q := 0x3F800000, node := 1 }
def walk0 (greedy : Bool) (tok : Nat) : WalkCtx :=
  { greedy := greedy, seed := 5, tag := 0, plan := [(0, row0), (1, kid tok)], dist := fun _ => { first := 7, toks := [(7, 0x3F800000)] } }
theorem test_hyp_walks_rows : walkRows (walk0 true 7) 3 (0, row0) = ([(7, true), (7, false)], 1) ∧ walkRows (walk0 true 8) 3 (0, row0) = ([(7, false)], 0) ∧
    walkRows (walk0 false 7) 3 (0, row0) = ([(7, true), (7, false)], 1) ∧ walkRows (walk0 false 8) 3 (0, row0) = ([(7, false)], 0) ∧
    (testKids (walk0 true 7) 2 { first := 7, toks := [(7, 0x3F800000)] } [(1, kid 7)]).1 = some (1, kid 7) ∧
    (testKids (walk0 true 8) 2 { first := 7, toks := [(7, 0x3F800000)] } [(1, kid 8)]).1 = none ∧
    ({ first := 7, toks := [(7, 0x3F800000)] } : Dist).accepts 7 0x3F800000 0 = true ∧
    ({ first := 7, toks := [(7, 0x3F800000)] } : Dist).accepts 8 0x3F800000 0 = false := by decide +kernel
/-- An entry with EOS 2, MAX_TOKENS 3 and stop entries 0 and 15 selected; entry 15 holds the sequence 4, 5. -/
def entry0 : List Byte := patchAt (patchAt (patchAt decodeRow 6 (leBytes 2 0x8001)) 0xC (leBytes 4 2)) 0x24 (leBytes 4 3)
def stops0 : List Byte := zeros 720 ++ [2] ++ zeros 15 ++ leBytes 4 4 ++ leBytes 4 5 ++ zeros 24
theorem test_hyp_stop_reasons : stopOf entry0 stops0 2 1 [4, 2] = some 1 ∧ stopOf entry0 stops0 5 3 [4, 5] = some 242 ∧ stopOf entry0 stops0 5 3 [5, 5] = some 3 ∧
    stopOf entry0 stops0 5 2 [5] = none ∧ SeqHit entry0 stops0 [4, 5] 15 ∧ ¬SeqHit entry0 stops0 [4, 5] 0 := by
  refine ⟨by decide +kernel, by decide +kernel, by decide +kernel, by decide +kernel, ?_, ?_⟩
  · simp only [SeqHit]; decide +kernel
  · simp only [SeqHit]; decide +kernel
/-- The third token of a slot with MAX_TOKENS 3 is its last; a chunk that holds the prompt's last token makes its slot DECODE. -/
theorem test_hyp_emits : let g := { genV with seqs := [(0, patchAt entry0 0x20 (leBytes 4 2))] }
    let t := g.emit stops0 0 [(9, true), (9, false)]
    t.records = [outRecord 9 0 3 0 6 3] ∧ t.ended = [0] ∧
    (({ g with seqs := [(0, entry0)] }).emit stops0 0 [(9, false)]).records = [outRecord 9 0 3 0 1 0] ∧
    (let h := { genV with plan := [{ row0 with kind := 2 }], seqs := [(0, patchAt entry0 0x3C (leBytes 2 1))] }
     seqState (tabGet [] (logits0.slotStep [0] 5 stops0 h (0, { row0 with kind := 2 })).1.seqs 0) = 2 ∧
     (logits0.slotStep [0] 5 stops0 h (0, { row0 with kind := 2 })).1.records = [outRecord 1 0 3 0 1 0]) ∧
    genV.fld 0x30 8 = 0 ∧ genV.draftMax = 0 := by decide +kernel

-- the KV service

/-- Slot 2 is live and holds two blocks of channel 1; slot 9 is lost; slot 4 is stripping. -/
def kvSt : State :=
  { stOf part0 with kv := { slots := [(2, { gen := 1, live := true, channel := 1, places := [3, 8], grants := [(1, 1), (2, 1), (3, 1), (4, 1)] }),
                                      (4, { gen := 1, stripping := true, channel := 1, places := [5] }),
                                      (9, { gen := 3, lostGens := [2] })] } }
def kvDown : State := { kvSt with kv := { kvSt.kv with up := false } }
def h2 : List Byte := leBytes 8 (kvHandle 2 1)
theorem test_hyp_kv_admitted : Admitted kvSt 0 (pk 0x0601 0 (leBytes 8 2)) ∧ Admitted kvSt 0 (pk 0x0602 0 h2) ∧
    Admitted kvSt 0 (pk 0x0603 0 (h2 ++ [1, 2] ++ zeros 6)) ∧ Admitted kvSt 0 (pk 0x0604 0 h2) ∧ Admitted kvDown 0 (pk 0x0604 0 h2) :=
  ⟨admitted_of (by decide +kernel), admitted_of (by decide +kernel), admitted_of (by decide +kernel), admitted_of (by decide +kernel),
    admitted_of (by decide +kernel)⟩
theorem test_hyp_kv_clauses : kvSt.kvGate = none ∧ kvDown.kvGate = some 0x0608 ∧ ready.kvGate = none ∧
    kvSt.kvServing.filter (fun c => decide (45773 ≤ kvSt.kvFree c)) = [1] ∧ kvSt.kvServing.filter (fun c => decide (45774 ≤ kvSt.kvFree c)) = [] ∧
    kvSt.kvSlotFree = some 0 ∧ okOf (kvSt.kvOwned (chanPacket 0 (pk 0x0602 0 h2))) = some 2 ∧ kvSt.slotMoving 2 = false ∧
    errOf (kvSt.kvOwned (chanPacket 0 (pk 0x0602 0 (leBytes 8 (kvHandle 9 2))))) = some 0x8601 ∧
    4 ≤ ((kvSt.slot 2).grants.filter (fun x => decide (x.1 ≠ 5))).length ∧ ((kvSt.slot 2).grants.filter (fun x => decide (x.1 ≠ 4))).length < 4 ∧
    errOf (kvSt.kvLook (kvHandle 2 0)) = some 0x0609 ∧ okOf (kvSt.kvLook (kvHandle 2 1)) = some 2 := by decide +kernel
theorem test_kv_free : let t := after (.kvFree 0 (pk 0x0602 0 h2)) kvSt
    (t.slot 2).gen = 2 ∧ (t.slot 2).live = false ∧ (t.slot 2).stripping = true := by decide +kernel

/-- KV_PUT of one block with SEAL from 0x20000, and KV_GET of one to it, without and with WAIT. -/
def kvPk (typ : Nat) (flag : Nat) : List Byte := wp typ 2 (h2 ++ leBytes 8 (plaAddr 0x20000) ++ leBytes 4 1 ++ leBytes 1 flag)
def kvRing (b : List Byte) : State := { ringOf b with kv := kvSt.kv }
theorem test_hyp_kv_packets : packetReadyB (kvRing (kvPk 0x0B 1)) q0 (kvPk 0x0B 1) = true ∧ packetReadyB (kvRing (kvPk 0x0C 1)) q0 (kvPk 0x0C 1) = true ∧
    (kvRing (kvPk 0x0B 1)).kvPacketCheck 0 (kvPk 0x0B 1) 1 = none ∧ (kvRing (kvPk 0x0C 1)).kvPacketCheck 0 (kvPk 0x0C 1) 0 = none ∧
    (kvRing (kvPk 0x0B 2)).kvPacketCheck 0 (kvPk 0x0B 2) 1 = some 0x0401 ∧ (kvRing (kvPk 0x0C 2)).kvPacketCheck 0 (kvPk 0x0C 2) 0 = some 0x0401 := by
  decide +kernel
theorem test_kv_wait : let t := after (.kvGet q0) (kvRing (kvPk 0x0C 1))
    (queueOf t q0).cur.map (fun r => r.waiting) = some true ∧ (queueOf t q0).head = 2 := by decide +kernel
def kvGoes (b : List Byte) (w : Bool) : State := { goes { runOf b with waiting := w } with kv := kvSt.kv }
theorem test_hyp_kv_moves : let put := (kvGoes (kvPk 0x0B 1) false).kvTension 0 0 1 (plaAddr 0x20000) true
    let get := (kvGoes (kvPk 0x0C 1) false).kvTension 0 0 1 (plaAddr 0x20000) false
    (queueOf (kvGoes (kvPk 0x0B 1) false) q0).cur.isSome = true ∧ ((kvGoes (kvPk 0x0B 1) false).part 0).pstate = .enabled ∧ put.2 = true ∧ get.2 = true ∧
    (okOf (kvPutRows 0 0 1 (kvRows (kvSt.slot 2) (kvPk 0x0B 1)) (plaAddr 0x20000) put.1).2).isSome = true ∧
    (okOf (kvGetRows 0 0 1 (kvRows (kvSt.slot 2) (kvPk 0x0C 1)) (plaAddr 0x20000) get.1).2).isSome = true := by decide +kernel
theorem test_kv_put : let t := after (.kvPutComplete q0) (kvGoes (kvPk 0x0B 1) false)
    (t.slot 2).sealed = true ∧ (queueOf t q0).cur = none := by decide +kernel
theorem test_hyp_kv_service : (kvSt.slot 2).live = true ∧ kvDown.kv.up = false := by decide +kernel

-- partitions

/-- A descriptor of partition 5 on HP0. -/
def desc5 : List Byte := leBytes 4 1 ++ [5] ++ zeros 7 ++ leBytes 2 256 ++ zeros 2 ++ leBytes 2 192 ++ leBytes 2 320 ++ [24] ++ zeros 43
def withP5 (x : PartSt) : State := { ready with parts := [(0, part0), (5, x)] }
def p5 : PartSt := { pstate := .disabled, generation := 1, desc := descOf desc5 }
theorem test_hyp_create : ready.createCode 5 desc5 = none ∧ ready.createCode 0 (patchAt desc5 4 [0]) = some 0x0102 ∧
    Admitted ready 0 (pk 0x0101 5 desc5) ∧ parBytes (chanPacket 0 (pk 0x0101 5 desc5)) 0 64 = desc5 :=
  ⟨by decide +kernel, by decide +kernel, admitted_of (by decide +kernel), by decide +kernel⟩
theorem test_create : let t := after (.partCreate 0 (pk 0x0101 5 desc5)) ready
    (t.part 5).pstate = .disabled ∧ (t.part 5).generation = 1 ∧ (t.part 5).desc.clusterCap = 192 := by decide +kernel
theorem test_hyp_enable : let pkt := pk 0x0102 5 (zeros 8)
    Admitted (withP5 p5) 0 pkt ∧ enableFlagsOk (chanPacket 0 pkt) = true ∧ (withP5 p5).enableCode 5 p5.desc true = none ∧
    ((accepted (withP5 p5) 0 (chanPacket 0 pkt)).partQueues 5 p5.desc).2 = none ∧
    (withP5 p5).enableCode 5 { p5.desc with ownerPort := 3 } true = some 0x0105 :=
  ⟨admitted_of (by decide +kernel), by decide +kernel, by decide +kernel, by decide +kernel, by decide +kernel⟩
theorem test_hyp_disable : Admitted ready 0 (pk 0x0103 0 (zeros 8)) ∧ (ready.part 0).busy = false ∧
    Admitted (goes (runOf (kvPk 0x0B 0))) 0 (pk 0x0103 0 (zeros 8)) ∧ ((goes (runOf (kvPk 0x0B 0))).part 0).busy = true ∧
    Admitted ready 0 (pk 0x0109 0 (zeros 8)) ∧ Admitted ready 0 (pk 0x0103 0 (leBytes 8 1)) ∧
    parZero (chanPacket 0 (pk 0x0103 0 (leBytes 8 1))) 0 8 = false :=
  ⟨admitted_of (by decide +kernel), by decide +kernel, admitted_of (by decide +kernel), by decide +kernel, admitted_of (by decide +kernel),
    admitted_of (by decide +kernel), by decide +kernel⟩

/-- The hub has heard from the KV regulator that label 0 is CAPPED: its transfers wait (R454). -/
def kvCapped (s : State) : State := { s with regulators := [(12, { sent := [{ src := 196, part := 0, label := 0, state := 2, rate := 0 }] })] }
theorem test_hyp_kv_held : ((kvCapped (kvGoes (kvPk 0x0B 1) false)).kvTension 0 0 1 (plaAddr 0x20000) true).2 = false ∧
    ((kvCapped (kvGoes (kvPk 0x0C 1) false)).kvTension 0 0 1 (plaAddr 0x20000) false).2 = false := by decide +kernel
theorem test_hyp_teardown : Admitted ready 0 (pk 0x0104 0 (zeros 8)) ∧ Admitted ready 0 (pk 0x010A 0 (zeros 8)) ∧ (ready.part 0).generation < 0xFFFF ∧
    Admitted (withPart { part0 with generation := 0xFFFF }) 0 (pk 0x010A 0 (zeros 8)) ∧ Admitted ready 0 (pk 0x0105 0 (zeros 8)) ∧
    ((ready.part 0).ctxs.all (fun e => !e.2.resident) = true ∧ (ready.part 0).invals = false ∧ (ready.part 0).batches = [] ∧
      (ready.part 0).incoming = []) ∧
    Admitted (withPart { part0 with pstate := .frozen }) 0 (pk 0x0106 0 (zeros 8)) ∧
    (((ready.teardownBegin 0 true).updPart 0 (fun x => { x with teardownCh := some 0 })).kvHeldUp 0 = false) :=
  ⟨admitted_of (by decide +kernel), admitted_of (by decide +kernel), by decide +kernel, admitted_of (by decide +kernel), admitted_of (by decide +kernel),
    by decide +kernel, admitted_of (by decide +kernel), by decide +kernel⟩
theorem test_hyp_teardown_end : let s := withP5 { p5 with pstate := .destroying, teardownStep := 6 }
    (s.part 5).teardownStep = 6 ∧ s.entriesWhere (fun e => decide (e.state = .stripping) && decide (e.owner = 5)) = [] ∧
    ((after (.teardownComplete 5) s).part 5).pstate = .absent := by decide +kernel
theorem test_destroy : let t := after (.partDestroy 0 (pk 0x0104 0 (zeros 8))) ready
    (t.part 0).pat = {} ∧ (t.entry 1 0).state = .stripping ∧ (t.admch 0).replyValid = true := by decide +kernel

/-- Cluster 7 strips to FREE, channel 7 to BOUND for P0, module 7 after a retirement of cause 2. -/
def strips : State :=
  { ready with pool := { clusters := [(7, { state := .stripping })], channels := [(7, { state := .stripping, toBound := true })],
                         links := [(7, { state := .stripping, retireAs := 2 })] } }
theorem test_hyp_strip : (strips.entry 1 7).state = .stripping ∧ (strips.entry 1 7).stripFailed = false ∧ strips.stripHeld 1 7 = false ∧
    strips.stripHeld 2 7 = false ∧ (strips.entry 3 7).retireAs ≠ 0 ∧ (strips.part 0).restrip = [] ∧ (kvSt.slot 4).stripping = true ∧
    kvSt.chTaped 1 = false := by decide +kernel
theorem test_strips : ((after (.stripComplete (.cluster 7)) strips).entry 1 7).state = .free ∧
    ((after (.stripComplete (.channel 7)) strips).entry 2 7).state = .bound ∧
    ((after (.stripFailed (.link 7)) strips).entry 3 7).stripped = true ∧ strips.fuseBlown 3 7 = false ∧
    (let s := { strips with fuses := { strips.fuses with retired := [(3, 7, 2)] } }
     s.fuseBlown 3 7 = true ∧ ((after (.stripFailed (.link 7)) s).entry 3 7).state = .retired) := by decide +kernel
/-- A KV slot whose strip fails stays stripping, and its handle stays stale (R298). -/
theorem test_slot_strip_fails : let t := after (.stripFailed (.kvSlot 4)) kvSt
    (t.slot 4).stripping = true ∧ (t.slot 4).stripFailed = true ∧ (t.slot 4).places = [5] := by decide +kernel
/-- The board controller has set the area up: HP0 the pool manager, no channel reserved. -/
def setUp : State := { ready with phase := .bootCode, prs := { regs := zeros 4 ++ [1] ++ zeros 123 } }
theorem test_hyp_lock : setUp.prs.lock = false ∧ setUp.lockCode = none ∧
    ({ setUp with prs := { setUp.prs with regs := patchAt setUp.prs.regs 4 [0] } } : State).lockCode = some 0x0110 ∧ ready.prs.lock = true := by
  decide +kernel
theorem test_hyp_mgt : ready.hubRuns = true ∧ ready.mgtAllowed .hub 4 true = true ∧ ready.mgtAllowed (.clusterData 3) 2 false = false ∧
    ready.mgtAllowed (.sram 0x7FFFFF) 1 true = true ∧ ready.mgtAllowed (.sram 0x7FFFFF) 2 true = false ∧
    (after (.mgtRequest (.clusterData 3) (.read 2)) ready).mgtRefused = 1 ∧ (after (.mgtRequest (.clusterData 3) (.read 2)) ready).mgtData = zeros 2 ∧
    (let t := after (.mgtRequest (.sram 8) (.write [1, 2])) ready
     (after (.mgtRequest (.sram 9) (.read 1)) t).mgtData = [2]) := by decide +kernel

-- work packets

def fillPk : List Byte := wp 4 2 (leBytes 8 (plaAddr 0x20000) ++ leBytes 8 16 ++ leBytes 8 0xAB)
def signalPk (v : Nat) : List Byte := wp 5 2 (leBytes 4 fence5 ++ zeros 4 ++ leBytes 8 v)
def waitPk (v : Nat) : List Byte := wp 6 2 (leBytes 4 fence5 ++ [1] ++ zeros 3 ++ leBytes 8 v)
def barrierPk : List Byte := wp 7 1 []
def refPk (typ n : Nat) : List Byte := wp typ 2 (leBytes 4 obj3 ++ leBytes 4 n)
def nopPk : List Byte := wp 0x0D 1 []
/-- A COPY of 100 bytes with its flags and session. -/
def copyPk (f sid : Nat) : List Byte :=
  wp 3 2 (leBytes 8 (plaAddr 0x20000) ++ leBytes 8 (plaAddr 0x28000) ++ leBytes 8 100 ++ leBytes 4 f ++ leBytes 4 sid)
def invalPk : List Byte := wp 0x0A 2 [4]
def sess : Session := { id := 6, part := 0, secret := List.replicate 32 0x11 }
def sealed0 (s : State) : State := { s with sessions := [sess] }
/-- Context 0's table lists three references on object 3. -/
def refs3 (s : State) : State := at' (at' s (0x1000000 + 0x50000) (leBytes 8 (3 + 3 * 2 ^ 32))) (0x1000000 + 0x150000 + 2048 + 96 + 16) (leBytes 4 4)

theorem test_hyp_packets : packetReadyB (ringOf fillPk) q0 fillPk = true ∧ packetReadyB (ringOf (signalPk 9)) q0 (signalPk 9) = true ∧
    packetReadyB (ringOf (waitPk 7)) q0 (waitPk 7) = true ∧ packetReadyB (ringOf barrierPk) q0 barrierPk = true ∧
    packetReadyB (ringOf (refPk 8 1)) q0 (refPk 8 1) = true ∧ packetReadyB (ringOf (refPk 9 1)) q0 (refPk 9 1) = true ∧
    packetReadyB (ringOf nopPk) q0 nopPk = true ∧ packetReadyB (ringOf (copyPk 0 0)) q0 (copyPk 0 0) = true ∧
    packetReadyB (ringOf (copyPk 2 6)) q0 (copyPk 2 6) = true ∧ packetReadyB (ringOf invalPk) q0 invalPk = true ∧
    packetReadyB (ringOf (copyPk 4 6)) q0 (copyPk 4 6) = true := by decide +kernel
/-- Each row of `packetRows` with a packet that its checks pass, and with one they refuse where they can. -/
theorem test_hyp_checks :
    (packetRows.zip [(fillPk, readOf fillPk), (signalPk 9, readOf (signalPk 9)), (waitPk 7, readOf (waitPk 7)), (barrierPk, readOf barrierPk),
      (refPk 8 1, refs3 (readOf (refPk 8 1))), (refPk 9 3, refs3 (readOf (refPk 9 3))), (nopPk, readOf nopPk), (copyPk 0 0, readOf (copyPk 0 0)),
      (copyPk 2 6, sealed0 (readOf (copyPk 2 6))), (invalPk, readOf invalPk)]).all
      (fun x => x.1.mine x.2.1 && (x.1.check x.2.2 q0 x.2.1).isNone) = true ∧
    (packetRows.zip [(patchAt fillPk 0x48 [15], readOf fillPk), (signalPk (2 ^ 63), readOf fillPk), (wp 6 2 (leBytes 4 0x30020005 ++ [1]), readOf fillPk),
      (barrierPk, readOf fillPk), (refPk 8 65536, readOf fillPk), (refPk 9 4, refs3 (readOf fillPk)), (nopPk, readOf fillPk), (copyPk 1 1, readOf fillPk),
      (copyPk 2 7, sealed0 (readOf fillPk)), (wp 0x0A 2 [16], readOf invalPk)]).map (fun x => x.1.check x.2.2 q0 x.2.1) =
      [some 0x0401, some 0x0405, some 0x0404, none, some 0x0401, some 0x040A, none, some 0x0401, some 0x0121, some 0x0802] := by decide +kernel
theorem test_signal : let t := after (.signal q0) (ringOf (signalPk 9))
    fieldAt (t.fenceRec 0 5) 0 8 = 9 ∧ (queueOf t q0).head = 2 ∧ (queueOf t q0).cur = none := by decide +kernel
theorem test_ref_add : let t := after (.refAdd q0) (refs3 (ringOf (refPk 8 65535)))
    fieldAt (t.memRec 0 3) 0x10 4 = 65539 ∧ refCount (t.refTable 0 0) 3 = 65538 := by decide +kernel
theorem test_fill_refused : let t := after (.fill q0) (ringOf (patchAt fillPk 0x48 [15]))
    (queueOf t q0).stopped = true ∧ (queueOf t q0).reason = 0x0401 ∧ (queueOf t q0).stopAt = 0 := by decide +kernel
/-- The header of a sealed buffer of 100 bytes for P0, sent by the other side with count 1. -/
def head1 : List Byte := sealHead 6 (2 ^ 63 + 1) 100 0
theorem test_hyp_unseal : let s := sealed0 (at' (ringOf (copyPk 4 6)) 0x20000 head1)
    packetReadyB s q0 (copyPk 4 6) = true ∧ copyFormOk (copyPk 4 6) = true ∧ s.openSession 0 (pay (copyPk 4 6) 0x1C 4) = some sess ∧
    (okOf (s.agentRead 0 0 (plaAddr 0x20000) 64).2).map (fun x => unsealCode sess 0 100 x.1) = some none ∧
    unsealCode { sess with openCount := some 1 } 0 100 head1 = some 0x0122 ∧ unsealCode sess 0 99 head1 = some 0x0123 := by decide +kernel
theorem test_unseal : let t := after (.copyUnseal q0) (sealed0 (at' (ringOf (copyPk 4 6)) 0x20000 head1))
    t.sessions.map (fun x => x.openCount) = [some 1] ∧ (queueOf t q0).cur.isSome = true := by decide +kernel

/-- A program image of one bundle for core 0 of a VD of one cluster. -/
def imageOf (flags : Nat) : List Byte :=
  let i := leBytes 4 0x32474D49 ++ leBytes 2 1 ++ leBytes 2 0x80 ++ leBytes 8 0xC0 ++ leBytes 4 1 ++ leBytes 2 1 ++ leBytes 2 1 ++ zeros 12 ++
    leBytes 2 0x7FF ++ leBytes 2 flags ++ leBytes 4 0x80 ++ leBytes 4 0x90 ++ zeros 80 ++
    (leBytes 4 0 ++ leBytes 4 1 ++ leBytes 4 0 ++ leBytes 4 0xFFFFFFFF) ++ (leBytes 8 0xA0 ++ leBytes 4 32 ++ [1] ++ zeros 3) ++ zeros 32
  patchAt i 0x40 (sha256 i)
def launchPk : List Byte := patchAt (wp 1 2 (leBytes 8 77)) 0x18 (leBytes 8 (plaAddr 0x50000))
def genPayOk : List Byte :=
  patchAt (patchAt (patchAt genPay 0 (leBytes 4 1)) 0x10 (leBytes 4 1000 ++ leBytes 2 0 ++ leBytes 2 1 ++ leBytes 4 0x8000 ++ leBytes 4 4096
    ++ leBytes 4 0x4000 ++ leBytes 4 0xFFFFFFFF)) 0x40 (leBytes 4 16)
def genPk : List Byte := patchAt (wp 2 3 genPayOk) 0x18 (leBytes 8 (plaAddr 0x50000))
def launchSt : State := at' (ringOf launchPk) 0x50000 (imageOf 0)
def genStart : State := at' (ringOf genPk) 0x50000 (imageOf 5)
theorem test_hyp_launch : packetReadyB launchSt q0 launchPk = true ∧ okOf (launchSt.imageCheck 0 0 launchPk false).2 = some (imageOf 0) ∧
    errOf ((ringOf launchPk).imageCheck 0 0 launchPk false).2 = some 0x0410 ∧
    okOf ((inProgress launchSt q0 0 launchPk).imageCheck 0 0 launchPk false).2 = some (imageOf 0) := by decide +kernel
theorem test_launch : let t := after (.launch q0) launchSt
    (queueOf t q0).cur.map (fun r => (r.resident, r.entries)) = some (true, [(0, 0, 0)]) ∧ hasNat (t.part 0).runnable 0 = true := by decide +kernel
theorem test_hyp_generate : let g : GenSt := { queue := 0, payload := (genPk.drop 0x40).take 0x80 }
    packetReadyB genStart q0 genPk = true ∧ okOf (genStart.imageCheck 0 0 genPk true).2 = some (imageOf 5) ∧
    genParamOk g ((genStart.part 0).pat.size 1) true = true ∧ genSpaceOk g 0 = true ∧ genStart.handleCode 0 3 (g.fld 0x60 4) = none ∧
    genParamOk { g with payload := patchAt g.payload 4 (leBytes 2 513) } 1 true = false ∧
    genSpaceOk { g with payload := patchAt g.payload 0x20 (leBytes 4 0x8000) } 0 = false ∧
    genStart.handleCode 0 3 0x30020005 = some 0x0404 ∧
    okOf ((inProgress genStart q0 0 genPk).imageCheck 0 0 genPk true).2 = some (imageOf 5) := by decide +kernel
theorem test_hyp_down : (goes (runOf launchPk)).vdDown 0 1 = false ∧
    ({ goes (runOf launchPk) with recov := { domains := [{ dom := .l1 0 }] } } : State).vdDown 0 1 = true := by decide +kernel

-- packets that end

def done (b : List Byte) : State := goes { runOf b with resident := true }
theorem test_hyp_launch_end : let s := withPart { part0 with ctxs := [(0, { (ctxGen gen0) with genr := none, qs := [(0, { enabled := true, cur := some { genRun with typ := 1 } })] })] }
    let at0 (r : RunState) : State := { s with clusters := [(0, { ctx := some hc, cores := [(0, { run := r })] })] }
    (at0 .stopped).runHalted 0 0 genRun = true ∧ (at0 .stopped).runQuiet 0 0 = true ∧ ((at0 .stopped).ctx 0 0).frozen = false ∧
    (at0 .running).runHalted 0 0 genRun = false ∧ (queueOf (after (.launchComplete q0) (at0 .stopped)) q0).cur = none := by decide +kernel
theorem test_hyp_copies : let gate (s : State) (b : List Byte) : State × Bool := s.copyGate 0 0 { runOf b with resident := true }
    let f := (goes (runOf fillPk)).copyGate 0 0 (runOf fillPk)
    let c := (goes (runOf (copyPk 0 0))).copyGate 0 0 (runOf (copyPk 0 0))
    let u := (goes (runOf (copyPk 4 6))).copyGate 0 0 (runOf (copyPk 4 6))
    f.2 = true ∧ c.2 = true ∧ u.2 = true ∧ (gate (sealed0 (goes (runOf (copyPk 2 6)))) (copyPk 2 6)).2 = true ∧
    (okOf (f.1.agentWrite 0 0 (plaAddr 0x20000) (patternBytes 0xAB 16) false).2).isSome = true ∧
    (okOf (copyBytes 0 0 4 (plaAddr 0x20000) (plaAddr 0x28000) 100 c.1).2).isSome = true ∧
    (sealed0 (goes (runOf (copyPk 2 6)))).copySession 0 6 = some sess ∧
    (okOf (u.1.agentRead 0 0 (plaAddr 0x20000) 164).2).isSome = true := by decide +kernel
/-- The sequencer of die 0 has heard from the stop of channel 0 that label 0 is CAPPED: its copies wait (R454). -/
def copyCapped (s : State) : State := { s with regulators := [(13, { sent := [{ src := 192, part := 0, label := 0, state := 2, rate := 0 }] })] }
theorem test_hyp_copy_held : ((copyCapped (goes (runOf fillPk))).copyGate 0 0 (runOf fillPk)).2 = false ∧
    ((copyCapped (goes (runOf (copyPk 0 0)))).copyGate 0 0 (runOf (copyPk 0 0))).2 = false ∧
    (queueOf (after (.copyComplete q0) (copyCapped (goes (runOf fillPk)))) q0).cur.isSome = true := by decide +kernel
theorem test_fill : pla (after (.copyComplete q0) (goes (runOf fillPk))) 0x20000 16 = [0xAB, 0, 0, 0, 0, 0, 0, 0, 0xAB, 0, 0, 0, 0, 0, 0, 0] := by
  decide +kernel
theorem test_copy : pla (after (.copyComplete q0) (at' (goes (runOf (copyPk 0 0))) 0x20063 [9, 9])) 0x28062 3 = [0, 9, 0] := by decide +kernel
/-- Fence 5 stands at 7: a WAIT for 7 is satisfied, one for 8 is not; at an error either ends. -/
def errored (s : State) : State := at' s (0x1000000 + 0x150000 + 160) (leBytes 8 (2 ^ 63 + 0x8001))
theorem test_hyp_wait : okOf ((goes (runOf (waitPk 7))).handleIdx 0 3 fence5) = some 5 ∧ fieldAt ((goes (runOf (waitPk 7))).fenceRec 0 5) 0 8 = 7 ∧
    (fieldAt ((errored (goes (runOf (waitPk 7)))).fenceRec 0 5) 0 8).testBit 63 = true ∧
    (queueOf (after (.waitSatisfied q0) (goes (runOf (waitPk 7)))) q0).cur = none ∧
    (queueOf (after (.waitSatisfied q0) (goes (runOf (waitPk 8)))) q0).cur.isSome = true := by decide +kernel
theorem test_hyp_barrier : let two := fun n => stOf { partQ {} with ctxs := [(0, { state := 1, vd := 1, qs := [(0, { cur := some (runOf barrierPk) }), (1, { cur := some { runOf fillPk with order := n } })] })] }
    let late : FabWrite := { id := 1, k := k00, part := 0, rev := 0, gen := 3, msg := false, addr := 2 ^ 60, data := [], orphan := true }
    (queueOf (after (.barrierComplete q0) (two 1)) q0).cur.isSome = true ∧ (queueOf (after (.barrierComplete q0) (two 3)) q0).cur = none ∧
    (queueOf (after (.barrierComplete q0) { two 3 with writes := [late] }) q0).cur.isSome = true := by
  decide +kernel
theorem test_bad_fence : let s := (goes (runOf nopPk)).updPart 0 (fun x => { x with badFence := true })
    okOf (s.handleIdx 0 3 fence5) = some 5 ∧ (s.part 0).badFence = true ∧
    fieldAt ((s.fenceSignal 0 fence5 9 0).fenceRec 0 5) 0 8 = fieldAt (s.fenceRec 0 5) 0 8 := by decide +kernel
theorem test_hyp_fence_signals : let s := goes (runOf nopPk)
    let d : DirSt := { base := 0x1000000, fences := 64, memobjs := 64 }
    okOf (s.handleIdx 0 3 fence5) = some 5 ∧ okOf ((errored s).handleIdx 0 3 fence5) = some 5 ∧ (s.part 0).dir = some d ∧ d.base % 256 = 0 ∧
    (okOf (s.locatePla (s.part 0).pat (d.fence 5))).isSome = true ∧ d.fence 5 < 2 ^ 44 ∧ fieldAt (s.fenceRec 0 5) 0x14 1 = 0xFF ∧
    Mem.wf (s.chan 0).mem = true := by decide +kernel

/-- The conditions of `ControlReady`, evaluated. -/
def controlReadyB (s : State) (p : Fin 64) (b : List Byte) : Bool :=
  let a := s.headOf p 0 (s.part p).cq
  (s.part p).runs && decide (a.2 = .packet b false) && ((ctlPast a.1 p b).controlCheck p b false).isNone

theorem controlReady_of {s : State} {p : Fin 64} {b : List Byte} (e : controlReadyB s p b = true) :
    ControlReady s (s.headOf p 0 (s.part p).cq).1 p b := by
  simp only [controlReadyB, Bool.and_eq_true, decide_eq_true_eq, Option.isNone_iff_eq_none] at e
  exact ⟨e.1.1, Prod.ext rfl e.1.2, e.2⟩

/-- A control packet at the head of P0's control queue, in a partition with the objects of `withObjects`. -/
def ctlOf (x : PartSt) (b : List Byte) : State :=
  at' (withObjects (stOf { x with cq := { enabled := true, ring := plaAddr 0x180000, entries := 64, tail := 2 } })) 0x180000 b
/-- The state in which the packet's own checks run. -/
def ctlSeen (x : PartSt) (b : List Byte) : State := ctlPast ((ctlOf x b).headOf 0 0 ((ctlOf x b).part 0).cq).1 0 b
def pq : PartSt := partQ {}

-- the control queue

def dirPk : List Byte := wp 0x10 2 (leBytes 8 (plaAddr 0x2000000) ++ leBytes 4 64 ++ leBytes 4 64)
def ctxPk (c slice : Nat) (xs1 : Nat) : List Byte :=
  wp 0x11 2 (leBytes 4 1 ++ leBytes 2 c ++ leBytes 2 1 ++ leBytes 8 xs1 ++ zeros 8 ++ leBytes 8 5 ++ [16] ++ zeros 5 ++ leBytes 1 slice ++ [15])
def noDir : PartSt := { pq with dir := none }
theorem test_hyp_dir : controlReadyB (ctlOf noDir dirPk) 0 dirPk = true ∧ (noDir.dir.isNone && isPla (pay dirPk 0 8)) = true ∧
    payZero dirPk 16 48 = true ∧ powTwoIn 64 64 65536 = true ∧ powTwoIn 65536 64 65536 = true ∧ powTwoIn 63 64 65536 = false ∧
    controlReadyB (ctlOf pq dirPk) 0 dirPk = true ∧ pq.dir.isNone = false := by decide +kernel
theorem test_hyp_ctx : controlReadyB (ctlOf pq (ctxPk 255 100 0)) 0 (ctxPk 255 100 0) = true ∧ xlateOk 0 0 = true ∧ xlateOk (2 ^ 60) 0 = false ∧
    controlReadyB (ctlOf pq (ctxPk 1 101 0)) 0 (ctxPk 1 101 0) = true ∧ controlReadyB (ctlOf pq (ctxPk 1 1 (2 ^ 60))) 0 (ctxPk 1 1 (2 ^ 60)) = true := by
  decide +kernel
theorem test_ctx_create : let t := after (.ctxCreate 0) (ctlOf pq (ctxPk 255 100 0))
    (t.ctx 0 255).state = 1 ∧ (t.ctx 0 255).slice = 100 ∧ (t.ctx 0 255).queues = 16 ∧ (t.part 0).cq.head = 2 := by decide +kernel

def destroyPk (c : Nat) : List Byte := wp 0x12 2 (leBytes 2 c)
def ctxIn (state step : Nat) : PartSt := { pq with ctxs := [(0, { state := state, vd := 1, queues := 1, abortStep := step, qs := [(0, { enabled := true })] })] }
theorem test_hyp_ctx_destroy : controlReadyB (ctlOf pq (destroyPk 0)) 0 (destroyPk 0) = true ∧ ((ctlSeen pq (destroyPk 0)).ctx 0 0).state = 1 ∧
    ((ctlSeen pq (destroyPk 9)).ctx 0 9).state = 0 ∧ ((ctlSeen (ctxIn 2 1) (destroyPk 0)).ctx 0 0).state = 2 ∧ payZero (destroyPk 256) 2 62 = true ∧
    controlReadyB (ctlOf pq (destroyPk 256)) 0 (destroyPk 256) = true := by decide +kernel
theorem test_hyp_teardown_steps : ready.vfServes 0 0 = true ∧ ((stOf (ctxIn 2 1)).ctx 0 0).state = 2 ∧ ((stOf (ctxIn 2 5)).ctx 0 0).abortStep = 5 ∧
    ((after (.contextTeardownStep 0 0) (stOf (ctxIn 2 5))).part 0).gen 1 0 = 2 ∧ ((after (.dblAbort 0 0 0 1) (stOf pq)).ctx 0 0).abortStep = 1 ∧
    ((after (.dblAbort 0 0 9 1) (stOf pq)).part 0).dropped = 1 ∧ ((after (.dblAbort 0 0 0 2) (stOf pq)).part 0).dropped = 1 := by decide +kernel
/-- Packets of the directory and of CTX_DESTROY with a byte of their reserved fields set. -/
def spoiled (b : List Byte) : List Byte := b.take 100 ++ [1] ++ b.drop 101
theorem test_hyp_reserved : payZero (spoiled dirPk) 16 48 = false ∧ controlReadyB (ctlOf noDir (spoiled dirPk)) 0 (spoiled dirPk) = true ∧
    payZero (spoiled (destroyPk 0)) 2 62 = false ∧ controlReadyB (ctlOf pq (spoiled (destroyPk 0))) 0 (spoiled (destroyPk 0)) = true := by decide +kernel

/-- A descriptor of queue 0 of context 0 on the ring at 0x100000. -/
def qdesc (entries : Nat) : List Byte :=
  leBytes 4 1 ++ [1, 0] ++ zeros 2 ++ leBytes 8 (plaAddr 0x100000) ++ leBytes 4 entries ++ zeros 12 ++ leBytes 2 0
theorem test_hyp_queue_set : controlReadyB (ctlOf pq (wp 0x13 2 (qdesc 64))) 0 (wp 0x13 2 (qdesc 64)) = true ∧
    queueDescOk (payload (wp 0x13 2 (qdesc 64))) false = true ∧ queueDescOk (payload (wp 0x13 2 (qdesc 63))) false = false ∧
    ((stOf pq).ringReads 0 0 (plaAddr 0x100000) 4096).2 = true ∧ ((stOf pq).ctx 0 0).queues = 1 := by decide +kernel
theorem test_queue_set : let t := after (.queueSet 0) (ctlOf pq (wp 0x13 2 (qdesc 64)))
    (t.queue 0 0 0).enabled = true ∧ (t.queue 0 0 0).entries = 64 ∧
    ((after (.queueSet 0) (ctlOf pq (wp 0x13 2 (qdesc 63)))).queue 0 0 0).reason = 0x0406 := by decide +kernel
def qctl (op : Nat) : List Byte := wp 0x14 2 ([0, 0, 0] ++ leBytes 1 op)
def stoppedQ : QueueSt := { enabled := true, stopped := true, reason := 0x8001, ring := plaAddr 0x100000, entries := 64, head := 2, tail := 4 }
theorem test_hyp_queue_ctl : [1, 2, 3, 4].all (fun op => controlReadyB (ctlOf (partQ stoppedQ) (qctl op)) 0 (qctl op)) = true ∧
    ((ctlSeen (partQ stoppedQ) (qctl 1)).queue 0 0 0).enabled = true ∧ ((ctlSeen pq (qctl 1)).queue 0 0 0).enabled = false ∧
    ((ctlOf (partQ stoppedQ) (qctl 1)).part 0).cq.cur = none ∧ payZero (qctl 1) 4 60 = true := by decide +kernel
/-- A QUEUE_CTL in progress that waits for the queue's packet boundary, and one whose boundary has come. -/
def ctlWaits (op : Nat) (cur : Option PacketRun) : State := stOf { partQ { stoppedQ with cur := cur, ctl := [op] } with cq := { cur := some (runOf (qctl op)) } }
theorem test_hyp_queue_ctl_waits : ((ctlWaits 4 none).part 0).cq.cur = some (runOf (qctl 4)) ∧ ((ctlWaits 4 none).part 0).runs = true ∧
    ((ctlWaits 4 none).queue 0 0 0).cur = none ∧ ((after (.queueCtlDisable 0) (ctlWaits 4 none)).queue 0 0 0).enabled = false ∧
    ((after (.queueCtlResume 0) (ctlWaits 1 none)).queue 0 0 0).stopped = false ∧
    ((after (.queueCtlFlush 0) (ctlWaits 2 none)).queue 0 0 0).head = 4 ∧
    ((after (.queueCtlDisable 0) (ctlWaits 4 (some (runOf fillPk)))).part 0).cq.cur.isSome = true := by decide +kernel
/-- The queue that a QUEUE_CTL names has a packet in progress. -/
theorem test_hyp_queue_ctl_busy : let x := partQ { stoppedQ with cur := some (runOf fillPk) }
    controlReadyB (ctlOf x (qctl 2)) 0 (qctl 2) = true ∧ ((ctlSeen x (qctl 2)).queue 0 0 0).cur.isSome = true ∧
    ((after (.queueCtlFlush 0) (ctlOf x (qctl 2))).queue 0 0 0).ctl = [2] := by decide +kernel
theorem test_hyp_ring_doorbell : (stOf (partQ stoppedQ)).vfServes 0 0 = true ∧
    ((after (.dblRing 0 0 (some 0) 66) (stOf (partQ stoppedQ))).queue 0 0 0).tail = 66 ∧
    ((after (.dblRing 0 0 (some 0) 67) (stOf (partQ { stoppedQ with stopped := false }))).queue 0 0 0).reason = 0x0407 ∧
    ((after (.dblRing 0 0 (some 0) (2 ^ 32)) (stOf (partQ stoppedQ))).part 0).dropped = 1 ∧
    ((after (.dblRing 0 0 none 64) (stOf { pq with cq := { enabled := true, entries := 64 } })).part 0).cq.tail = 64 ∧
    ((after (.dblRing 0 0 none 65) (stOf { pq with cq := { enabled := true, entries := 64 } })).part 0).cq.tail = 0 ∧
    ((after (.dblRing 0 0 none 64) (stOf pq)).part 0).dropped = 1 := by decide +kernel
/-- A doorbell of a context in its teardown, whose queue's packets are flushed. -/
theorem test_ring_teardown :
    let t := after (.dblRing 0 0 (some 0) 4)
      (stOf { pq with ctxs := [(0, { state := 2, vd := 1, queues := 1, abortStep := 2, qs := [(0, { enabled := true, entries := 64 })] })] })
    ((t.queue 0 0 0).head, (t.queue 0 0 0).tail) = (4, 4) := by decide +kernel

def edesc (en entries : Nat) : List Byte :=
  leBytes 4 1 ++ leBytes 1 en ++ [2] ++ zeros 2 ++ leBytes 8 (plaAddr 0x190000) ++ leBytes 4 entries ++ zeros 20 ++ leBytes 2 0xFFFF
theorem test_hyp_evq_set : controlReadyB (ctlOf pq (wp 0x15 2 (edesc 1 16))) 0 (wp 0x15 2 (edesc 1 16)) = true ∧
    controlReadyB (ctlOf pq (wp 0x15 2 (edesc 0 16))) 0 (wp 0x15 2 (edesc 0 16)) = true ∧ evqDescOk (payload (wp 0x15 2 (edesc 0 16))) 2 false = true ∧
    ((stOf pq).evqCheck 0 2 (payload (wp 0x15 2 (edesc 1 16)))).2 = true ∧ ((stOf pq).evqCheck 0 2 (payload (wp 0x15 2 (edesc 1 15)))).2 = false := by
  decide +kernel
theorem test_evq_set : ((after (.evqSet 0) (ctlOf pq (wp 0x15 2 (edesc 1 16)))).part 0 |>.evq 2).entries = 16 ∧
    ((after (.evqSet 0) (ctlOf pq (wp 0x15 2 (edesc 1 15)))).part 0 |>.evq 2).reason = 0x0406 := by decide +kernel
/-- Queue 2 holds records 0 and 1; 0 is claimed. -/
def evqs : State := stOf { pq with evqs := [(2, { enabled := true, ring := plaAddr 0x190000, entries := 16, producer := 2, claimed := [0] })] }
theorem test_hyp_claims : ((evqs.part 0).evq 2).unclaimed = [1] ∧ evqs.vfServes 0 0 = true ∧ evqs.vfServes 1 0 = false ∧
    ((evqs.part 0).evq 2).claimed.find? (fun n => decide (n % 16 = 0)) = some 0 ∧ ((evqs.part 0).evq 3).enabled = false ∧
    ((after (.evqClaim 0 0 false 2) evqs).port 0).claimValue = 1 ∧ ((after (.evqClaim 1 0 false 2) evqs).port 1).claimValue = 2 ^ 64 - 1 ∧
    (((after (.evqComplete 0 0 false 2 0) evqs).part 0).evq 2).consumer = 1 ∧
    (((after (.evqComplete 0 0 false 2 1) evqs).part 0).evq 2).bad = 1 := by decide +kernel
theorem test_hyp_advance : let e : EvqSt := { entries := 16, producer := 2, completed := [0] }
    hasNat e.completed e.consumer = true ∧ e.consumer ≠ e.producer ∧ (e.advance 16).consumer = 1 ∧ ({ e with completed := [1] } : EvqSt).advance 16 = { e with completed := [1] } ∧
    (evqs.part 0).held = [] ∧ (evqs.part 0).faultHeld = [] := by decide +kernel

def fcPk (i : Nat) : List Byte := wp 0x16 2 (leBytes 4 i ++ leBytes 2 255 ++ [0xFF, 0] ++ leBytes 8 3 ++ leBytes 8 (2 ^ 64 - 1))
def mcPk : List Byte := wp 0x18 2 (leBytes 4 4 ++ leBytes 2 0 ++ [0xFF, 0] ++ leBytes 8 (plaAddr 0x300000) ++ leBytes 8 512)
def fdPk (typ h : Nat) : List Byte := wp typ 2 (leBytes 4 h)
/-- The table of context 0 lists object 4 at its first place. -/
def refs4 (s : State) : State := at' s (0x1000000 + 0x50000) (leBytes 8 (4 + 2 ^ 32))
theorem test_hyp_objects : controlReadyB (ctlOf pq (fcPk 63)) 0 (fcPk 63) = true ∧ controlReadyB (ctlOf pq (fcPk 64)) 0 (fcPk 64) = true ∧
    controlReadyB (ctlOf pq (fdPk 0x17 fence5)) 0 (fdPk 0x17 fence5) = true ∧ controlReadyB (refs4 (ctlOf pq mcPk)) 0 mcPk = true ∧
    controlReadyB (ctlOf pq (fdPk 0x19 obj3)) 0 (fdPk 0x19 obj3) = true := by decide +kernel
theorem test_hyp_objects_checks : let s := refs4 (ctlSeen pq mcPk)
    bitAt (fieldAt (s.fenceRec 0 63) 0x15 1) 0 = false ∧ (s.part 0).genLeft 3 63 = true ∧ s.evqCode 0 0xFF = none ∧
    bitAt (fieldAt (s.fenceRec 0 5) 0x15 1) 0 = true ∧ okOf (s.handleIdx 0 3 fence5) = some 5 ∧ errOf (s.handleIdx 0 3 0) = some 0x0403 ∧
    isPla (pay mcPk 8 8) = true ∧ bitAt (fieldAt (s.memRec 0 4) 0x18 1) 0 = false ∧ (refPlace (s.refTable 0 0) 4).isSome = true ∧
    okOf (s.handleIdx 0 4 obj3) = some 3 ∧ errOf (s.handleIdx 0 4 0x40010004) = some 0x0404 := by decide +kernel
theorem test_objects : let t := after (.fenceCreate 0) (ctlOf pq (fcPk 63))
    okOf (t.handleIdx 0 3 0x3001003F) = some 63 ∧ fieldAt (t.fenceRec 0 63) 0 8 = 3 ∧
    ((after (.fenceDestroy 0) (ctlOf pq (fdPk 0x17 fence5))).part 0).gen 3 5 = 2 ∧
    okOf ((after (.memobjCreate 0) (refs4 (ctlOf pq mcPk))).handleIdx 0 4 0x40010004) = some 4 ∧
    bitAt (fieldAt ((after (.memobjFree 0) (ctlOf pq (fdPk 0x19 obj3))).memRec 0 3) 0x18 1) 1 = true := by decide +kernel
theorem test_hyp_zeroing : let s := stOf { pq with zeroing := [(3, 0xFFFF)] }
    tabFind (s.part 0).zeroing 3 = some 0xFFFF ∧ ((after (.memobjZeroingComplete 0 3) s).part 0).gen 4 3 = 2 := by decide +kernel

-- host ports

/-- Line 0x40 of channel 0, poisoned, is at PLA 0x1000 / 64. -/
def hostSt : State := at' (stOf pq) 0x1000 (List.replicate 64 5)
theorem test_hyp_hdm : hostSt.hdmLookup 0 0x1000 = .serve 0 0 0x1000 ∧ (hostSt.chan 0).hostLines.length < 32768 ∧ Mem.wf (hostSt.chan 0).mem = true ∧
    hostSt.hdmLookup 0 (2 ^ 44) = .refused none ∧ hostSt.hdmLookup 0 3000000000 = .refused (some 0) ∧ (hostSt.port 0).hdmBase = some 0 ∧
    hostSt.portOwns 0 0 = true ∧ hostSt.portOwns 0 1 = false ∧ hostSt.plaRefuses (hostSt.part 0).pat 0x1000 0 = none ∧
    (hostSt.part 0).pat.resolve 0x1000 = some (0, 0x1000) ∧ (hostSt.part 0).pat.resolve 3000000000 = none ∧ (hostSt.chEntry 0).state = .bound ∧
    hostSt.chanRefuses 0 = none ∧
    (({ hostSt with pool := { hostSt.pool with channels := [(0, { state := .bound, withdrawing := true })] } } : State).hdmLookup 0 0x1000 = .refused (some 0)) := by
  decide +kernel
/-- The directory of channel 0 is full, and the line read is not in it. -/
def hostFull : State := hostSt.updChan 0 (fun c => { c with hostLines := List.replicate 32768 5 })
theorem others_absent (n : Nat) : hasNat (List.replicate n 5) 64 = false := by
  induction n with
  | zero => rfl
  | succ n ih => simp [hasNat, List.replicate_succ] at ih ⊢
theorem test_hyp_hdm_full : hostFull.hdmLookup 0 0x1000 = .serve 0 0 0x1000 ∧ (hostFull.chan 0).hostLines = 5 :: List.replicate 32767 5 ∧
    hasNat (hostFull.chan 0).hostLines 64 = false ∧ 32768 ≤ (hostFull.chan 0).hostLines.length := by
  have e : (hostFull.chan 0).hostLines = List.replicate 32768 5 := by rfl
  exact ⟨by decide +kernel, e.trans List.replicate_succ, by rw [e, others_absent], Nat.le_of_eq ((congrArg List.length e).trans List.length_replicate).symm⟩
/-- The host holds line 64 of channel 0, which a device read has called back. -/
def snoopData : State := hostSt.updChan 0 (fun c => { c with hostLines := [64], bisnpData := [64] })
theorem test_hyp_bisnp_data : hasNat (snoopData.chan 0).hostLines 64 = true ∧ hasNat (snoopData.chan 0).bisnp 64 = false ∧
    (snoopData.chEntry 0).withdrawing = false ∧ hasNat (snoopData.chan 0).bisnpData 64 = true ∧
    ((after (.bisnpResponse 0 64 none) snoopData).chan 0).hostShared = [64] := by decide +kernel
theorem test_hdm : ((after (.cxlMemRead 0 0x1010) hostSt).port 0).readData = List.replicate 64 5 ∧
    ((after (.cxlMemRead 0 (2 ^ 44)) hostSt).port 0).stray = 1 ∧
    ((after (.cxlMemWrite 0 3000000000 (zeros 64) false) hostSt).part 0).hdmRefused = 1 := by decide +kernel
/-- A host's write leaves every memory in its form. -/
theorem test_hyp_memories : hostSt.memOk = true ∧
    (match Sys2Proof.Machine.step { hostSt with pending := [.cxlMemWrite 0 0x1000 (zeros 64) false] } with | .next t => t.memOk | _ => false) = true := by
  decide +kernel
def cxlHeld : State := { hostSt with regulators := [(13, { sent := [{ src := 197, part := 0, label := 0, state := 2, rate := 0 }] })] }
/-- HP0 may take a read of P0's label 0, and may not while it is held there. -/
theorem test_hyp_cxl_gate : (hostSt.cxlGate 0 0 0 false).2 = true ∧ (hostSt.cxlGate 0 0 0 true).2 = true ∧
    (cxlHeld.hdmLookup 0 0x1000 = .serve 0 0 0x1000 ∧ (cxlHeld.cxlGate 0 0 0 false).2 = false) := by decide +kernel
/-- Line 64 of channel 0 is with the host and is being called back. -/
def snooped (w : Bool) : State :=
  { (hostSt.updChan 0 (fun c => { c with hostLines := [64], bisnp := [64] })) with
    pool := { hostSt.pool with channels := [(0, { state := .bound, withdrawing := w })] } }
theorem test_hyp_bisnp : hasNat ((snooped true).chan 0).hostLines 64 = true ∧ hasNat ((snooped true).chan 0).bisnp 64 = true ∧
    hasNat ((snooped true).chan 0).hostLines 65 = false ∧ Mem.wf ((snooped true).chan 0).mem = true ∧ ((snooped true).chEntry 0).withdrawing = true ∧
    ((snooped true).chan 0).lineWait = [] ∧ ((snooped true).chan 0).writeWait = [] ∧
    ((after (.bisnpResponse 0 64 (some (List.replicate 64 8))) (snooped true)).chan 0).hostLines = [] ∧
    ((after (.hdmWithdrawComplete 0) (snooped true)).chEntry 0).withdrawing = true ∧
    ((after (.bisnpTimeout 0 64) (snooped false)).port 0).failed = true := by decide +kernel
theorem test_withdrawn : ((after (.hdmWithdrawComplete 0) (after (.bisnpResponse 0 64 none) (snooped true))).chEntry 0).withdrawing = false ∧
    ((after (.hostSnoop 0 3) { hostSt with ports := [(0, { heldLines := [(3, 0), (4, 0)] })] }).port 0).heldLines = [(4, 0)] := by decide +kernel

/-- Only module 0 of HP0 is up; module 1 has not trained. -/
def oneUp : State := { ready with ports := [(0, { modules := 1 })] }
def untrained : State := { oneUp with ports := [], phase := .bootCode }
theorem test_hyp_links : untrained.linksTrain = true ∧ untrained.sites.testBit 0 = true ∧ (untrained.port 0).failed = false ∧
    (untrained.port 0).modules.testBit 1 = false ∧ (({ untrained with ports := [(0, { outModules := 2 })] } : State).port 0).outModules.testBit 1 = true ∧
    ready.lmUp 5 = true ∧ (oneUp.port 0).modules.testBit 0 = true ∧ setBit 1 0 false = 0 ∧ setBit (ready.port 0).modules 0 false ≠ 0 := by decide +kernel
theorem test_hyp_links_edge : let s := { ready with recov := { domains := [{ dom := .l2 0, step := 4 }] } }
    (natRange 0 24).any (fun m => s.dieRetrains (edgeDies (lmEdge m)).1 || s.dieRetrains (edgeDies (lmEdge m)).2) = true ∧ (s.lmEntry 0).state = .free := by
  decide +kernel
theorem test_links : ((after (.linkTraining (.host 0 1) true) untrained).port 0).modules = 2 ∧
    ((after (.linkTraining (.host 0 1) false) untrained).port 0).outModules = 2 ∧
    ((after (.hostReplayTimeout 0 0) oneUp).port 0).failed = true ∧ ((after (.hostReplayTimeout 0 0) ready).port 0).modules = 2 ∧
    ((after (.ideIntegrityFailure 0) ready).port 0).modules = 0 ∧ (after (.d2dReplayTimeout 5) ready).lmUp 5 = false := by decide +kernel
theorem test_hyp_retrain : let s : State := { ready with ports := [(0, { failed := true, outModules := 1 })] }
    (s.port 0).failed = true ∧ ((after (.hostPortRetrained 0 3) s).port 0).modules = 2 ∧ ((after (.hostPortRetrained 0 1) s).port 0).failed = true := by
  decide +kernel

/-- Context 0 translates by Sv48 through a table that its partition does not hold. -/
def sv48 (x : PartSt) : State := stOf { x with ctxs := [(0, { state := 1, vd := 1, xs1 := 9 * 2 ^ 60 })] }
def vaRead : OutRead := { addr := 2 ^ 63 + 0x1000, len := 8, dest := .scalar 1 8 false, sent := true }
def vaWrite : FabWrite := { id := 4, k := k00, part := 0, vd := 1, rev := 0, gen := 3, msg := false, addr := 2 ^ 63 + 0x1000, data := zeros 8, sent := true }
def walks (s : State) : State :=
  { s with clusters := [(0, { ctx := some hc, cores := [(0, { run := .running, wait := [vaRead] })] })], writes := [vaWrite] }
theorem test_hyp_walks : (okOf ((stOf pq).xlate 0 0 0x1000 true).2).isSome = true ∧ (errOf ((sv48 pq).xlate 0 0 0x1000 true).2).isSome = true ∧
    (errOf ((sv48 pq).xlate 0 0 0x1000 false).2).isSome = true ∧ ((walks (sv48 pq)).cl 0).ctx = some hc ∧
    ((walks (sv48 pq)).core k00).wait = [vaRead] ∧ (walks (sv48 pq)).findWrite 4 = some vaWrite ∧ vaRead.addr / 2 ^ 60 = 8 ∧ vaWrite.addr / 2 ^ 60 = 8 ∧
    (walks (sv48 pq)).vaWaits 0 0 0 vaRead.addr 8 false = false ∧ (walks (sv48 pq)).vaWaits 0 0 0 vaWrite.addr 1 true = false ∧
    ((walks (sv48 pq)).walkGate 0 0 0 vaRead.addr false).2 = true ∧ ((walks (sv48 pq)).walkGate 0 0 0 vaWrite.addr true).2 = true := by
  decide +kernel
/-- Every walker of die 0 is busy for partition 1. -/
def noWalker : State :=
  { walks (sv48 pq) with walkers := [(0, { busy := (natRange 0 32).map (fun i => { part := 1, ctx := 0, vpn := i, write := false, ended := decide (i = 3) }) })] }
theorem test_hyp_walks_wait : (noWalker.walkGate 0 0 0 vaRead.addr false).2 = false ∧ (noWalker.walkGate 0 0 0 vaWrite.addr true).2 = false ∧
    bitsAt (noWalker.ctx 0 0).xs1 63 60 ≠ 0 ∧ tlbHit (noWalker.part 0).tlb (noWalker.ctx 0 0).xs1 (noWalker.ctx 0 0).xg 0x1000 false = none ∧
    (tabGet {} noWalker.walkers 0).busy.length = 32 ∧ hasMiss (tabGet {} noWalker.walkers 0).busy { part := 0, ctx := 0, vpn := 1, write := false } = false ∧
    (tabGet {} (after (.walkComplete (.coreRead k00)) noWalker).walkers 0).waiting.length = 1 ∧
    (tabGet {} (after (.walkerFreed 0 3) noWalker).walkers 0).busy.length = 31 ∧
    (tabGet {} (after (.walkerFreed 0 4) noWalker).walkers 0).busy.length = 32 := by decide +kernel
/-- An agent of context 0 walks through the walkers of its VD's die, and waits where all are busy. -/
theorem test_hyp_walks_agent : ((sv48 pq).ctx 0 0).state ≠ 0 ∧ ((sv48 pq).part 0).pstate = .enabled ∧ (sv48 pq).agentPool 0 0 false = 0 ∧
    ((sv48 pq).walkGate 0 0 0 0x1000 true).2 = true ∧ (noWalker.walkGate (noWalker.agentPool 0 0 false) 0 0 0x1000 true).2 = false ∧
    (errOf (((sv48 pq).walkGate 0 0 0 0x1000 true).1.xlate 0 0 0x1000 true ((sv48 pq).agentVia 0 0 false none)).2).isSome = true ∧
    (okOf (((stOf pq).walkGate 0 0 0 0x1000 true).1.xlate 0 0 0x1000 true ((stOf pq).agentVia 0 0 false none)).2).isSome = true := by decide +kernel
/-- Context 0 translates by Sv39 through a table at PLA 0x200000, whose first entry is a leaf at address 0. -/
def sv39 : State := at' (stOf { pq with ctxs := [(0, { state := 1, vd := 1, xs1 := 8 * 2 ^ 60 + 0x200 })] }) 0x200000 (leBytes 8 0xD7)
theorem test_hyp_walk_caches : tlbHit ((sv48 pq).part 0).tlb ((sv48 pq).ctx 0 0).xs1 0 0x1000 true = none ∧
    (errOf ((sv48 pq).walk 0 (9 * 2 ^ 60) 0 0x1000 true).2).isSome = true ∧
    tlbHit ((stOf pq).part 0).tlb 0 0 0x1000 true = none ∧ (okOf ((stOf pq).walk 0 0 0 0x1000 true).2).isSome = true ∧
    tlbHit (sv39.part 0).tlb (sv39.ctx 0 0).xs1 (sv39.ctx 0 0).xg 0x1000 true = none ∧
    okOf (sv39.walk 0 (sv39.ctx 0 0).xs1 (sv39.ctx 0 0).xg 0x1000 true).2 = some (0x1000, 240) ∧
    ((((walks sv39).xlate 0 0 0x1000 true).1.part 0).tlb.map (fun e => (e.vpn, e.ppn, e.canWrite))) = [(1, 1, true)] := by decide +kernel
/-- Batch 4 of serial 9, which holds the write's access, stands unanswered, and one is open. -/
def batched : State :=
  let r : FaultRec := { cause := 15, flags := 0, vaddr := 0x1000, gpa := 0, ctx := 0, vc := 0, core := 0, source := 0, code := 0x8801 }
  stOf { pq with nextBatch := 5, nextSerial := 11, batches := [{ serial := 10, ctx := 0, batched := true, recs := [r] }, { serial := 9, number := some 4, ctx := 0, batched := false, recs := [r] }] }
/-- Two writes whose accesses are held, one in batch 4 and one in the open batch. -/
def twoHeld : State := { batched with writes := [{ vaWrite with faulted := true, batch := 9 }, { vaWrite with id := 5, faulted := true, batch := 10 }] }
theorem test_hyp_batches : ((batched.part 0).batches.find? (batched.opens 0 0 true)).isSome = true ∧ (ready.part 0).batches.find? (ready.opens 0 0 true) = none ∧
    (batched.part 0).batches.find? (fun b => decide (b.number = some 4)) = (batched.part 0).batches[1]? ∧
    (batched.part 0).batches.find? (fun b => decide (b.number = some 5)) = none ∧ batched.vfServes 0 0 = true ∧
    ((after (.faultBatchTimeout 0 0) batched).part 0).nextBatch = 6 ∧
    ((after (.dblFaultRetry 0 0 4) batched).part 0).batches.length = 1 ∧ ((after (.dblFaultRetry 0 0 5) batched).part 0).faultIgnored = 1 ∧
    ((after (.dblFaultFail 0 0 (2 ^ 63 + 2 ^ 32)) batched).part 0).dropped = 1 ∧
    ((after (.dblFaultFail 0 0 (2 ^ 63 + 4)) batched).part 0).batches.length = 1 ∧
    (after (.dblFaultRetry 0 0 4) twoHeld).writes.map (fun w => w.faulted) = [false, true] ∧
    (after (.dblFaultRetry 0 0 4) { twoHeld with parts := [(0, { twoHeld.part 0 with pstate := .frozen })] }).writes.map (fun w => w.faulted) = [true, true] := by
  decide +kernel

theorem test_hyp_peq : (ready.port 0).peqEnable = false ∧ ((after (.admPeqEnable 0 (2 ^ 31 + 4)) ready).port 0).peqEnable = true ∧
    ((after (.admPeqEnable 0 (2 ^ 31 + 17)) ready).port 0).peqEnable = false ∧ ((after (.admPeqDisable 0 16) ready).port 0).peqLog2 = 16 ∧
    ((after (.admPeqConsumer 0 3) { ready with ports := [(0, { peqProducer := 3 })] }).port 0).peqConsumer = 3 ∧
    ((after (.admPeqConsumer 0 4) { ready with ports := [(0, { peqProducer := 3 })] }).port 0).peqConsumer = 0 ∧
    ready.sites.testBit 0 = true ∧ ({ ready with fuses := { ready.fuses with orderCode := 2 } } : State).sites.testBit 3 = false := by decide +kernel
/-- Another command that names P0 has been accepted. -/
def commanded : State := { ready with hubOrder := [4], adm := [(4, { running := true, copy := pk 0x0104 0 [] })] }
theorem test_hyp_flr : ready.vfServes 1 0 = false ∧ ready.vfServes 0 0 = true ∧ (ready.part 0).teardownStep < 6 ∧ ready.partCommanded 0 = false ∧
    (ready.part 0).pstate = .enabled ∧ commanded.partCommanded 0 = true ∧ commanded.vfServes 0 0 = true ∧
    ((after (.vfFlr 0 0) commanded).part 0).pstate = .enabled ∧
    ((after (.vfFlr 0 0) ready).part 0).pstate = .resetting ∧
    ((after (.vfFlr 0 0) (withPart { part0 with generation := 0xFFFF })).part 0).pstate = .destroying := by decide +kernel

/-- Vector 0 of PF0 has been raised while it is masked, as after reset; then the host writes its table entry. -/
def masked : State := ready.raise { port := 0, fn := 0, vector := 0 }
theorem test_hyp_msix : masked.sites.testBit 0 = true ∧ ({ port := 0, fn := 0, vector := 0 } : Msix) ∈ masked.msi.pend ∧ masked.msi.sent = [] ∧
    (after (.registerWrite (.pf0 0) 0x300C (leBytes 4 0)) (after (.registerWrite (.pf0 0) 0x3000 (leBytes 8 0xFEE0)) masked)).msi.sent =
      [{ port := 0, addr := 0xFEE0, data := 0 }] ∧
    ((after (.pf0Flr 0) (after (.registerWrite (.pf0 0) 0x3000 (leBytes 8 0xFEE0)) masked)).msi.tab = [] ∧
      (after (.pf0Flr 0) masked).msi.pend = []) := by decide +kernel

/-- HP0's command buffer holds an IDENTIFY. -/
def framed : State := ready.updAdm 0 (fun a => { a with cmd := memWrite [] 0 (pk 1 0xFF []) })
theorem test_hyp_registers : ready.sites.testBit 0 = true ∧ ready.admBusy 0 = false ∧ (ready.updAdm 0 (fun a => { a with running := true })).admBusy 0 = true ∧
    setUp.prs.regs.length = 128 ∧ setUp.prs.lock = false ∧ (ready.port 0).peqEnable = false := by decide +kernel
theorem test_hyp_register_frames : ready.hubRuns = true ∧ State.reset.hubRuns = false ∧ frameCheck (memRead (framed.admch 0).cmd 0 4096) = none ∧
    badSubOp (memRead (framed.admch 0).cmd 0 4096) = none ∧ framed.admBusy 0 = false ∧ ready.vfServes 0 0 = true ∧
    ({ ready with fuses := { ready.fuses with orderCode := 2 } } : State).sites.testBit 3 = false ∧
    ((after (.registerWrite (.pf0 0) 0x2000 (leBytes 8 1)) framed).admch 0).running = true := by decide +kernel
theorem test_writes : ((after (.registerWrite (.pf0 0) 0x2000 (leBytes 4 1)) ready).admch 0).droppedForm = 1 ∧
    ((after (.registerWrite (.pf0 0) 0x2000 (leBytes 8 1)) (ready.updAdm 0 (fun a => { a with running := true }))).admch 0).lastRing = 3 ∧
    memRead ((after (.registerWrite (.pf0 0) 0xFFE [7, 8]) ready).admch 0).cmd 0xFFE 2 = [7, 8] ∧
    ((after (.registerWrite (.hdmBase 0) 0 (leBytes 8 (2 ^ 28))) ready).port 0).hdmBase = some (2 ^ 28) ∧
    ((after (.registerWrite (.doorbellPage 0 0 0) 0 (leBytes 4 1)) ready).part 0).dropped = 1 ∧
    ((after (.registerWrite (.vfBar0 0 0) 0xFF000 (leBytes 4 1)) ready).part 0).dropped = 1 ∧
    ((after (.registerWrite (.sriov 0) 0x10 (leBytes 2 7)) ready).port 0).numVfs = 7 ∧
    tabGet 0 (after (.registerWrite .management 24 (leBytes 8 0x1FF)) ready).irq.cfg 3 = 0x11F := by decide +kernel

-- queries, power, tension

theorem test_hyp_queries : Admitted ready 0 (pk 2 0xFF (zeros 8)) ∧ Admitted ready 0 (pk 3 0xFF []) ∧
    Admitted ready 0 (pk 4 0xFF (leBytes 2 0 ++ leBytes 2 60 ++ leBytes 2 1016 ++ zeros 2)) ∧
    Admitted ready 0 (pk 4 0xFF (leBytes 2 2 ++ leBytes 2 0 ++ leBytes 2 320 ++ zeros 2)) ∧ Admitted ready 0 (pk 4 0xFF (leBytes 8 3)) ∧
    Admitted ready 0 (pk 5 0xFF (leBytes 8 0 ++ leBytes 8 63)) ∧ Admitted ready 0 (pk 5 0xFF (leBytes 8 0 ++ leBytes 8 64)) ∧
    Admitted ready 0 (pk 0x0706 0xFF (zeros 8)) ∧ Admitted ready 0 (pk 7 0xFF (zeros 8)) ∧ Admitted ready 0 (pk 8 0xFF (zeros 8)) :=
  ⟨admitted_of (by decide +kernel), admitted_of (by decide +kernel), admitted_of (by decide +kernel), admitted_of (by decide +kernel),
    admitted_of (by decide +kernel), admitted_of (by decide +kernel), admitted_of (by decide +kernel), admitted_of (by decide +kernel),
    admitted_of (by decide +kernel), admitted_of (by decide +kernel)⟩
theorem test_status : ((((after (.status 0 (pk 3 0xFF [])) ready).admch 0).reply.drop 19).take 2) = [1, 1] := by decide +kernel
/-- A round that read points 0 and 3, of which 3 belongs to a cluster in service, and one rail. -/
def sensed : State := { ready with sensors := { temps := [(0, some 7040), (3, some (-64))], rails := [{ millivolts := 700, current := 9, power := 6, phasesOk := 2, overcurrent := true }] } }
theorem test_hyp_readings : sensed.reading 0 = some 7040 ∧ sensed.reading 1 = none ∧ sensed.sensors.rails[0]?.isSome = true ∧ sensed.sensors.rails[1]? = none ∧
    Admitted sensed 0 (pk 4 0xFF (leBytes 2 1 ++ leBytes 2 0 ++ leBytes 2 12 ++ zeros 2)) ∧ Admitted sensed 0 (pk 4 0xFF (leBytes 2 1 ++ leBytes 2 1 ++ leBytes 2 12 ++ zeros 2)) :=
  ⟨by decide +kernel, by decide +kernel, by decide +kernel, by decide +kernel, admitted_of (by decide +kernel), admitted_of (by decide +kernel)⟩

def capPk (cap mode : Nat) : List Byte := pk 6 0xFF (leBytes 4 cap ++ leBytes 1 mode ++ zeros 3)
theorem test_hyp_cap : Admitted ready 0 (capPk 920 3) ∧ Admitted ready 4 (capPk 920 1) ∧ Admitted ready 0 (capPk 4401 0) ∧
    Admitted ready 0 (capPk 919 0) ∧ Admitted ready 4 (capPk 4400 0) ∧ Admitted ready 0 (capPk 0 2) :=
  ⟨admitted_of (by decide +kernel), admitted_of (by decide +kernel), admitted_of (by decide +kernel), admitted_of (by decide +kernel),
    admitted_of (by decide +kernel), admitted_of (by decide +kernel)⟩
theorem test_cap : (after (.powerCapSet 0 (capPk 920 2)) ready).power.pmCap = 920 ∧ (after (.powerCapSet 0 (capPk 920 2)) ready).power.freqMode = 2 ∧
    (after (.powerCapSet 4 (capPk 4400 0)) ready).power.bcCap = 4400 := by decide +kernel
/-- A power measured, under a cap of 1,000 W, at a level. -/
def powered (level m : Nat) : State := { ready with power := { level := level, pmCap := 1000, window := [m] } }
theorem test_hyp_power : (powered 21 20000).power.window.getLast? = some 20000 ∧ (after (.powerLoopStep 20000) (powered 21 20000)).power.level = 22 := by decide +kernel
/-- A plausible reading, an implausible one, and a sample whose twelfth rail is the board's. -/
theorem test_hyp_power_rows : (powered 21 20000).hubRuns = true ∧ (powered 21 20000).power.implausible = false ∧ (powered 21 20000).power.untrusted = false ∧
    (powered 21 20000).power.differ < 999 ∧ (powered 21 100).power.window.getLast? = some 100 ∧ (powered 0 900).power.under = 0 ∧
    (after (.powerLoopStep 0) { powered 9 0 with power := { (powered 9 6000).power with under := 99 } }).power.level = 8 ∧
    (List.replicate 12 ({ millivolts := 0, current := 0, power := 7, phasesOk := 1, overcurrent := false } : RailReading))[11]?.isSome = true ∧
    (-12 ≤ ready.power.trim 0 ∧ ready.power.trim 0 ≤ 6) ∧ (after (.vtrimUpdate [1]) ready).power.trim 0 = 1 ∧
    (({ ready with clusters := [(0, { op := 3, pendingOp := some 1 })] } : State).cl 0).pendingOp = some 1 := by decide +kernel
theorem test_hyp_thermal : (([(0, some 7040), (5, none)] : List (Nat × Option Int)).map (fun r => r.1)).Nodup ∧ ready.hubRuns = true ∧
    State.reset.hubRuns = false ∧
    (({ ready with pool := { ready.pool with clusters := [(0, { state := .free })] } } : State).clEntry 0).inService = true ∧
    ready.power.freqMode ≠ 2 ∧ ({ powered 0 0 with power := { (powered 0 0).power with freqMode := 2 } } : State).power.freqMode = 2 := by decide +kernel
theorem test_thermal : ((({ ready with sensors := { temps := [(0, some 7040)] } } : State).thermalRound).cl 0).thermal = 8 := by decide +kernel

/-- TENSION_SET's parameters: its header, three allowances, and the labels, the first of a MODE, latency target and HOST guarantee. -/
def tensionPk (op en host mode lat guar : Nat) : List Byte :=
  pk 0x0301 0 (leBytes 8 op ++ leBytes 4 1 ++ leBytes 4 en ++ leBytes 2 host ++ zeros 22 ++
    padTo 512 (leBytes 1 mode ++ zeros 1 ++ leBytes 2 lat ++ leBytes 2 guar))
theorem test_hyp_tension : Admitted ready 0 (tensionPk 1 1 100 0 0 0) ∧ Admitted ready 0 (tensionPk 2 0 0 1 0 100) ∧
    Admitted ready 0 (pk 0x0302 0 (zeros 8)) ∧ ((ready.part 0).tension.labels.all (fun l => decide (l.length = 32))) = true ∧
    Admitted ready 0 (tensionPk 2 2 0 1 0 100) ∧ (natRange 0 16).all (fun i => labelForm ((ready.part 0).tension.label i)) = true ∧
    ((after (.tensionSetLabels 0 (tensionPk 2 2 0 1 0 100)) ready).admch 0).replyStatus = 1 ∧
    ((after (.tensionSetLabels 0 (tensionPk 2 0 0 1 0 100)) ready).admch 0).replyStatus = 0 :=
  ⟨admitted_of (by decide +kernel), admitted_of (by decide +kernel), admitted_of (by decide +kernel), by decide +kernel,
    admitted_of (by decide +kernel), by decide +kernel, by decide +kernel, by decide +kernel⟩
theorem test_tension : (((after (.tensionSetAllowances 0 (tensionPk 1 1 100 0 0 0)) ready).part 0).tension.hostAllow,
      ((after (.tensionSetAllowances 0 (tensionPk 1 1 100 0 0 0)) ready).part 0).tension.inForce) = (100, true) ∧
    ((after (.tensionSetLabels 0 (tensionPk 2 1 0 2 3200 0)) ready).part 0).tension.reason = 0 ∧
    ((after (.tensionSetLabels 0 (tensionPk 2 1 0 2 3201 0)) ready).part 0).tension.reason = 0x0303 ∧
    ((after (.tensionSetLabels 0 (tensionPk 2 1 0 1 0 1)) ready).part 0).tension.reason = 0x0302 ∧
    ((after (.tensionSetAllowances 0 (tensionPk 1 1 60000 0 0 0)) ready).part 0).tension.reason = 0x0301 := by decide +kernel
/-- P0's table is in force; the KV regulator sees its label 2 short by one byte of its budget, and holds a request of it. -/
def tense (served : Nat) : State :=
  { withPart { part0 with tension := { inForce := true, format := 1, labels := List.replicate 16 (leBytes 4 1 ++ zeros 28) } } with
    regulators := [(12,
      { labels := [{ part := 0, label := 2, mode := 1, budget := 1000, served := served }, { part := 0, label := 3, mode := 2, lat := 10 }]
        sent := [{ src := 0, part := 0, label := 2, rate := 4 }, { src := 0, part := 0, label := 5 }]
        queue := [{ part := 0, label := 2 }] })] }
theorem test_hyp_windows : (tense 999).regAsleep .kv = false ∧
    ({ tense 999 with recov := { domains := [{ dom := .l2 1 }] } } : State).regAsleep (.host 5) = true ∧
    (((tense 999).regLabels .kv ((tense 999).reg .kv).labels).filter ((tense 999).labelShort ((tense 999).reg .kv))).length = 1 ∧
    ((tense 1000).regLabels .kv ((tense 1000).reg .kv).labels).filter ((tense 1000).labelShort ((tense 1000).reg .kv)) = [] ∧
    obsOf [{ part := 0, label := 3, meanTime := 50 }] { part := 0, label := 3 } = some 50 ∧
    obsOf [{ part := 0, label := 3, meanTime := 50 }] { part := 0, label := 2 } = none ∧
    ((tense 999).reg .kv).sent.map ((tense 999).holds .kv) = [true, false] := by decide +kernel
theorem test_windows : let t := after (.tensionWindowEnd .kv { labels := [], busyNs := 10000 }) (tense 999)
    tabGet 0 (t.part 0).tension.shortWindows 2 = 1 ∧ tabGet 0 (t.part 0).tension.shortBytes 2 = 1 ∧ (t.reg .kv).cutLow = true ∧
    (((after (.tensionStateUpdate .kv (List.replicate 7 { who := some (0, 2) }) { served := 1, size := 8 }) (tense 999)).reg .kv).sent.map
      (fun e => (e.label, e.state, e.q, e.level))) = [(2, 0, 7, 8), (5, 1, 0, 0)] ∧
    ((after (.tensionStateUpdate .kv [{ who := none }] { served := 1, size := 8 }) (tense 999)).reg .kv).queue = [{ part := 64, label := 0 }] := by decide +kernel
/-- A second short window in a row; and a table whose label 3 has MODE 2 with a target of 100 ns. -/
def tenser : State :=
  { withPart { part0 with tension := { inForce := true, format := 1, labels := List.replicate 3 (leBytes 4 1 ++ zeros 28) ++ List.replicate 13 (leBytes 2 2 ++ leBytes 2 10 ++ zeros 28) } } with
    regulators := [(12, { ((tense 999).reg .kv) with shortRun := 1 })] }
theorem test_hyp_scaled : (tenser.reg .kv).shortRun = 1 ∧
    ((after (.tensionWindowEnd .kv { labels := [{ part := 0, label := 3, meanTime := 50 }], busyNs := 10000 }) tenser).reg .kv).scaleNum = 9990000 ∧
    (((after (.tensionWindowEnd .kv { labels := [{ part := 0, label := 3, meanTime := 50 }], busyNs := 10000 }) tenser).reg .kv).labels.find?
      (fun l => decide (l.label = 3))).map (fun l => (l.mode, l.level)) = some (2, 4) := by decide +kernel
/-- Two requests of the KV regulator: the second, aged, goes first. -/
def queued : State := { tense 0 with regulators := [(12, { queue := [{ part := 0, label := 1 }, { part := 0, label := 2 }] })] }
theorem test_aged : ((after (.requestAgePromotion .kv 1) queued).reg .kv).serveOrder.map (fun q => q.label) = [2, 1] := by decide +kernel

-- migration, reports, sessions

def frozenP (x : PartSt) : State := withPart { x with pstate := .frozen }
/-- PART_SAVE's parameters: SIZE_ONLY, address and room, receipt address and length. -/
def savePk (size room rlen : Nat) : List Byte :=
  pk 0x0107 0 (leBytes 8 size ++ leBytes 8 (9 * 2 ^ 60) ++ leBytes 8 room ++ leBytes 8 (9 * 2 ^ 60 + 0x100000) ++ leBytes 8 rlen)
theorem test_hyp_save : Admitted (frozenP part0) 0 (savePk 1 0 0) ∧ Admitted (frozenP part0) 0 (savePk 0 0 64) ∧ Admitted ready 0 (savePk 1 0 0) ∧
    (okOf ((accepted (frozenP part0) 0 (chanPacket 0 (savePk 0 0 64))).agentRead 0 0 (9 * 2 ^ 60 + 0x100000) 64).2).isSome = true ∧
    receiptOk (zeros 64) = false ∧ isHpa (9 * 2 ^ 60) = true :=
  ⟨admitted_of (by decide +kernel), admitted_of (by decide +kernel), admitted_of (by decide +kernel), by decide +kernel, by decide +kernel,
    by decide +kernel⟩
def restorePk (op len : Nat) : List Byte := pk 0x0108 0 (leBytes 8 op ++ leBytes 8 (9 * 2 ^ 60) ++ leBytes 8 len ++ zeros 8)
def migrating (m : Option MigSt) : State := withPart { part0 with mig := m }
theorem test_hyp_restore : Admitted ready 0 (restorePk 1 13279) ∧ Admitted ready 0 (restorePk 1 13280) ∧ Admitted ready 0 (restorePk 2 0) ∧
    restoreCode (chanPacket 0 (restorePk 1 13280)) = none ∧ ready.leafCode = some 0x0710 ∧
    ({ ready with fw := { ready.fw with bootLeaf := some 0 } } : State).leafCode = none ∧
    (decide ((ready.part 0).pstate = .enabled) && (ready.part 0).dir.isNone) = true ∧ ((stOf pq).part 0).dir.isNone = false ∧
    (okOf ((migrating none).agentRead 0 0 (9 * 2 ^ 60) 0x680).2).isSome = true ∧ ((migrating none).part 0).mig = none :=
  ⟨admitted_of (by decide +kernel), admitted_of (by decide +kernel), admitted_of (by decide +kernel), by decide +kernel, by decide +kernel,
    by decide +kernel, by decide +kernel, by decide +kernel, by decide +kernel, by decide +kernel⟩
/-- A receipt that verifies where the free values of its signatures are right: its report's nonce is the hash of its identifier and key. -/
def receipt0 : List Byte :=
  let head := leBytes 4 0x50434552 ++ leBytes 4 13280 ++ zeros 24 ++ zeros 32 ++ zeros 1568
  let rep := leBytes 4 0x54505241 ++ leBytes 4 1 ++ leBytes 4 11648 ++ leBytes 2 0x4820 ++ zeros 34 ++ sha256 (zeros 1600) ++ zeros (0x25C - 0x50) ++ leBytes 4 5456
  head ++ padTo 11648 rep
theorem test_hyp_receipt
    (h : sha256 (((receipt0.drop 0x660).drop 0x1830).take 60) = padTo 32 (Config.rootHash 1))
    (g : ∀ a b c, Config.hssVerifies a b c = true) : receiptOk receipt0 = true := by
  have e : receipt0.length = 13280 ∧ fieldAt receipt0 0 4 = 0x50434552 ∧ fieldAt receipt0 4 4 = 13280 ∧ fieldAt (receipt0.drop 0x660) 0x0C 2 = 0x4820 ∧
      fieldAt (receipt0.drop 0x660) 0x168 1 = 0 := by decide +kernel
  have n : (((receipt0.drop 0x660).drop 0x30).take 32 == sha256 ((receipt0.drop 0x20).take 32 ++ (receipt0.drop 0x40).take 1568)) = true := by
    decide +kernel
  have r : reportVerifies (receipt0.drop 0x660) = true := by
    simp only [reportVerifies, h, g, beq_self_eq_true, Bool.and_true]
    decide +kernel
  simp only [receiptOk, e.1, e.2.1, e.2.2.1, e.2.2.2.1, e.2.2.2.2, n, r]
  decide
/-- A PLA of P0 lies on channel 0 at its own offset. -/
theorem place0 (s : State) (hp : (s.part 0).pat = part0.pat) (hr : s.chanRefuses 0 = none) (hl : s.groupLost [0] = false) (a : Nat)
    (ha : a < 3000000000) : s.locatePla (s.part 0).pat a = .ok (.chan 0 a) := by
  have hd : a < PlaItem.len { node := 2, base := 0, chans := [0] } := Nat.lt_of_lt_of_le ha (by decide)
  have ho : a / 256 * 256 + a % 256 = a := by omega
  have h1 : a / 256 % 1 = 0 := by omega
  simp [h1, State.locatePla, State.plaRefuses, hp, part0, Pattern.resolve, Pattern.groupOf, hd, hr, hl, ho]
/-- A sound image of 64 bytes of sections lies in host memory for the migration session of P0; what its chunk, key and sections hold are free
values, so the rest of LOAD's conditions are about those. -/
def imaged : State :=
  at' (at' (migrating (some { rcId := List.replicate 32 1, key := 0 })) 0
    (leBytes 4 0x474D494D ++ leBytes 4 1 ++ leBytes 8 1744 ++ zeros 16 ++ List.replicate 32 1)) 0x660 (leBytes 8 64)
/-- The state in which LOAD reads the image. -/
def loading : State := (accepted imaged 0 (chanPacket 0 (restorePk 2 1744))).updPart 0 (fun x => { x with mig := none })
theorem test_hyp_load : Admitted imaged 0 (restorePk 2 1744) ∧ restoreCode (chanPacket 0 (restorePk 2 1744)) = none ∧
    ((imaged.part 0).mig.map (fun m => m.rcId)) = some (List.replicate 32 1) ∧ loading.shapeOk 0 (loading.partImage 0) = true :=
  ⟨admitted_of (by decide +kernel), by decide +kernel, by decide +kernel, by decide +kernel⟩
theorem test_hyp_load_image : ∃ u h v img, loading.agentRead 0 0 (9 * 2 ^ 60) 0x680 true (some 0) = (u, .ok (h, false)) ∧
    (h.drop 0x20).take 32 = List.replicate 32 1 ∧ fieldAt h 0 4 = 0x474D494D ∧ fieldAt h 4 4 = 1 ∧ fieldAt h 8 8 = 1744 ∧ fieldAt h 0x19 1 = 0 ∧
    fieldAt h 0x660 8 = 64 ∧ u.agentRead 0 0 (9 * 2 ^ 60) 1744 true (some 0) = (v, .ok (img, false)) := by
  have hp : (loading.part 0).pat = part0.pat ∧ loading.chanRefuses 0 = none ∧ loading.groupLost [0] = false ∧ (loading.chan 0).hostLines = [] ∧
      (loading.chan 0).poison = [] ∧ (loading.chan 0).ecc = [] := by decide +kernel
  have hw : (loading.port (loading.part 0).desc.ownerPort).hdmBase = some 0 := by decide +kernel
  have hr : ∀ n, n ≤ 1744 → loading.plain 0 0 (9 * 2 ^ 60) 0 n := fun n hn =>
    ⟨fun i hi => .inr ⟨by omega, by simp only [bitsAt]; omega, by
      have hb : (9 * 2 ^ 60 + i) % 2 ^ 52 = i := by omega
      have h1 : i < 2 ^ 50 := by omega
      have h2 : i / 2 ^ 44 = 0 := by omega
      have h3 : i % 2 ^ 44 = i := by omega
      have hq := place0 loading hp.1 hp.2.1 hp.2.2.1 i (by omega)
      simp only [State.routeHpa, hw, hb, Nat.zero_le, Nat.zero_add, h1, and_self, if_true, Nat.sub_zero, h2, h3, hq]⟩,
      hp.2.2.2.1, hp.2.2.2.2.1, hp.2.2.2.2.2⟩
  obtain ⟨u, e, hu⟩ := loading.agentRead_range 0 0 0 _ _ _ (hr 0x680 (by decide)) true (some 0)
  obtain ⟨v, g, -⟩ := u.agentRead_range 0 0 0 _ _ _ ((hr 1744 (Nat.le_refl _)).served hu) true (some 0)
  refine ⟨u, _, v, _, e, ?_, ?_, ?_, ?_, ?_, ?_, g⟩
  · have hx : memRead (loading.chan 0).mem 0 0x680 = memRead (loading.chan 0).mem 0 0x20 ++ (memRead (loading.chan 0).mem 0x20 32 ++ memRead (loading.chan 0).mem 0x40 0x640) := by
      rw [← memRead_append, ← memRead_append]
    rw [hx, List.drop_left' (memRead_length _ _ _), List.take_left' (memRead_length _ _ _)]
    decide +kernel
  all_goals rw [fieldAt_memRead _ _ _ _ _ (by decide)]; decide +kernel
theorem test_load_refused : let t := after (.partRestoreLoad 0 (restorePk 2 0)) (migrating (some { rcId := List.replicate 32 1, key := 0 }))
    (t.part 0).mig = none ∧ (t.admch 0).replyStatus = 1 := by decide +kernel

/-- Identity leaf 7 blown in this boot, with one lower leaf left, and with none. -/
def leafed (n : Nat) : State := { ready with fw := { ready.fw with bootLeaf := some 7, lowerLeaf := n } }
def reportPk (op : Nat) (rest : List Byte) : List Byte := pk 0x0701 0 (leBytes 4 op ++ padTo 52 rest)
/-- PREPARE's write of its receipt to host memory completes. -/
def preparing : State := { leafed 0 with ports := [] }
theorem test_hyp_prepare : ∃ v, Admitted preparing 0 (restorePk 1 13280) ∧ preparing.leafCode = none ∧
    (prepared (accepted preparing 0 (chanPacket 0 (restorePk 1 13280))) 0).1.agentWrite 0 0 (9 * 2 ^ 60)
      (prepared (accepted preparing 0 (chanPacket 0 (restorePk 1 13280))) 0).2 false true (some 0) = (v, .ok ()) := by
  obtain ⟨s, hs⟩ : ∃ s, s = (prepared (accepted preparing 0 (chanPacket 0 (restorePk 1 13280))) 0).1 := ⟨_, rfl⟩
  have hp : (s.port (s.part 0).desc.ownerPort).hdmBase = none ∧ (s.port (s.part 0).desc.ownerPort).failed = false := by subst hs; decide +kernel
  have hl (s : State) : (prepared s 0).2.length = 13280 := by
    simp only [prepared, List.length_append, leBytes_length, zeros_length, padTo_length, State.takeReport_length]
  obtain ⟨v, e⟩ := State.agentWrite_lands 0 0 false true (some 0) _ (9 * 2 ^ 60) (prepared (accepted preparing 0 (chanPacket 0 (restorePk 1 13280))) 0).2
    s fun i hi => ⟨_, .inr ⟨by rw [hl] at hi; omega, by rw [hl] at hi; simp only [bitsAt]; omega, by
      unfold State.routeHpa
      simp only [hp.1, hp.2]; rfl⟩⟩
  exact ⟨v, admitted_of (by decide +kernel), by decide +kernel, hs ▸ e⟩
theorem test_hyp_report : Admitted ready 0 (reportPk 1 []) ∧ Admitted (leafed 1048575) 0 (reportPk 1 []) ∧ Admitted (leafed 1048576) 0 (reportPk 1 []) ∧
    ready.fw.bootLeaf = none ∧ (leafed 1048576).fw.bootLeaf ≠ none ∧ 1048575 < (leafed 1048576).fw.lowerLeaf :=
  ⟨admitted_of (by decide +kernel), admitted_of (by decide +kernel), admitted_of (by decide +kernel), by decide +kernel, by decide +kernel,
    by decide +kernel⟩
def reported : State := ready.updAdm 0 (fun a => { a with report := List.replicate 5000 4, reportPart := 0 })
theorem test_hyp_report_read : Admitted reported 0 (reportPk 2 (leBytes 4 4999 ++ leBytes 4 4080)) ∧
    Admitted reported 0 (reportPk 2 (leBytes 4 5000 ++ leBytes 4 1)) ∧ Admitted reported 0 (reportPk 2 (leBytes 4 0 ++ leBytes 4 4081)) ∧
    (reported.admch 0).reportPart = 0 ∧ (reported.admch 0).report.length = 5000 :=
  ⟨admitted_of (by decide +kernel), admitted_of (by decide +kernel), admitted_of (by decide +kernel), by decide +kernel, by decide +kernel⟩
def sessPk (ek : List Byte) : List Byte := pk 0x0702 0 (padTo 1576 ek)
theorem test_hyp_session : Admitted ready 0 (sessPk []) ∧ Admitted ready 0 (sessPk [0xFF, 0xFF]) ∧ kemOk [0x01, 0x0D] = false ∧
    (leafed 0).openSessions 0 = 0 ∧
    ({ leafed 0 with sessions := (natRange 1 16).map (fun i => { id := i, part := 0, secret := [] }) } : State).openSessions 0 = 16 :=
  ⟨admitted_of (by decide +kernel), admitted_of (by decide +kernel), by decide +kernel, by decide +kernel, by decide +kernel⟩
theorem test_kem_ok : kemOk [0x00, 0x0D] = true := by decide +kernel
def closePk (id : Nat) : List Byte := pk 0x0703 0 (leBytes 8 id)
theorem test_hyp_close : Admitted (sealed0 ready) 0 (closePk 6) ∧ (sealed0 ready).openSession 0 6 = some sess ∧ (sealed0 ready).openSession 0 7 = none ∧
    (sealed0 ready).sessionUsed 0 6 = false ∧ (sealed0 (goes (runOf (copyPk 2 6)))).sessionUsed 0 6 = true ∧
    (after (.sessionClose 0 (closePk 6)) (sealed0 ready)).sessions = [] :=
  ⟨admitted_of (by decide +kernel), by decide +kernel, by decide +kernel, by decide +kernel, by decide +kernel, by decide +kernel⟩

-- firmware

/-- An image whose sections are empty: its digests are that of no bytes. -/
def fwImage (svn : Nat) : List Byte :=
  leBytes 4 0x3057464D ++ leBytes 4 1 ++ leBytes 8 (2 ^ 32 + 256 * svn) ++ zeros 8 ++ leBytes 4 188 ++ leBytes 1 svn ++ zeros 3
    ++ leBytes 4 0x80 ++ zeros 4 ++ leBytes 4 0x80 ++ zeros 4 ++ sha256 [] ++ sha256 [] ++ leBytes 4 0x80 ++ leBytes 4 60 ++ zeros 8 ++ zeros 60
/-- Slot A is ACTIVE, slot B as given; channel `o` owns the session. -/
def fwIn (x : FwSlot) (o : Option Nat) : State :=
  { ready with fw := { ready.fw with slotA := { state := 3, image := fwImage 2 }, slotB := x, stageOwner := o } }
theorem test_image_layout : fwLayoutOk (fwImage 2) = true ∧ (fwImage 2).length = 188 := by decide +kernel
def stagePk (op n off : Nat) (bs : List Byte) : List Byte := pk 0x0704 0xFF (leBytes 4 op ++ leBytes 4 n ++ leBytes 8 off ++ bs)
theorem test_hyp_stage : Admitted (fwIn {} none) 0 (stagePk 1 0 0 []) ∧ Admitted (fwIn {} (some 0)) 0 (stagePk 2 4 0 [1, 2, 3, 4]) ∧
    Admitted (fwIn {} (some 0)) 0 (stagePk 3 0 0 []) ∧ Admitted (fwIn {} (some 1)) 0 (stagePk 4 0 0 []) ∧
    spare (fwIn { state := 1, image := fwImage 2 } (some 0)) = { state := 1, image := fwImage 2 } ∧ fieldAt (fwImage 2) 0x18 4 = (fwImage 2).length :=
  ⟨admitted_of (by decide +kernel), admitted_of (by decide +kernel), admitted_of (by decide +kernel), admitted_of (by decide +kernel),
    by decide +kernel, by decide +kernel⟩
theorem test_stage : (after (.fwStageWrite 0 (stagePk 2 4 0 [1, 2, 3, 4]) true) (fwIn { state := 1 } (some 0))).fw.slotB.image = [1, 2, 3, 4] ∧
    (after (.fwStageEnd 0 (stagePk 3 0 0 [])) (fwIn { state := 1, image := fwImage 2 } (some 0))).fw.slotB.state = 2 ∧
    (after (.fwStageBegin 0 (stagePk 1 0 0 []) false) (fwIn {} none)).fw.slotB.state = 5 ∧
    (after .fwStageSessionTimeout (fwIn { state := 1 } (some 1))).fw.slotB.state = 5 := by decide +kernel
def actPk (op d : Nat) : List Byte := pk 0x0705 0xFF (leBytes 2 op ++ leBytes 2 d ++ zeros 4)
def hand : State := { fwIn { state := 2, image := fwImage 2 } none with fw := { (fwIn { state := 2, image := fwImage 2 } none).fw with runSlot := 1, handover := some 0 } }
theorem test_hyp_activate : Admitted (fwIn {} none) 0 (actPk 1 0) ∧ (spare (fwIn {} none)).state ≠ 2 ∧
    (spare (fwIn { state := 2, image := fwImage 2 } none)).state = 2 ∧ fwValid (fwImage 65) = false ∧ Admitted (fwIn {} none) 0 (actPk 2 3) ∧
    Admitted (fwIn {} none) 0 (actPk 2 4) ∧ (fwIn {} none).dieBusy 3 = false ∧ (genSt gen0).dieBusy 0 = true ∧ Admitted (fwIn {} none) 0 (actPk 3 0) :=
  ⟨admitted_of (by decide +kernel), by decide +kernel, by decide +kernel, by decide +kernel, admitted_of (by decide +kernel),
    admitted_of (by decide +kernel), by decide +kernel, by decide +kernel, admitted_of (by decide +kernel)⟩
/-- An image whose sequencers must run version 1.0 or later, which none does. -/
def pickyImage : List Byte := patchAt (fwImage 2) 0x10 (leBytes 8 (2 ^ 32))
/-- The staged image is valid where the fused root is its key's and its signature verifies, both of which are free values; then it activates. -/
theorem test_hyp_valid_image (h : sha256 (((fwImage 2).drop 0x80).take 60) = padTo 32 (Config.rootHash 0))
    (g : Config.hssVerifies (((fwImage 2).drop 0x80).take 60) ((fwImage 2).take 0x80) ((((fwImage 2).drop 0x80).take 60).drop 60) = true) :
    fwValid (fwImage 2) = true ∧ (fwIn { state := 2, image := fwImage 2 } none).fw.fusedSvn ≤ fwSvn (fwImage 2) ∧
    ((natRange 0 4).any (fun d => decide (tabGet 0 (fwIn { state := 2, image := fwImage 2 } none).fw.seqVersion d / 65536 < fieldAt (fwImage 2) 0x10 8 / 65536))) = false ∧
    ((natRange 0 4).any (fun d => decide (tabGet 0 (fwIn { state := 2, image := pickyImage } none).fw.seqVersion d / 65536 < fieldAt pickyImage 0x10 8 / 65536))) = true := by
  have e : fieldAt (fwImage 2) 0x70 4 = 0x80 ∧ fieldAt (fwImage 2) 0x74 4 = 60 ∧ fwLayoutOk (fwImage 2) = true := by decide +kernel
  refine ⟨?_, by decide +kernel, by decide +kernel, by decide +kernel⟩
  have t : List.take 60 (List.take 60 (List.drop 128 (fwImage 2))) = List.take 60 (List.drop 128 (fwImage 2)) := by decide +kernel
  simp only [fwValid, e.1, e.2.1, e.2.2, t, h, g, beq_self_eq_true, Bool.and_self]
theorem test_hyp_handover : hand.phase = .ready ∧ hand.fw.handover = some 0 ∧ hand.fw.runSlot ≤ 1 ∧ ready.fw.handover = none ∧ ready.recovering = false ∧
    bootCopy hand.fw.bootA = none ∧ bootCopy hand.fw.bootB = none ∧ bootCopy (bootCopyBytes 7 1) = some (7, 1) ∧
    ({ ready with recov := { domains := [{ dom := .l2 1 }] } } : State).recovering = true := by decide +kernel
theorem test_handover : (after .mgtWatchdogService hand).fw.slotB.state = 3 ∧ (after .mgtWatchdogService hand).fw.slotA.state = 4 ∧
    (after .handoverTimeout hand).fw.slotB.state = 5 ∧ (after .handoverTimeout hand).fw.runSlot = 0 := by decide +kernel
def fused : State := { fwIn {} none with fw := { (fwIn {} none).fw with svnCh := some 0 } }
/-- The fuse controller has blown nothing yet for a FREE cluster that RETIRE_UNIT named. -/
def retiringFree : State := { ready with recov := { retiring := [(1, 7, 0)] }, pool := { ready.pool with clusters := [(7, { state := .free, retireAs := 1 })] } }
theorem test_hyp_fuses : fused.phase = .ready ∧ fused.fw.svnCh = some 0 ∧ (after (.fuseOperationDone true) fused).fw.fusedSvn = 2 ∧
    retiringFree.retireReady = some (1, 7, 0) ∧ retiringFree.fw.svnCh = none ∧ retiringFree.phase = .ready ∧ (retiringFree.entry 1 7).state ≠ .retired ∧
    ((after (.fuseOperationDone true) retiringFree).entry 1 7).state = .retired ∧
    ({ ready with recov := { retiring := [(1, 7, 0)] }, pool := { ready.pool with clusters := [(7, { state := .retired })] } } : State).retireReady = some (1, 7, 0) := by
  decide +kernel
def leaf0 (tries : Nat) : State := { ready with phase := .identity, fw := { ready.fw with leafTry := some (4, tries) } }
theorem test_hyp_leaf : (leaf0 3).fw.leafTry = some (4, 3) ∧ (leaf0 2).fw.leafFrom 5 = some 5 := by decide +kernel

-- recovery

/-- Clusters 0 and 50 are BOUND; one domain is under recovery. -/
def recIn (ds : List DomainRun) : State :=
  { ready with pool := { ready.pool with clusters := [(0, { state := .bound }), (50, { state := .free })] }, recov := { domains := ds } }
def rcv (step : Nat) : DomainRun := { dom := .l1 0, step := step, waiters := [0] }
theorem test_hyp_errors : ((recIn []).clEntry 0).inService = true ∧ (recIn []).phase = .ready ∧ (recIn []).recov.domains = [] ∧
    (recIn [rcv 1]).findRun (.l1 0) = some (rcv 1) ∧ (rcv 1).step ≠ 9 ∧ (rcv 1).origin ≠ 3 ∧ (rcv 3).origin ≠ 0 ∧
    (recIn [{ dom := .l2 1 }]).findRun (.l2 1) = some { dom := .l2 1 } := by decide +kernel
theorem test_errors : ((after (.clusterControlError 0) (recIn [])).findRun (.l1 0)).map (fun r => (r.step, r.dump)) = some (1, true) ∧
    ((after (.clusterControlError 0) (recIn [rcv 1])).findRun (.l2 0)).isSome = true ∧
    ((after (.tapeOffDrainEnd (.l1 0)) (recIn [rcv 1])).findRun (.l1 0)).map (fun r => r.step) = some 4 ∧
    ((after (.domainResetComplete (.l1 0) true) (recIn [rcv 4])).findRun (.l1 0)).map (fun r => r.step) = some 5 ∧
    (after (.domainRestored (.l1 0)) (recIn [{ rcv 5 with waiters := [] }])).recov.l1Count = 1 := by decide +kernel
/-- A dump that DUMP_COLLECT waits for, a reset that fails at each level, and the end of a recovery. -/
def collecting : DomainRun := { dom := .l1 0, step := 3, origin := 0, dump := true, dumpId := 1, waiters := [0] }
theorem test_hyp_steps : (recIn [collecting]).recov.domains = [collecting] ∧ (after (.dumpComplete (.l1 0)) (recIn [collecting])).recov.domains.map (fun r => r.step) = [9] ∧
    ((after (.domainResetComplete (.l1 0) false) (recIn [rcv 4])).findRun (.l2 0)).map (fun r => r.step) = some 1 ∧
    (recIn [{ dom := .l2 1, step := 4 }]).recov.domains = [{ dom := .l2 1, step := 4 }] ∧ (rcv 5).retire = [] ∧ (rcv 1).step ≠ 5 ∧
    ((after (.dumpAccessTimeout (.l1 0) 0) (recIn [rcv 3])).findRun (.l1 0)).map (fun r => r.silent) = some [0] := by decide +kernel
/-- A core that waits for an outside read, with a DMA entry of one transaction. -/
def oneDma : DmaEntry := { ix := false, src := 2 ^ 60, dst := 0x400000, len := 256, flags := 0, cnt := 0, pc := 0, started := true, total := 1 }
def waitCore : CoreSt := { run := .running, wait := [{ vaRead with addr := 2 ^ 60 }], sampleMs := 50, dmaq := [(2, [oneDma])] }
def waiting0 : State :=
  { genSt gen0 with clusters := [(0, { ctx := some hc, cores := [(0, waitCore)] })], writes := [{ vaWrite with addr := 2 ^ 60 }] }
theorem test_hyp_timeouts : (waiting0.cl 0).ctx = some hc ∧ (waiting0.core k00).wait.length = 1 ∧ (waiting0.findWrite 4).isSome = true ∧
    ((waiting0.core k00).wait.map (fun r => (r.sent, r.faulted))) = [(true, false)] ∧ (waiting0.writes.map (fun w => (w.k, w.sent, w.faulted))) = [(k00, true, false)] ∧
    (findTx ((waiting0.core k00).dma 2) 0 0) = some (0, oneDma, 0) ∧ oneDma.isDone 0 = false ∧ (oneDma.faultsOf 0).isEmpty = true ∧
    (oneDma.sides (waiting0.core k00) 0).isSome = true ∧ (after (.fabricTransactionTimeout (.dma k00 2 0)) waiting0).recov.timeouts = 1 ∧
    (after (.fabricTransactionTimeout (.coreRead k00)) waiting0).recov.timeouts = 1 ∧
    (after (.fabricTransactionTimeout (.write 4)) waiting0).writes = [] := by decide +kernel
/-- The sequencer has a FILL in progress, which is held or not; a DMA transaction is held at its regulator. -/
theorem test_hyp_timeouts_agent : (queueOf (goes (runOf fillPk)) q0).cur.isSome = true ∧ (runOf fillPk).typ ∈ [3, 4, 0x0B, 0x0C] ∧
    (goes (runOf fillPk)).packetHeld 0 0 (runOf fillPk) = false ∧ (copyCapped (goes (runOf fillPk))).packetHeld 0 0 (runOf fillPk) = true ∧
    (queueOf (after (.fabricTransactionTimeout (.agent q0)) (goes (runOf fillPk))) q0).cur = none ∧
    (waiting0.txGate k00 hc oneDma 0 (2 ^ 60) 0x400000).2 = true ∧
    (({ waiting0 with regulators := [(13, { sent := [{ src := 0, part := 0, label := (waiting0.ctx 0 0).label, state := 2, rate := 0 }] })] } : State).txGate k00 hc oneDma 0 (2 ^ 60) 0x400000).2 = false := by
  decide +kernel
theorem test_hyp_watchdog : (waiting0.ctx 0 0).resident = true ∧ waiting0.recov.watchdogMs = 50 ∧ waiting0.runClusters 0 0 = [0] ∧
    ((after (.watchdogExpired 0 0) waiting0).cl 0).expired = some (0, 0) ∧
    (((after (.coreHung 0) { recIn [] with clusters := [(0, { expired := some (0, 0) })] }).findRun (.l1 0)).map (fun r => r.step)) = some 1 := by
  decide +kernel
theorem test_progress : ((after (.progressSample 0) waiting0).core k00).sampleMs = 51 ∧ ((after (.progressSample 1) waiting0).core k00).sampleMs = 50 := by
  decide +kernel

def recPk (op flags unit ms : Nat) : List Byte := pk 0x0801 0xFF (leBytes 1 op ++ leBytes 1 flags ++ leBytes 2 unit ++ leBytes 2 ms ++ zeros 2)
theorem test_hyp_recover : Admitted (recIn []) 0 (recPk 0 0 0 0) ∧ Admitted (recIn []) 0 (recPk 0 2 0 1000) ∧ Admitted (recIn []) 0 (recPk 0 2 0 1001) ∧
    Admitted (recIn []) 0 (recPk 1 1 0 0) ∧ Admitted (recIn []) 0 (recPk 2 0 3 0) ∧ Admitted (recIn []) 0 (recPk 1 0 192 0) ∧
    Admitted (recIn []) 0 (recPk 3 0 0 0) ∧ (recIn []).namedDomain 1 0 = some (.l1 0) ∧ (recIn []).namedDomain 1 192 = none ∧
    (recIn []).namedDomain 2 4 = none ∧ Admitted (recIn [rcv 9]) 0 (recPk 1 0 0 0) ∧ Admitted (recIn [rcv 3]) 0 (recPk 1 0 0 0) :=
  ⟨admitted_of (by decide +kernel), admitted_of (by decide +kernel), admitted_of (by decide +kernel), admitted_of (by decide +kernel),
    admitted_of (by decide +kernel), admitted_of (by decide +kernel), admitted_of (by decide +kernel), by decide +kernel, by decide +kernel,
    by decide +kernel, admitted_of (by decide +kernel), admitted_of (by decide +kernel)⟩
def dumped : State := { recIn [] with recov := { dumps := [{ id := 5, bytes := [1, 2, 3] }] } }
theorem test_hyp_dump : Admitted (recIn []) 0 (pk 0x0802 0xFF (leBytes 2 1 ++ leBytes 6 0)) ∧ Admitted (recIn [rcv 9]) 0 (pk 0x0802 0xFF (leBytes 2 1 ++ leBytes 6 0)) ∧
    Admitted dumped 0 (pk 0x0803 0xFF (leBytes 8 (5 + 2 ^ 32) ++ leBytes 8 1 ++ leBytes 8 4080)) ∧
    Admitted dumped 0 (pk 0x0803 0xFF (leBytes 8 6 ++ leBytes 8 0 ++ leBytes 8 1)) ∧
    (after (.dumpRead 0 (pk 0x0803 0xFF (leBytes 8 (5 + 2 ^ 32) ++ leBytes 8 1 ++ leBytes 8 4080))) dumped).recov.dumps = [] :=
  ⟨admitted_of (by decide +kernel), admitted_of (by decide +kernel), admitted_of (by decide +kernel), admitted_of (by decide +kernel), by decide +kernel⟩
def retPk (kind unit : Nat) : List Byte := pk 0x0804 0xFF (leBytes 2 kind ++ leBytes 6 unit)
theorem test_hyp_retire : Admitted (recIn []) 0 (retPk 1 0) ∧ Admitted (recIn []) 0 (retPk 1 192) ∧ Admitted (recIn []) 0 (retPk 2 319) ∧
    Admitted (recIn []) 0 (retPk 3 24) ∧ Admitted (recIn []) 0 (retPk 3 5) ∧ ((recIn []).entry 1 0).state = .bound ∧ ((recIn []).entry 1 50).state = .free ∧
    (((after (.retireUnit 0 (retPk 1 50)) (recIn [])).entry 1 50).state, ((after (.retireUnit 0 (retPk 1 50)) (recIn [])).entry 1 50).retireAs) = (.free, 1) ∧
    ({ recIn [] with pool := { ready.pool with links := [(5, { state := .bound })] } } : State).entry 3 5 = { state := .bound } ∧
    hasNat (after (.retireUnit 0 (retPk 3 5)) { recIn [] with pool := { ready.pool with links := [(5, { state := .bound })] } }).recov.linkOut 5 = true ∧
    ((after (.retireUnit 0 (retPk 1 0)) (recIn [])).findRun (.l1 0)).map (fun r => r.origin) = some 3 :=
  ⟨admitted_of (by decide +kernel), admitted_of (by decide +kernel), admitted_of (by decide +kernel), admitted_of (by decide +kernel),
    admitted_of (by decide +kernel), by decide +kernel, by decide +kernel, by decide +kernel, by decide +kernel, by decide +kernel, by decide +kernel⟩
theorem test_hyp_retire_states : let s (x : EntryState) : State := { recIn [] with pool := { ready.pool with clusters := [(0, { state := x })] } }
    ((s .disabled).entry 1 0).state = .disabled ∧ ((s .stripping).entry 1 0).state = .stripping ∧ (s .retired).recov.domains = [] ∧
    (after (.retireUnit 0 (retPk 1 0)) (s .stripping)).recov.retiring = [(1, 0, 0)] ∧
    ((after (.retireUnit 0 (retPk 1 0)) (s .disabled)).admch 0).replyStatus = 0 := by decide +kernel

-- the package

/-- The boot area of four bytes of code. -/
def bootArea : List Byte := leBytes 4 0x4C424653 ++ leBytes 4 1 ++ leBytes 4 4 ++ zeros 52
def boots (src : BitVec 2) : StartInfo := { bootSrc := src, bootArea := bootArea }
theorem cleared_reset : PackageCleared State.reset State.reset := ⟨rfl, rfl, rfl, rfl, rfl, rfl, rfl, rfl, rfl, rfl, rfl, rfl, rfl⟩
theorem test_hyp_start : bootHeaderOk bootArea = true ∧ State.reset.phase = .held ∧ State.reset.power.pllLocked = true ∧ State.reset.pins.pgood = true ∧
    State.reset.pins.thermtripN = true ∧ PackageCleared State.reset State.reset :=
  ⟨by decide +kernel, by decide +kernel, by decide +kernel, by decide +kernel, by decide +kernel, cleared_reset⟩
/-- The states from which the other rows start the part. -/
theorem test_hyp_starts : let s (p : Phase) (l : Bool) : State := { State.reset with phase := p, power := { State.reset.power with pllLocked := l } }
    PackageCleared (s .off true) (s .off true) ∧ PackageCleared (s .overvoltage true) (s .overvoltage true) ∧ PackageCleared (s .held false) (s .held false) :=
  ⟨⟨rfl, rfl, rfl, rfl, rfl, rfl, rfl, rfl, rfl, rfl, rfl, rfl, rfl⟩, ⟨rfl, rfl, rfl, rfl, rfl, rfl, rfl, rfl, rfl, rfl, rfl, rfl, rfl⟩,
    ⟨rfl, rfl, rfl, rfl, rfl, rfl, rfl, rfl, rfl, rfl, rfl, rfl, rfl⟩⟩
theorem test_start : (after (.rstNRelease (boots 1)) State.reset).phase = .release ∧ (after (.rstNRelease (boots 0)) State.reset).phase = .bootCode ∧
    (after (.rstNRelease { boots 0 with board := some { slotA := [5], recordA := bootCopyBytes 7 1, recordB := [] } }) State.reset).fw.bootA = bootCopyBytes 7 1 ∧
    (after .vin36Undervoltage ready).phase = .off ∧ (after .thermtrip ready).phase = .tripped ∧ (after .rstNAssert ready).phase = .held ∧
    (after .pllLossOfLock ready).phase = .held := by decide +kernel
/-- The part with RST_N high and its boot area programmed; and a start that has failed. -/
def running : State := { ready with boot := boots 0 }
def failed (n : Nat) : State := { running with phase := .stuck, recov := { failedStarts := n } }
theorem test_hyp_stops : ready.powered = true ∧ ready.railFailed = false ∧ ready.pins.pgood = true ∧ ready.lmUp 3 = true ∧
    ready.power.pllLocked = true ∧ ready.pins.rstN = true ∧ ready.pins.thermtripN = true ∧ bootHeaderOk running.boot.bootArea = true ∧
    ready.phase ≠ .off ∧ ready.phase ≠ .overvoltage ∧ ready.phase ≠ .tripped ∧ State.reset.powered = true ∧
    (after .railOutOfRegulation { ready with railFailed := true }).phase = .held ∧
    (after .startFailure (failed 2)).phase = .dead ∧ (after .startFailure (failed 1)).phase = .bootCode := by decide +kernel

-- the side-band bus and management

def tempMsg (body : List Byte) : List Byte := leBytes 1 0x7F ++ (leBytes 4 ready.fuses.iana).reverse ++ zeros 32 ++ body
theorem test_hyp_bus : ready.bcUp = true ∧ ready.bcReached = true ∧ ready.bc.address ≠ none ∧ ready.bc.hotJoin = false ∧
    ({ ready with bc := {} } : State).bc.address = none ∧ State.reset.bcUp = false ∧ ready.admBusy 4 = false := by decide +kernel
theorem test_bus : (after (.entdaa 0x23) { ready with bc := {} }).bc.address = some 0x23 ∧ (after (.setEndpointId 8) ready).bc.eid = 8 ∧
    (after (.setEndpointId 7) ready).bc.ctlReply = [2] ∧ (after (.getEndpointId) ready).bc.ctlReply = [0, 0, 0, 0] := by decide +kernel
/-- A request message of 101 bytes in two packets, and one of 69 for another enterprise in two. -/
def packets (msg : List Byte) : List (List Byte) :=
  [mctpHeader ready.bc.eid 8 0 3 true false true ++ msg.take 64, mctpHeader ready.bc.eid 8 1 3 false true true ++ msg.drop 64]
theorem test_hyp_request : let m := tempMsg (zeros 64)
    5 ≤ m.length ∧ fieldAt m 0 1 % 128 = 0x7F ∧ fieldAt (((m.drop 1).take 4).reverse) 0 4 = ready.fuses.iana ∧
    mctpAssemble ready.bc.eid (packets m) = some (8, 3, m) ∧ mctpAssemble ready.bc.eid (packets m).reverse = none ∧
    (after (.bcRequestMessage (packets m)) ready).bc.out.map (fun o => (o.dst, o.tag)) = [(8, 3)] := by decide +kernel
/-- A message of another enterprise, and a channel that has a command running. -/
theorem test_hyp_request_others : let m := leBytes 1 0x7F ++ (leBytes 4 (ready.fuses.iana + 1)).reverse ++ zeros 32
    mctpAssemble ready.bc.eid [mctpHeader ready.bc.eid 8 0 3 true true true ++ m] = some (8, 3, m) ∧
    (fieldAt m 0 1 % 128 = 0x7F ∧ fieldAt (((m.drop 1).take 4).reverse) 0 4 ≠ ready.fuses.iana) ∧
    (ready.updAdm 4 (fun a => { a with running := true })).admBusy 4 = true := by decide +kernel
def identifyMsg : List Byte := leBytes 1 0x7F ++ (leBytes 4 ready.fuses.iana).reverse ++ pk 1 0xFF []
theorem test_request_accepted : mctpAssemble ready.bc.eid [mctpHeader ready.bc.eid 8 2 3 true true true ++ identifyMsg] = some (8, 3, identifyMsg) ∧
    frameCheck (identifyMsg.drop 5) = none ∧ badSubOp (identifyMsg.drop 5) = none ∧ identifyMsg.length = 37 + pktLen (identifyMsg.drop 5) ∧
    ((after (.bcRequestMessage [mctpHeader ready.bc.eid 8 2 3 true true true ++ identifyMsg]) ready).bc.reply = (8, 3)) := by decide +kernel
theorem test_log_copy : 12 ∈ (after .logFlashCopy { ready with irq := { cfg := [(12, 0x100)] } }).irq.pending := by decide +kernel
def irqs : State := { ready with irq := { cfg := [(9, 0x111), (3, 0x101)], pending := [9, 3], claimed := [(5, 0)], again := [5] } }
theorem test_hyp_irq : irqs.irq.pendingFor 0 true = [9] ∧ irqs.irq.pendingFor 1 true = [] ∧ (tabGet 0 irqs.irq.cfg 9).testBit 8 = true ∧
    irqs.irq.claimed.any (fun x => decide (x.1 = 5)) = true ∧ irqs.irq.claimed.any (fun x => decide (x.1 = 9)) = false ∧
    (tabGet 0 irqs.irq.cfg 5).testBit 8 = false ∧ (after (.mgtIrqClaim 0 true) irqs).irq.lastClaim = 9 ∧
    (after (.mgtIrqClaim 1 true) irqs).irq.lastClaim = 0xFFFFFFFF ∧ (after (.mgtIrqComplete 0 false 5) irqs).irq.claimed = [] := by decide +kernel
/-- A claimed source that is enabled is raised again, and pends again once it is complete. -/
theorem test_hyp_irq_again : let s : State := { ready with irq := { cfg := [(5, 0x101)], claimed := [(5, 0)] } }
    (tabGet 0 s.irq.cfg 5).testBit 8 = true ∧ s.irq.claimed.any (fun x => decide (x.1 = 5)) = true ∧ (after (.mgtIrqSourceRaise 5) s).irq.again = [5] ∧
    (after (.mgtIrqComplete 0 false 5) (after (.mgtIrqSourceRaise 5) s)).irq.pending = [5] ∧
    (after .logFlashCopy ready).log.uncopied = 0 ∧ State.reset.hubRuns = false := by decide +kernel
theorem test_hyp_log : ({ ready with log := { suppressed := 3 } } : State).log.suppressed = 3 ∧ ready.log.suppressed = 0 ∧
    (after .logSecondEnd { ready with log := { suppressed := 3 } }).log.next = 1 := by decide +kernel

-- the checks of every channel

def bad : List Byte := patchAt (pk 1 0xFF []) 3 [2]
theorem test_hyp_checks_admin : ready.chanExists 0 = true ∧ ready.admBusy 0 = false ∧ packetWhole 0 (chanPacket 0 bad) = true ∧
    (frameCheck (chanPacket 0 bad)).isSome = true ∧ ({ ready with fuses := { ready.fuses with orderCode := 2 } } : State).chanExists 3 = false ∧
    (ready.permCode 1 (chanPacket 1 (pk 0x0101 5 desc5))) = some 0x0120 ∧ frameCheck (chanPacket 1 (pk 0x0101 5 desc5)) = none ∧
    ready.permCode 0 (chanPacket 0 (pk 0x0106 0 (zeros 8))) = none ∧ ready.partStateCode (chanPacket 0 (pk 0x0106 0 (zeros 8))) = some 0x0103 := by
  decide +kernel
/-- A command of HP1 waits behind a PART_DISABLE of the same partition that HP0 has running. -/
def behind : State :=
  { ready with adm := [(0, { running := true, started := true, copy := pk 0x0104 0 (zeros 8) })], hubOrder := [0],
               parts := [(0, { part0 with desc := { part0.desc with ownerPort := 1 } })] }
theorem test_hyp_must_wait : (behind.admAccept 1 (chanPacket 1 (pk 0x0103 0 (zeros 8)))).mustWait 1 = true ∧ behind.admBusy 1 = false ∧
    behind.admBusy 0 = true ∧ (behind.admch 0).started = true := by decide +kernel

-- residency

/-- Context 0 is runnable with a LAUNCH; context 1 holds the cluster. -/
def turns (saved r1 : Bool) : State :=
  let l : CtxSt := { state := 1, vd := 1, queues := 1, saved := saved, qs := [(0, { enabled := true, cur := some { runOf launchPk with resident := true, image := imageOf 0, entries := [(0, 0, 0)] } })] }
  stOf { pq with ctxs := [(0, l), (1, { l with resident := r1, residentVd := if r1 then [0] else [] })], runnable := [0] }
theorem test_hyp_turns : ((turns false false).ctx 0 0).running.isSome = true ∧ (turns false false).mayEnter 0 0 = true ∧
    (turns false true).mayEnter 0 0 = false ∧ ((turns true false).ctx 0 0).saved = true ∧ ((turns false true).ctx 0 1).resident = true ∧
    (turns false true).oldestNeeds 0 1 = true ∧ ((turns false true).ctx 0 1).frozen = false ∧ ((turns false true).part 0).runs = true ∧
    ((turns false true).part 0).holds 1 = false ∧
    (((turns false false).ctx 0 0).running.map (fun e => (turns false false).entersReshaped 0 0 e.2)) = some false ∧
    ((turns false true).ctx 0 7).running = none := by decide +kernel
/-- Memory object 1 holds a save area of one cluster for context 1, placed at 0x8000000. -/
def saveable : State :=
  at' (turns false true) (0x1000000 + 0x150000 + 2048 + 32) (leBytes 8 (plaAddr 0x8000000) ++ leBytes 8 (saveLen 1) ++ leBytes 4 1 ++ leBytes 4 0x40010001
    ++ [1, 0xFF] ++ leBytes 2 1)
/-- A commit that takes VD 1's cluster has frozen it. -/
def heldTurns : State := { turns false true with parts := [(0, { (turns false true).part 0 with commit := some { ch := 0, frozen := true }, stage := some { part0.pat with vds := [] } })] }
theorem test_hyp_slice_held : (heldTurns.part 0).holds 1 = true ∧ (heldTurns.part 0).runs = true ∧ (heldTurns.ctx 0 1).resident = true ∧
    ((after (.sliceEnd 0 1) heldTurns).ctx 0 1).sliceOver = true := by decide +kernel
/-- A GENERATE formed for four clusters is about to enter a VD of one. -/
def enters : State :=
  stOf { pq with ctxs := [(0, { state := 1, vd := 1, queues := 1, qs := [(0, { enabled := true, cur := some { genRun with forN := 4 } })] })], runnable := [0] }
theorem test_hyp_reshaped : (enters.ctx 0 0).running = some (0, { genRun with forN := 4 }) ∧ enters.mayEnter 0 0 = true ∧
    enters.entersReshaped 0 0 { genRun with forN := 4 } = true := by decide +kernel
theorem test_hyp_slice : saveable.maySwitch 0 1 = true ∧ saveable.oldestNeeds 0 1 = true ∧ (turns false true).maySwitch 0 1 = false ∧
    (saveable.part 0).holds 1 = false ∧
    ((after (.sliceEnd 0 1) saveable).ctx 0 1).switching = 1 ∧ ((after (.sliceEnd 0 1) saveable).part 0).incoming = [0] ∧
    saveable.saveObject 0 1 = some 0x8000000 := by decide +kernel
/-- Context 1 freezes at the end of its slice. -/
def leaving : State := saveable.switchStart 0 1
def leavingRun : PacketRun := { runOf launchPk with resident := true, image := imageOf 0, entries := [(0, 0, 0)] }
theorem test_hyp_saves : ∃ v, (leaving.ctx 0 1).running = some (0, leavingRun) ∧ leaving.saveObject 0 1 = some 0x8000000 ∧
    (leaving.ctx 0 1).resident = true ∧ (leaving.ctx 0 1).switching = 1 ∧ leaving.freezeDone 0 1 = true ∧ (leaving.ctx 0 1).faulted = none ∧
    (saveArea leaving 0 1 leavingRun).1.agentWrite 0 1 (plaAddr 0x8000000) (saveArea leaving 0 1 leavingRun).2 false = (v, .ok ()) := by
  have hn : (leaving.batchPost 0 1 false).runClusters 0 1 = [0] := by decide +kernel
  have hl : (saveArea leaving 0 1 leavingRun).2.length = saveLen 1 := by
    refine (congrArg _ (by simp only [saveArea, hn]; rfl)).trans (saveBytes_length 1 1 1 _ _ _ _ _ ?_)
    simp [natRange, ClusterSt.record_length]
  have hp : ((saveArea leaving 0 1 leavingRun).1.part 0).pat = part0.pat ∧ (saveArea leaving 0 1 leavingRun).1.chanRefuses 0 = none ∧
      (saveArea leaving 0 1 leavingRun).1.groupLost [0] = false := by decide +kernel
  obtain ⟨v, e⟩ := State.agentWrite_pla 0 1 false false none _ 0x8000000 (saveArea leaving 0 1 leavingRun).2 (saveArea leaving 0 1 leavingRun).1
    (by rw [hl]; decide) (fun i hi => ⟨_, place0 _ hp.1 hp.2.1 hp.2.2 _ (by rw [hl] at hi; simp only [saveLen, clusterRecordLen] at hi; omega)⟩)
  exact ⟨v, by decide +kernel, by decide +kernel, by decide +kernel, by decide +kernel, by decide +kernel, by decide +kernel, e⟩
/-- Context 1 is about to be restored from its save area. -/
def returns : State :=
  at' (at' (saveable.updCtx 0 1 (fun x => { x with switching := 2, savedCls := [{}] })) 0x8000000 (leBytes 4 1 ++ leBytes 2 1 ++ leBytes 2 1 ++ leBytes 1 1))
    0x8008000 (leBytes 4 1)
theorem test_hyp_restores : ∃ u h v bs cs ws, (returns.ctx 0 1).running = some (0, leavingRun) ∧ (returns.ctx 0 1).resident = true ∧
    (returns.ctx 0 1).switching = 2 ∧ (returns.ctx 0 1).faulted = none ∧ (returns.ctx 0 1).residentVd = [0] ∧
    fieldAt (returns.memRec 0 1) 0 8 % 2 ^ 44 = 0x8000000 ∧
    returns.agentRead 0 1 (plaAddr 0x8000000) 0x1000 = (u, .ok (h, false)) ∧ fieldAt h 0 4 = 1 ∧ fieldAt h 4 2 = 1 ∧ fieldAt h 8 1 = leavingRun.typ ∧
    fieldAt h 6 2 = 1 ∧ u.agentRead 0 1 (plaAddr 0x8000000) (saveLen 1) = (v, .ok (bs, false)) ∧
    restoreRecords (returns.ctx 0 1).savedCls (returns.ctx 0 1).savedWrites bs = some (cs, ws) := by
  have hp : (returns.part 0).pat = part0.pat ∧ returns.chanRefuses 0 = none ∧ returns.groupLost [0] = false ∧ (returns.chan 0).hostLines = [] ∧
      (returns.chan 0).poison = [] ∧ (returns.chan 0).ecc = [] := by decide +kernel
  have hr : ∀ n, n ≤ saveLen 1 → returns.plain 0 0 (plaAddr 0x8000000) 0x8000000 n := fun n hn =>
    ⟨fun i hi => by simpa only [plaAddr, Nat.add_assoc] using State.landsAt_pla _ 0 (0x8000000 + i) (by simp only [saveLen, clusterRecordLen] at hn; omega) <| place0 _ hp.1 hp.2.1 hp.2.2.1 _ (by simp only [saveLen, clusterRecordLen] at hn; omega), hp.2.2.2.1, hp.2.2.2.2.1, hp.2.2.2.2.2⟩
  have hs : (returns.ctx 0 1).savedCls = [{}] := by decide +kernel
  have hok : recordOk 0 (((memRead (returns.chan 0).mem 0x8000000 (saveLen 1)).drop 0x8000).take clusterRecordLen) = true := by
    have hx : memRead (returns.chan 0).mem 0x8000000 (saveLen 1) =
        memRead (returns.chan 0).mem 0x8000000 0x8000 ++ memRead (returns.chan 0).mem 0x8008000 clusterRecordLen := memRead_append _ _ _ _
    rw [hx, List.drop_left' (memRead_length _ _ _), List.take_of_length_le (Nat.le_of_eq (memRead_length _ _ _))]
    unfold recordOk
    rw [fieldAt_memRead _ _ _ _ _ (by decide), fieldAt_memRead _ _ _ _ _ (by decide)]
    decide +kernel
  obtain ⟨cs, ws, hw⟩ : ∃ cs ws, restoreRecords (returns.ctx 0 1).savedCls (returns.ctx 0 1).savedWrites
      (memRead (returns.chan 0).mem 0x8000000 (saveLen 1)) = some (cs, ws) := by
    rw [hs]
    simp [restoreRecords, natRange, hok]
  obtain ⟨u, e1, hu⟩ := returns.agentRead_range 0 1 0 _ _ _ (hr 0x1000 (by decide))
  obtain ⟨v, e2, -⟩ := u.agentRead_range 0 1 0 _ _ _ ((hr _ (Nat.le_refl _)).served hu)
  have hm : u.chan 0 = returns.chan 0 := (congrArg (fun x : State => x.chan 0) hu :)
  rw [hm] at e2
  refine ⟨u, _, v, _, cs, ws, by decide +kernel, by decide +kernel, by decide +kernel, by decide +kernel, by decide +kernel, by decide +kernel,
    e1, ?_, ?_, ?_, ?_, e2, hw⟩
  · rw [fieldAt_memRead _ _ _ _ _ (by decide)]; decide +kernel
  · rw [fieldAt_memRead _ _ _ _ _ (by decide)]; decide +kernel
  · rw [fieldAt_memRead _ _ _ _ _ (by decide)]; decide +kernel
  · rw [fieldAt_memRead _ _ _ _ _ (by decide)]; decide +kernel
theorem test_enter : ((after (.contextResident 0 0) (turns false false)).core k00).run = .running ∧
    ((after (.contextResident 0 0) (turns true false)).ctx 0 0).switching = 2 := by decide +kernel
/-- An entry of a die's tracker, and a completion with its tag and an old one. -/
def tracked : State := { ready with trackers := [(1, { tags := [(7, 0x102)] })] }
/-- A die that is taped off has had its requests answered. -/
theorem test_hyp_completion_taped : ({ ready with recov := { domains := [{ dom := .l2 1, step := 4 }] } } : State).recov.domains.any
      (fun r => decide (r.step ≠ 1) && domIsDie r.dom 1) = true ∧
    tabGet 0 (after (.fabricCompletion 1 7 2 0 3) { tracked with recov := { domains := [{ dom := .l2 1, step := 4 }] } }).recov.stitches 1 = 1 := by decide +kernel
theorem test_hyp_completion : (tabGet 0 (tracked.tracker 1).tags 7 % 256 ≠ (2#8).toNat ∨ (tracked.part 0).generation ≠ (3#16).toNat) = False ∧
    tabGet 0 (after (.fabricCompletion 1 7 2 0 3) tracked).recov.stitches 1 = 0 ∧
    tabGet 0 (after (.fabricCompletion 1 7 3 0 3) tracked).recov.stitches 1 = 1 ∧
    tabGet 0 (after (.fabricCompletion 4 0 0 0 4) tracked).recov.stitches 4 = 1 ∧
    tabGet 0 (after (.fabricCompletion 1 7 2 0 4) tracked).recov.stitches 1 = 1 := by
  refine ⟨?_, by decide +kernel, by decide +kernel, by decide +kernel, by decide +kernel⟩
  simpa using (show tabGet 0 (tracked.tracker 1).tags 7 % 256 = 2 ∧ (tracked.part 0).generation = 3 by decide +kernel)

end Sys2Proof.Test
end

section
/-! PROOF. Reading a field out of a record that is laid out piece by piece (R6): the pieces before it are skipped, and a piece of a table is
found by its index. -/

namespace Sys2Proof.Machine

/-- A value written in `n` bytes reads back cut to them. -/
theorem leNat_leBytes (n v : Nat) : leNat (leBytes n v) = v % 2 ^ (8 * n) := by
  induction n generalizing v with
  | zero => exact (Nat.mod_one v).symm
  | succ n ih =>
    have h : 2 ^ (8 * (n + 1)) = 256 * 2 ^ (8 * n) := by rw [Nat.mul_succ, Nat.pow_add, Nat.mul_comm]
    rw [leBytes, leNat, ih, h, Nat.mod_mul, BitVec.toNat_ofNat]

theorem leNat_zeros (n : Nat) : leNat (zeros n) = 0 := by
  induction n with
  | zero => rfl
  | succ n ih =>
    have h : leNat (zeros (n + 1)) = 0 + 256 * leNat (zeros n) := rfl
    rw [h, ih]

/-- A field within the first of two pieces. -/
theorem fieldAt_append_left (xs ys : List Byte) {off size : Nat} (h : off + size ≤ xs.length) :
    fieldAt (xs ++ ys) off size = fieldAt xs off size := by
  unfold fieldAt
  rw [List.drop_append_of_le_length (by omega), List.take_append_of_le_length (by rw [List.length_drop]; omega)]

/-- A field past the first of two pieces. -/
theorem fieldAt_append_right (xs ys : List Byte) {off : Nat} (size : Nat) (h : xs.length ≤ off) :
    fieldAt (xs ++ ys) off size = fieldAt ys (off - xs.length) size := by
  unfold fieldAt
  rw [List.drop_append, List.drop_eq_nil_of_le h, List.nil_append]

/-- A whole piece, at the front. -/
theorem fieldAt_whole (xs ys : List Byte) {size : Nat} (h : xs.length = size) : fieldAt (xs ++ ys) 0 size = leNat xs := by
  subst h
  rw [fieldAt, List.drop_zero, List.take_left']
  rfl

theorem fieldAt_leBytes (n v : Nat) : fieldAt (leBytes n v) 0 n = v % 2 ^ (8 * n) := by
  rw [← List.append_nil (leBytes n v), fieldAt_whole _ _ (leBytes_length n v), leNat_leBytes]

theorem fieldAt_leBytes_append (n v : Nat) (ys : List Byte) : fieldAt (leBytes n v ++ ys) 0 n = v % 2 ^ (8 * n) := by
  rw [fieldAt_whole _ _ (leBytes_length n v), leNat_leBytes]

theorem fieldAt_zeros (n : Nat) : fieldAt (zeros n) 0 n = 0 := by
  rw [← List.append_nil (zeros n), fieldAt_whole _ _ (zeros_length n), leNat_zeros]

theorem fieldAt_zeros_append (n : Nat) (ys : List Byte) : fieldAt (zeros n ++ ys) 0 n = 0 := by
  rw [fieldAt_whole _ _ (zeros_length n), leNat_zeros]

/-- A field of a table's piece, among pieces of one size. -/
theorem fieldAt_flatMap (f : Nat → List Byte) {k : Nat} (hf : ∀ j, (f j).length = k) (a n i o size : Nat) (hi : i < n)
    (ho : o + size ≤ k) : fieldAt ((natRange a n).flatMap f) (k * i + o) size = fieldAt (f (a + i)) o size := by
  induction n generalizing a i with
  | zero => omega
  | succ n ih =>
    rw [natRange, List.flatMap_cons]
    cases i with
    | zero =>
      rw [Nat.mul_zero, Nat.zero_add, fieldAt_append_left _ _ (by rw [hf]; exact ho)]
      rfl
    | succ i =>
      have e : k * (i + 1) + o - k = k * i + o := by rw [Nat.mul_succ]; omega
      rw [fieldAt_append_right _ _ _ (by rw [hf, Nat.mul_succ]; omega), hf, e, ih (a + 1) i (by omega), Nat.add_right_comm, Nat.add_assoc]

/-- A field of a table that stands behind `m` bytes of other pieces. -/
theorem fieldAt_table {xs : List Byte} {f : Nat → List Byte} {m k : Nat} (hx : xs.length = m) (hf : ∀ j, (f j).length = k)
    {n i o size off : Nat} (hi : i < n) (ho : o + size ≤ k) (he : off = m + (k * i + o)) :
    fieldAt (xs ++ (natRange 0 n).flatMap f) off size = fieldAt (f i) o size := by
  subst hx he
  rw [fieldAt_append_right _ _ _ (Nat.le_add_right _ _), Nat.add_sub_cancel_left, fieldAt_flatMap f hf 0 n i o size hi ho, Nat.zero_add]

/-- A table of `n` pieces of one size. -/
theorem table_length {f : Nat → List Byte} {k : Nat} (hf : ∀ j, (f j).length = k) (a n : Nat) :
    ((natRange a n).flatMap f).length = k * n := by
  rw [flatMap_length f k hf, natRange_length]

theorem leBytes_table_length (k : Nat) (g : Nat → Nat) (a n : Nat) :
    ((natRange a n).flatMap (fun i => leBytes k (g i))).length = k * n := table_length (fun _ => leBytes_length k _) a n

/-- A value of a table that stands behind `m` bytes. -/
theorem fieldAt_leBytes_table {xs : List Byte} {g : Nat → Nat} {m k n i off : Nat} (hx : xs.length = m) (hi : i < n)
    (he : off = m + k * i) : fieldAt (xs ++ (natRange 0 n).flatMap (fun j => leBytes k (g j))) off k = g i % 2 ^ (8 * k) := by
  rw [fieldAt_table hx (fun _ => leBytes_length k _) hi (Nat.le_of_eq (Nat.zero_add k)) he, fieldAt_leBytes]

/-- A mask that is summed up bit by bit over a range, above the bits it starts with. -/
theorem testBit_foldl_bits (p : Nat → Bool) (n a acc c : Nat) (h : acc < 2 ^ a) :
    ((natRange a n).foldl (fun x i => if p i then x + 2 ^ i else x) acc).testBit c =
      (acc.testBit c || (decide (a ≤ c) && decide (c < a + n) && p c)) := by
  induction n generalizing a acc with
  | zero =>
    have hc : (decide (a ≤ c) && decide (c < a + 0)) = false := by
      rw [← Bool.decide_and, decide_eq_false_iff_not]
      omega
    rw [hc, Bool.false_and, Bool.or_false, natRange, List.foldl_nil]
  | succ n ih =>
    rw [natRange, List.foldl_cons]
    have hp : 2 ^ (a + 1) = 2 ^ a + 2 ^ a := by rw [Nat.pow_succ]; omega
    rw [ih (a + 1) _ (by split <;> omega)]
    have hb : (if p a then acc + 2 ^ a else acc).testBit c = (acc.testBit c || (decide (a = c) && p a)) := by
      cases p a with
      | false => rw [Bool.and_false, Bool.or_false, if_neg Bool.false_ne_true]
      | true =>
        have ho := Nat.two_pow_add_eq_or_of_lt h 1
        rw [Nat.mul_one] at ho
        rw [if_pos rfl, Nat.add_comm, ho, Nat.testBit_or, Nat.testBit_two_pow, Bool.or_comm, Bool.and_true]
    have hd : (decide (a ≤ c) && decide (c < a + (n + 1)) && p c) =
        (decide (a = c) && p a || decide (a + 1 ≤ c) && decide (c < a + 1 + n) && p c) := by
      rw [← Bool.decide_and, ← Bool.decide_and]
      by_cases hc : a = c
      · subst hc
        rw [decide_eq_true (by omega), decide_eq_true rfl, decide_eq_false (by omega), Bool.false_and, Bool.or_false]
      · rw [decide_eq_false hc, Bool.false_and, Bool.false_or]
        exact congrArg (· && p c) (decide_eq_decide.mpr (by omega))
    rw [hb, hd, Bool.or_assoc]

end Sys2Proof.Machine
end

section
/-! PROOF. What a reply (R351, R355) and a refusal (R356) leave and change, and the state in which an admitted command of an admin channel runs
(R357 to R362). -/

namespace Sys2Proof.Machine

-- replies

/-- The channel's command is answered with `bytes`. -/
def AdmSt.answered (a : AdmSt) (status : Nat) (bytes : List Byte) : AdmSt :=
  { a with reply := bytes, replyStatus := status, replyValid := true, running := false, started := false, busyClass := false }

/-- The channels and the hub's order as a reply leaves them, before its message or interrupt. -/
def State.replyWrite (s : State) (ch status : Nat) (bytes : List Byte) : State :=
  let t := s.updAdm ch (fun a => a.answered status bytes)
  let t := if (s.admch ch).busyClass then { t with adm := t.adm.map (fun e => (e.1, { e.2 with deviceBusy := false })) } else t
  { t with hubOrder := dropAll s.hubOrder ch }

/-- A reply changes nothing but the channels and the hub's order, until it is sent. -/
theorem State.replyWrite_frame (s : State) (ch status : Nat) (bytes : List Byte) :
    { s.replyWrite ch status bytes with adm := s.adm, hubOrder := s.hubOrder } = s := by
  unfold State.replyWrite
  cases (s.admch ch).busyClass <;> rfl

@[simp] theorem State.replyWrite_bc (s : State) (ch status : Nat) (bytes : List Byte) : (s.replyWrite ch status bytes).bc = s.bc :=
  (congrArg State.bc (s.replyWrite_frame ch status bytes) :)
@[simp] theorem State.replyWrite_bcHead (s : State) (ch status : Nat) (bytes : List Byte) :
    (s.replyWrite ch status bytes).bcHead = s.bcHead :=
  (congrArg State.bcHead (s.replyWrite_frame ch status bytes) :)
@[simp] theorem State.replyWrite_msix (s : State) (ch status : Nat) (bytes : List Byte) : (s.replyWrite ch status bytes).msix = s.msix :=
  (congrArg State.msix (s.replyWrite_frame ch status bytes) :)
@[simp] theorem State.replyWrite_hubOrder (s : State) (ch status : Nat) (bytes : List Byte) :
    (s.replyWrite ch status bytes).hubOrder = dropAll s.hubOrder ch := rfl

/-- The channel of a reply; `DEVICE_BUSY` is cleared where the command was of that class. -/
theorem State.replyWrite_admch (s : State) (ch status : Nat) (bytes : List Byte) : ∃ b, (s.replyWrite ch status bytes).admch ch =
    { (s.admch ch).answered status bytes with deviceBusy := b } := by
  have hu := s.admch_updAdm_same ch (fun a => a.answered status bytes)
  unfold State.replyWrite
  cases (s.admch ch).busyClass with
  | false => exact ⟨_, hu⟩
  | true =>
    refine ⟨false, ?_⟩
    rw [← hu]
    exact tabGet_map ({} : AdmSt) ({} : AdmSt) (fun a : AdmSt => { a with deviceBusy := false }) _ ch rfl

/-- The bytes with which a channel's running command is answered. -/
def State.replyOf (s : State) (ch status code : Nat) (res : List Byte) : List Byte :=
  replyBytes (pktOp (s.admch ch).copy) status code ((s.admch ch).accepted % 65536) (fieldAt (s.admch ch).copy 8 4) res

/-- A reply is written, then sent on the BC channel or announced by the interrupt that a host port asked for. -/
theorem State.reply_eq (s : State) (ch status code : Nat) (res : List Byte) : s.reply ch status code res =
    let bytes := s.replyOf ch status code res
    let t := s.replyWrite ch status bytes
    if ch = 4 then { t with bc := t.bc.send t.bc.reply (t.bcHead ++ bytes) }
    else if (fieldAt (s.admch ch).copy 3 1).testBit 0 then t.raise { port := ch, fn := 0, vector := 0 } else t := by
  cases h : (s.admch ch).busyClass <;> (simp only [State.reply, State.replyWrite, h]; rfl)

/-- A reply changes nothing but the channels, the hub's order, and the message or interrupt that carries it. -/
theorem State.reply_frame (s : State) (ch status code : Nat) (res : List Byte) :
    { s.reply ch status code res with adm := s.adm, hubOrder := s.hubOrder, bc := s.bc, msix := s.msix, msi := s.msi } = s := by
  have hw := congrArg (fun t : State => { t with bc := s.bc, msix := s.msix, msi := s.msi })
    (s.replyWrite_frame ch status (s.replyOf ch status code res))
  rw [State.reply_eq]
  dsimp only
  split
  · exact hw
  · split <;> exact hw

/-- The channel, which the reply leaves answered. -/
theorem State.reply_admch (s : State) (ch status code : Nat) (res : List Byte) : ∃ b, (s.reply ch status code res).admch ch =
    { (s.admch ch).answered status (s.replyOf ch status code res) with deviceBusy := b } := by
  have hw := s.replyWrite_admch ch status (s.replyOf ch status code res)
  rw [State.reply_eq]
  dsimp only
  split
  · exact hw
  · split <;> exact hw

/-- The channel's place in the hub's order is given up. -/
theorem State.reply_hubOrder (s : State) (ch status code : Nat) (res : List Byte) :
    (s.reply ch status code res).hubOrder = dropAll s.hubOrder ch := by
  rw [State.reply_eq]
  dsimp only
  split
  · rfl
  · split <;> rfl

/-- The message of the BC channel. -/
theorem State.reply_bc (s : State) (status code : Nat) (res : List Byte) :
    (s.reply 4 status code res).bc = s.bc.send s.bc.reply (s.bcHead ++ s.replyOf 4 status code res) := by
  rw [State.reply_eq]
  dsimp only
  rw [if_pos rfl, State.replyWrite_bc, State.replyWrite_bcHead]

/-- The interrupt of a host port. -/
theorem State.reply_msix (s : State) {ch : Nat} (status code : Nat) (res : List Byte) (hc : ch ≠ 4)
    (hi : (fieldAt (s.admch ch).copy 3 1).testBit 0 = true) :
    (s.reply ch status code res).msix = s.msix ++ [{ port := ch, fn := 0, vector := 0 }] := by
  rw [State.reply_eq]
  dsimp only
  rw [if_neg hc, if_pos hi, State.raise, State.replyWrite_msix]

/-- A log entry changes nothing but the log and management's interrupts. -/
theorem State.logEntry_frame (s : State) (source sev code part kind : Nat) (data : List Byte) :
    { s.logEntry source sev code part kind data with log := s.log, irq := s.irq } = s := by
  unfold State.logEntry
  dsimp only
  split
  · rfl
  · split
    · exact congrArg (fun t : State => { t with log := s.log }) (State.irqRaise_frame _ 11)
    · rfl

-- what a command of no device-busy class is

theorem deviceBusyOp_false {p : List Byte} (h : pktOp p ∉ [0x0705, 0x0207, 0x0208, 0x0801]) : deviceBusyOp p = false := by
  simp only [List.mem_cons, List.not_mem_nil, or_false, not_or] at h
  obtain ⟨h1, h2, h3, h4⟩ := h
  rw [deviceBusyOp, beq_false_of_ne h1, beq_false_of_ne h2, beq_false_of_ne h3, beq_false_of_ne h4]
  simp only [Bool.false_and, Bool.or_self, Bool.and_false]

-- the state in which an accepted command runs

/-- A packet accepted and started. -/
def State.admStart (s : State) (ch : Nat) (p : List Byte) : State := (s.admAccept ch p).updAdm ch (fun a => { a with started := true })

/-- What accepting and starting a command may change: the channels, the hub's order, the BC's request and management's interrupts. -/
def SameButAdm (s t : State) : Prop := { t with adm := s.adm, bc := s.bc, hubOrder := s.hubOrder, irq := s.irq } = s

theorem State.admStart_same (s : State) (ch : Nat) (p : List Byte) : SameButAdm s (s.admStart ch p) := s.admAccept_frame ch p

theorem State.admAccept_bc (s : State) (ch : Nat) (p : List Byte) :
    (s.admAccept ch p).bc = if ch = 4 then { s.bc with reply := s.bc.asked } else s.bc := by
  rw [State.admAccept_eq]
  exact (congrArg State.bc ((s.admTake ch p).irqRaise_frame ch) :)

theorem State.admAccept_admch_other (s : State) {ch j : Nat} (p : List Byte) (h : j ≠ ch) : (s.admAccept ch p).admch j = s.admch j := by
  simp only [State.admAccept_eq, State.admch, State.irqRaise_adm]
  exact tabGet_tabSet_other _ _ _ _ _ h

/-- The channel of a running command. -/
theorem State.admStart_admch (s : State) (ch : Nat) (p : List Byte) : (s.admStart ch p).admch ch =
    { s.admch ch with accepted := ((s.admch ch).accepted + 1) % 2 ^ 32, lastRing := 0, running := true, replyValid := false, started := true,
                      copy := p } := by
  rw [State.admStart, State.admch_updAdm_same, State.admAccept_admch]

theorem State.admStart_admch_other (s : State) {ch j : Nat} (p : List Byte) (h : j ≠ ch) : (s.admStart ch p).admch j = s.admch j := by
  rw [State.admStart, State.admch_updAdm_other _ _ _ _ h, State.admAccept_admch_other _ _ h]

theorem State.admStart_bc (s : State) (ch : Nat) (p : List Byte) :
    (s.admStart ch p).bc = if ch = 4 then { s.bc with reply := s.bc.asked } else s.bc := s.admAccept_bc ch p

/-- Which channels exist does not depend on what is accepted. -/
theorem State.admStart_chanExists (s : State) (ch : Nat) (p : List Byte) (j : Nat) : (s.admStart ch p).chanExists j = s.chanExists j := by
  have hs : (s.admStart ch p).sites = s.sites := (congrArg State.sites (s.admStart_same ch p) :)
  have hu : (s.admStart ch p).bcUp = s.bcUp := (congrArg State.bcUp (s.admStart_same ch p) :)
  have ha : (s.admStart ch p).bc.address = s.bc.address := by rw [State.admStart_bc]; split <;> rfl
  simp only [State.chanExists, State.bcReached, hs, hu, ha]

end Sys2Proof.Machine

namespace Sys2Proof.Claim

open Sys2Proof.Machine

/-- In `u` the command with packet `p`, which channel `ch` took in `s`, has yet to be answered. -/
structure Unanswered (s u : State) (ch : Fin 5) (p : List Byte) : Prop where
  copy : (u.admch ch).copy = p
  count : (u.admch ch).accepted = ((s.admch ch).accepted + 1) % 2 ^ 32
  asked : ch.val = 4 → u.bc.reply = s.bc.asked
  fuses : u.fuses = s.fuses

theorem Unanswered.start (s : State) (ch : Fin 5) (p : List Byte) : Unanswered s (s.admStart ch p) ch p where
  copy := by rw [State.admStart_admch]
  count := by rw [State.admStart_admch]
  asked := fun h => by rw [State.admStart_bc, if_pos h]
  fuses := (congrArg State.fuses (s.admStart_same ch p) :)

/-- What leaves the channels, the BC and the fuses leaves the command unanswered. -/
theorem Unanswered.of_eq {s u v : State} {ch : Fin 5} {p : List Byte} (h : Unanswered s u ch p) (ha : v.adm = u.adm) (hb : v.bc = u.bc)
    (hf : v.fuses = u.fuses) : Unanswered s v ch p := by
  have hc : v.admch ch = u.admch ch := by rw [State.admch, State.admch, ha]
  exact ⟨hc ▸ h.copy, hc ▸ h.count, hb ▸ h.asked, hf ▸ h.fuses⟩

theorem Unanswered.replyOf {s u : State} {ch : Fin 5} {p : List Byte} (h : Unanswered s u ch p) (status code : Nat) (res : List Byte) :
    u.replyOf ch status code res = replyBytes (pktOp p) status code (((s.admch ch).accepted + 1) % 65536) (fieldAt p 8 4) res := by
  rw [State.replyOf, h.copy, h.count, Nat.mod_mod_of_dvd _ (by decide)]

/-- A reply answers it. -/
theorem Unanswered.replied {s u : State} {ch : Fin 5} {p : List Byte} (h : Unanswered s u ch p) (status code : Nat) (res : List Byte) :
    Replied s (u.reply ch status code res) ch p status code res := by
  have hr := h.replyOf status code res
  obtain ⟨b, hc⟩ := u.reply_admch ch status code res
  refine ⟨(congrArg AdmSt.reply hc).trans hr, congrArg AdmSt.replyStatus hc, congrArg AdmSt.replyValid hc, congrArg AdmSt.running hc,
    ?_, fun h4 => ?_, fun h4 hi => ?_⟩
  · rw [State.reply_hubOrder]
    exact fun hm => of_decide_eq_true (List.mem_filter.mp hm).2 rfl
  · have hm := u.reply_bc status code res
    rw [← h4, h.asked h4, hr, State.bcHead, h.fuses] at hm
    rw [hm]
    exact ⟨List.mem_append_right _ (List.mem_singleton.mpr rfl), rfl⟩
  · rw [u.reply_msix status code res h4 (by rw [h.copy]; exact hi)]
    exact List.mem_append_right _ (List.mem_singleton.mpr rfl)

/-- A refusal answers it, and leaves partitions, pool entries and KV slots. -/
theorem Unanswered.refused {s u : State} {ch : Fin 5} {p : List Byte} (h : Unanswered s u ch p) (hp : u.parts = s.parts)
    (hq : u.pool = s.pool) (hk : u.kv = s.kv) (code : Nat) : Refused s (u.refuse ch code) ch p code := by
  unfold State.refuse
  dsimp only
  generalize hv : u.logEntry _ _ _ _ _ _ = v
  have hl : { v with log := u.log, irq := u.irq } = u := by rw [← hv]; exact State.logEntry_frame ..
  have hr := v.reply_frame ch (statusOf code) code []
  have ha : Unanswered s v ch p := h.of_eq (congrArg State.adm hl :) (congrArg State.bc hl :) (congrArg State.fuses hl :)
  refine ⟨ha.replied _ _ _, ?_, ?_, ?_⟩
  · exact (congrArg State.parts hr :).trans ((congrArg State.parts hl :).trans hp)
  · exact (congrArg State.pool hr :).trans ((congrArg State.pool hl :).trans hq)
  · exact (congrArg State.kv hr :).trans ((congrArg State.kv hl :).trans hk)

/-- An admitted command of no device-busy class runs, accepted and started. -/
theorem Admitted.command {s : State} {ch : Fin 5} {pkt : List Byte} (h : Admitted s ch pkt) {mine : List Byte → Bool}
    (run : State → List Byte → State) (hm : mine (chanPacket ch pkt) = true) (hd : deviceBusyOp (chanPacket ch pkt) = false) :
    s.admCommand ch pkt mine run = run (s.admStart ch (chanPacket ch pkt)) (chanPacket ch pkt) := by
  have hb : s.admBusy ch = false := by
    simp only [State.admBusy, h.idle, h.notBusy, h.ready, ne_eq, not_true_eq_false, decide_false, Bool.or_self]
  have hf := s.admAccept_frame ch (chanPacket ch pkt)
  have hc : ((s.admAccept ch (chanPacket ch pkt)).admch ch).copy = chanPacket ch pkt := by rw [State.admAccept_admch]
  have hp : (s.admAccept ch (chanPacket ch pkt)).permCode ch (chanPacket ch pkt) = none :=
    (congrArg (State.permCode · ch (chanPacket ch pkt)) hf :).trans h.allowed
  have hs : (s.admAccept ch (chanPacket ch pkt)).partStateCode (chanPacket ch pkt) = none :=
    (congrArg (State.partStateCode · (chanPacket ch pkt)) hf :).trans h.inState
  rw [State.admCommand_new s ch pkt mine run h.present hm h.whole hb]
  exact State.admRun_passes _ ch _ (by rw [hc]; exact h.framed) (by rw [hc]; exact hd) h.first (by rw [hc]; exact hp) (by rw [hc]; exact hs)

/-- An admitted command that only draws free values and replies DONE. -/
theorem Admitted.drawn_done {s : State} {ch : Fin 5} {pkt : List Byte} (h : Admitted s ch pkt) {c : Instr} {op : Nat}
    {run : State → List Byte → State} (hc : exec c s = .next (s.admCommand ch pkt (isOp op) run)) (ho : pktOp (chanPacket ch pkt) = op)
    (hq : op ∉ [0x0705, 0x0207, 0x0208, 0x0801]) {k : Nat} {r : List Byte}
    (hr : run (s.admStart ch (chanPacket ch pkt)) (chanPacket ch pkt) = { s.admStart ch (chanPacket ch pkt) with freeCtr := k }.done ch r) :
    ∃ t, exec c s = .next t ∧ Done s t ch (chanPacket ch pkt) r ∧ OnlyReplies s t := by
  refine ⟨_, hc, ?_⟩
  rw [h.command (mine := isOp op) run (beq_iff_eq.mpr ho) (deviceBusyOp_false (ho ▸ hq)), hr]
  have hu := Unanswered.start s ch (chanPacket ch pkt)
  have hs := s.admStart_same ch (chanPacket ch pkt)
  generalize s.admStart ch (chanPacket ch pkt) = u at hu hs ⊢
  refine ⟨(hu.of_eq (v := { u with freeCtr := k }) rfl rfl rfl).replied 0 0 r, ?_⟩
  have hw := congrArg (fun t : State => { t with adm := s.adm, hubOrder := s.hubOrder, irq := s.irq, msix := s.msix, msi := s.msi, bc := s.bc,
                                                  freeCtr := s.freeCtr }) (State.reply_frame { u with freeCtr := k } ch 0 0 r)
  exact (hw :).trans (congrArg (fun t : State => { t with msix := s.msix, msi := s.msi, freeCtr := s.freeCtr }) hs :)

/-- An admitted command that only replies DONE. -/
theorem Admitted.query_done {s : State} {ch : Fin 5} {pkt : List Byte} (h : Admitted s ch pkt) {c : Instr} {op : Nat}
    {run : State → List Byte → State} (hc : exec c s = .next (s.admCommand ch pkt (isOp op) run)) (ho : pktOp (chanPacket ch pkt) = op)
    (hq : op ∉ [0x0705, 0x0207, 0x0208, 0x0801]) {r : List Byte}
    (hr : run (s.admStart ch (chanPacket ch pkt)) (chanPacket ch pkt) = (s.admStart ch (chanPacket ch pkt)).done ch r) :
    ∃ t, exec c s = .next t ∧ Done s t ch (chanPacket ch pkt) r ∧ OnlyReplies s t :=
  h.drawn_done hc ho hq (k := (s.admStart ch (chanPacket ch pkt)).freeCtr) hr

/-- An admitted command that is refused by its own checks. -/
theorem Admitted.query_refused {s : State} {ch : Fin 5} {pkt : List Byte} (h : Admitted s ch pkt) {c : Instr} {op : Nat}
    {run : State → List Byte → State} (hc : exec c s = .next (s.admCommand ch pkt (isOp op) run)) (ho : pktOp (chanPacket ch pkt) = op)
    (hq : op ∉ [0x0705, 0x0207, 0x0208, 0x0801]) {code : Nat}
    (hr : run (s.admStart ch (chanPacket ch pkt)) (chanPacket ch pkt) = (s.admStart ch (chanPacket ch pkt)).refuse ch code) :
    ∃ t, exec c s = .next t ∧ Refused s t ch (chanPacket ch pkt) code := by
  have hs := s.admStart_same ch (chanPacket ch pkt)
  refine ⟨_, hc, ?_⟩
  rw [h.command (mine := isOp op) run (beq_iff_eq.mpr ho) (deviceBusyOp_false (ho ▸ hq)), hr]
  exact (Unanswered.start s ch _).refused (congrArg State.parts hs :) (congrArg State.pool hs :) (congrArg State.kv hs :) code

end Sys2Proof.Claim
end

section
/-! PROOF. The records of the queries, field by field (R32, R33, R369 to R372, R511, R530, R540, R545), and that they are those of the state
in which the query is accepted. -/

namespace Sys2Proof.Machine

-- what the record of a query reads is left by accepting its command

theorem SameButAdm.identityRecord {s t : State} (h : SameButAdm s t) (ch : Nat) : t.identityRecord ch = s.identityRecord ch :=
  (congrArg (State.identityRecord · ch) h :)

theorem SameButAdm.inventoryRecord {s t : State} (h : SameButAdm s t) (ch : Nat) : t.inventoryRecord ch = s.inventoryRecord ch :=
  (congrArg (State.inventoryRecord · ch) h :)

theorem signedByte_eq (v : Int) : signedByte v = leBytes 1 (BitVec.ofInt 8 v).toNat := by
  rw [signedByte, leBytes, leBytes, BitVec.ofNat_toNat, BitVec.setWidth_eq]

/-- The power record (R540). -/
def State.powerCapRecord (s : State) : List Byte :=
  leBytes 4 s.power.bcCap ++ leBytes 4 s.power.pmCap ++ leBytes 4 s.power.effective ++ leBytes 4 floorW ++ leBytes 4 (s.power.mean / 10)
    ++ leBytes 4 (s.power.estimate / 10) ++ leBytes 1 s.power.level ++ leBytes 1 s.power.freqMode
    ++ leBytes 2 (bnat s.power.capUnmet + 2 * bnat s.power.untrusted + 4 * bnat s.sensorFault + 8 * bnat s.thermalLimited) ++ zeros 4
    ++ (natRange 0 4).flatMap (fun d => leBytes 1 (s.dieMaxOp d)) ++ (natRange 0 4).flatMap (fun d => signedByte (s.power.trim d)) ++ zeros 8

theorem SameButAdm.powerCapRecord {s t : State} (h : SameButAdm s t) : t.powerCapRecord = s.powerCapRecord :=
  (congrArg State.powerCapRecord h :)

/-- The firmware record (R511). -/
def FwSt.queryRecord (f : FwSt) : List Byte :=
  leBytes 1 f.runSlot ++ leBytes 1 f.fusedSvn ++ leBytes 1 (f.stageOwner.getD 0xFF) ++ zeros 5 ++ f.slotA.bytes ++ f.slotB.bytes
    ++ (natRange 0 4).flatMap (fun d => leBytes 8 (tabGet 0 f.seqVersion d))

theorem SameButAdm.fw {s t : State} (h : SameButAdm s t) : t.fw = s.fw := (congrArg State.fw h :)

/-- The energy record (R545). -/
def State.energyRecord (s : State) : List Byte :=
  leBytes 8 (s.power.energyUj / 1000) ++ leBytes 8 s.hubCycles ++ leBytes 4 (s.power.substUs / 1000) ++ zeros 4

theorem SameButAdm.energyRecord {s t : State} (h : SameButAdm s t) : t.energyRecord = s.energyRecord :=
  (congrArg State.energyRecord h :)

/-- Link modules in service at an edge. -/
def State.servingAtEdge (s : State) (e : Nat) : Nat := ((natRange (6 * e) 6).filter (fun m => (s.lmEntry m).inService)).length

/-- The inventory record before its counts by edge (R32). -/
def State.inventoryHead (s : State) : List Byte :=
  leBytes 4 1 ++ leBytes 4 s.pool.sequence ++ leBytes 8 s.fuses.serial ++ leBytes 1 s.fuses.orderCode ++ leBytes 1 s.sites
    ++ leBytes 2 s.shipped ++ leBytes 2 (s.servingCount 1 192) ++ leBytes 2 (s.servingCount 2 320)

@[simp] theorem State.inventoryHead_length (s : State) : s.inventoryHead.length = 24 := by
  simp only [State.inventoryHead, List.length_append, leBytes_length]

@[simp] theorem State.entryBytes_length (s : State) (ch kind top : Nat) : (s.entryBytes ch kind top).length = 2 * top :=
  leBytes_table_length 2 _ 0 top

/-- An entry of a table that stands behind `m` bytes. -/
theorem State.fieldAt_entryBytes {s : State} {ch kind top m i off : Nat} {xs : List Byte} (hx : xs.length = m) (hi : i < top)
    (he : off = m + 2 * i) : fieldAt (xs ++ s.entryBytes ch kind top) off 2 = s.entryWord ch (s.entry kind i) % 2 ^ (8 * 2) := by
  rw [State.entryBytes, fieldAt_leBytes_table hx hi he]

theorem State.inventoryRecord_eq (s : State) (ch : Nat) : s.inventoryRecord ch = s.inventoryHead ++
    (natRange 0 4).flatMap (fun e => leBytes 1 (s.servingAtEdge e)) ++ zeros 4 ++ s.entryBytes ch 1 192 ++ s.entryBytes ch 2 320
      ++ s.entryBytes ch 3 24 := rfl

/-- The status record (R370) with its BUSY_CHANNELS: the one field that accepting a command changes. -/
def State.statusBytes (s : State) (busy : Nat) : List Byte :=
  leBytes 2 s.devFlags ++ leBytes 1 s.recoveringDies ++ leBytes 1 busy
    ++ leBytes 1 (s.parts.filter (fun e => e.2.present)).length ++ zeros 3 ++ leBytes 4 s.pool.sequence ++ zeros 4
    ++ leBytes 8 s.log.next ++ leBytes 8 s.hubCycles

theorem SameButAdm.statusRecord {s t : State} (h : SameButAdm s t) : t.statusRecord = s.statusBytes t.busyChannels :=
  (congrArg (State.statusBytes · t.busyChannels) h :)

/-- BUSY_CHANNELS, bit by bit. -/
theorem State.busyChannels_testBit (s : State) (c : Nat) :
    s.busyChannels.testBit c = (decide (c < 5) && (c == 4 || s.chanExists c) && s.admBusy c) := by
  have h := testBit_foldl_bits (fun c => (c == 4 || s.chanExists c) && s.admBusy c) 5 0 0 c (by decide)
  have h0 : (decide (0 ≤ c) && decide (c < 0 + 5)) = decide (c < 5) := by
    rw [decide_eq_true (Nat.zero_le c), Bool.true_and, Nat.zero_add]
  rw [Nat.zero_testBit, Bool.false_or, h0, ← Bool.and_assoc] at h
  exact h

/-- While a channel's command runs its bit is set, and the others are as before it was accepted. -/
theorem State.admStart_busyChannels (s : State) {ch : Nat} (p : List Byte) (he : s.chanExists ch = true) (hl : ch < 5) (c : Nat) :
    (s.admStart ch p).busyChannels.testBit c =
      if c = ch then true else decide (c < 5) && (c == 4 || s.chanExists c) && s.admBusy c := by
  rw [State.busyChannels_testBit, State.admStart_chanExists]
  split
  · next h =>
    subst h
    have hb : (s.admStart c p).admBusy c = true := by
      rw [State.admBusy, State.admStart_admch, Bool.true_or, Bool.true_or]
    rw [decide_eq_true hl, he, hb, Bool.or_true, Bool.and_self, Bool.and_self]
  · next h =>
    have hp : (s.admStart ch p).phase = s.phase := (congrArg State.phase (s.admStart_same ch p) :)
    simp only [State.admBusy, s.admStart_admch_other p h, hp]

/-- The sensor record (R371) that a packet asks for. -/
def State.sensorsRecord (s : State) (p : List Byte) : List Byte :=
  leBytes 8 s.sensors.rounds ++ leBytes 1 (par p 0 1) ++ zeros 1 ++ leBytes 2 (par p 2 2) ++ leBytes 2 (par p 4 2) ++ zeros 2
    ++ (natRange 0 (par p 4 2)).flatMap (fun i => s.sensorRecord (par p 0 1) (Config.freeNat (s.freeCtr + i)) (par p 2 2 + i))

theorem SameButAdm.sensorsRecord {s t : State} (h : SameButAdm s t) (p : List Byte) : t.sensorsRecord p = s.sensorsRecord p :=
  (congrArg (State.sensorsRecord · p) h :)

/-- The log record (R372) that a packet asks for. -/
def State.logRecord (s : State) (ch : Nat) (p : List Byte) : List Byte :=
  leBytes 8 s.log.oldest ++ leBytes 8 s.log.next
    ++ ((s.log.ring.filter (fun e => decide (par p 0 8 ≤ logSeqOf e) && s.logShown ch e)).take (par p 8 2)).flatMap id

theorem SameButAdm.logRecord {s t : State} (h : SameButAdm s t) (ch : Nat) (p : List Byte) : t.logRecord ch p = s.logRecord ch p :=
  (congrArg (State.logRecord · ch p) h :)

end Sys2Proof.Machine

namespace Sys2Proof.Claim

open Sys2Proof.Machine

/-- R369. -/
theorem identityRecord_fields (s : State) (ch : Nat) : let r := s.identityRecord ch
    r.length = 48 ∧ Field r 0 4 1 ∧ Field r 4 2 0x4820 ∧ Field r 6 2 s.fuses.stepping ∧ Field r 8 8 s.fuses.serial ∧
      Field r 16 1 s.fuses.orderCode ∧ Field r 17 1 s.sites ∧ Field r 18 1 ch ∧ Field r 19 1 (bnat (s.isPm ch)) ∧
      Field r 20 2 s.shipped ∧ Field r 22 2 1 ∧
      Field r 24 8 (fwVersion (s.fw.slot s.fw.runSlot).image) ∧
      Field r 32 4 (bnat s.prs.lock + 2 * s.prs.debugLevel + 16 * s.prs.pmPorts) ∧ Field r 36 12 0 := by
  simp only [Field, State.identityRecord, List.append_assoc, fieldAt_append_right, fieldAt_leBytes_append,
    fieldAt_zeros, List.length_append, leBytes_length, zeros_length, Nat.reduceLeDiff, Nat.reduceSub,
    Nat.reduceAdd, Nat.reduceMul, Nat.zero_mod, and_self]

theorem inventoryRecord_length (s : State) (ch : Nat) : (s.inventoryRecord ch).length = 32 + 2 * (192 + 320 + 24) := by
  simp only [State.inventoryRecord_eq, List.length_append, State.inventoryHead_length, leBytes_table_length, zeros_length,
    State.entryBytes_length]

/-- R32: the fields before the tables. -/
theorem inventoryRecord_fields (s : State) (ch : Nat) : let r := s.inventoryRecord ch
    Field r 0 4 1 ∧ Field r 4 4 s.pool.sequence ∧ Field r 8 8 s.fuses.serial ∧ Field r 16 1 s.fuses.orderCode ∧ Field r 17 1 s.sites ∧
      Field r 18 2 s.shipped ∧ Field r 20 2 (s.servingCount 1 192) ∧ Field r 22 2 (s.servingCount 2 320) ∧ Field r 28 4 0 := by
  rw [State.inventoryRecord_eq]
  simp only [Field, State.inventoryHead, List.append_assoc, fieldAt_append_right, fieldAt_leBytes_append, fieldAt_zeros_append,
    leBytes_length, leBytes_table_length, Nat.reduceLeDiff, Nat.reduceSub, Nat.reduceMul, Nat.zero_mod, and_self]

/-- R32: the counts by edge. -/
theorem inventoryRecord_edge (s : State) (ch : Nat) {e : Nat} (he : e < 4) :
    Field (s.inventoryRecord ch) (24 + e) 1 (s.servingAtEdge e) := by
  rw [Field, State.inventoryRecord_eq, fieldAt_append_left, fieldAt_append_left, fieldAt_append_left, fieldAt_append_left,
    fieldAt_leBytes_table s.inventoryHead_length he (by omega)]
  all_goals
    simp only [List.length_append, State.inventoryHead_length, State.entryBytes_length, zeros_length, leBytes_table_length]
    omega

/-- R33: the entries of the clusters. -/
theorem inventoryRecord_cluster (s : State) (ch : Nat) {i : Nat} (hi : i < 192) :
    Field (s.inventoryRecord ch) (32 + 2 * i) 2 (s.entryWord ch (s.entry 1 i)) := by
  have hm : (s.inventoryHead ++ (natRange 0 4).flatMap (fun e => leBytes 1 (s.servingAtEdge e)) ++ zeros 4).length = 32 := by
    simp only [List.length_append, State.inventoryHead_length, zeros_length, leBytes_table_length]
  rw [Field, State.inventoryRecord_eq, fieldAt_append_left, fieldAt_append_left, State.fieldAt_entryBytes hm hi rfl]
  all_goals
    simp only [List.length_append, State.inventoryHead_length, State.entryBytes_length, zeros_length, leBytes_table_length]
    omega

/-- R33: the entries of the channels. -/
theorem inventoryRecord_channel (s : State) (ch : Nat) {i : Nat} (hi : i < 320) :
    Field (s.inventoryRecord ch) (416 + 2 * i) 2 (s.entryWord ch (s.entry 2 i)) := by
  have hm : (s.inventoryHead ++ (natRange 0 4).flatMap (fun e => leBytes 1 (s.servingAtEdge e)) ++ zeros 4 ++
      s.entryBytes ch 1 192).length = 416 := by
    simp only [List.length_append, State.inventoryHead_length, State.entryBytes_length, zeros_length, leBytes_table_length]
  rw [Field, State.inventoryRecord_eq, fieldAt_append_left, State.fieldAt_entryBytes hm hi rfl]
  simp only [List.length_append, State.inventoryHead_length, State.entryBytes_length, zeros_length, leBytes_table_length]
  omega

/-- R33: the entries of the link modules. -/
theorem inventoryRecord_link (s : State) (ch : Nat) {i : Nat} (hi : i < 24) :
    Field (s.inventoryRecord ch) (1056 + 2 * i) 2 (s.entryWord ch (s.entry 3 i)) := by
  rw [Field, State.inventoryRecord_eq, State.fieldAt_entryBytes (m := 1056) ?_ hi rfl]
  simp only [List.length_append, State.inventoryHead_length, State.entryBytes_length, zeros_length, leBytes_table_length]

/-- R511. -/
theorem queryRecord_fields (f : FwSt) : let r := f.queryRecord
    r.length = 88 ∧ Field r 0 1 f.runSlot ∧ Field r 1 1 f.fusedSvn ∧ Field r 2 1 (f.stageOwner.getD 0xFF) ∧ Field r 3 5 0 ∧
      Field r 8 1 f.slotA.state ∧ Field r 9 3 0 ∧ Field r 12 4 f.slotA.image.length ∧ Field r 16 8 (fwVersion f.slotA.image) ∧
      Field r 24 1 (fwSvn f.slotA.image) ∧ Field r 25 7 0 ∧
      Field r 32 1 f.slotB.state ∧ Field r 33 3 0 ∧ Field r 36 4 f.slotB.image.length ∧ Field r 40 8 (fwVersion f.slotB.image) ∧
      Field r 48 1 (fwSvn f.slotB.image) ∧ Field r 49 7 0 := by
  simp only [Field, FwSt.queryRecord, FwSlot.bytes, List.append_assoc, fieldAt_append_right, fieldAt_leBytes_append, fieldAt_zeros_append,
    List.length_append, leBytes_length, zeros_length, leBytes_table_length, Nat.reduceLeDiff, Nat.reduceSub,
    Nat.reduceAdd, Nat.reduceMul, Nat.zero_mod, and_self]

/-- R511: the version in a die's sequencers. -/
theorem queryRecord_sequencer (f : FwSt) {d : Nat} (hd : d < 4) : Field f.queryRecord (56 + 8 * d) 8 (tabGet 0 f.seqVersion d) := by
  rw [Field, FwSt.queryRecord, fieldAt_leBytes_table (by simp only [FwSlot.bytes, List.length_append, leBytes_length, zeros_length]) hd rfl]

/-- R370. -/
theorem statusBytes_fields (s : State) (busy : Nat) : let r := s.statusBytes busy
    r.length = 32 ∧ Field r 0 2 s.devFlags ∧ Field r 2 1 s.recoveringDies ∧ Field r 3 1 busy ∧ Field r 5 3 0 ∧ Field r 12 4 0 ∧
      Field r 4 1 (s.parts.filter (fun e => e.2.present)).length ∧ Field r 8 4 s.pool.sequence ∧ Field r 16 8 s.log.next ∧
      Field r 24 8 s.hubCycles := by
  simp only [Field, State.statusBytes, List.append_assoc, fieldAt_append_right, fieldAt_leBytes_append, fieldAt_leBytes, fieldAt_zeros_append,
    List.length_append, leBytes_length, zeros_length, Nat.reduceLeDiff, Nat.reduceSub,
    Nat.reduceAdd, Nat.reduceMul, Nat.zero_mod, and_self]

/-- R540. -/
theorem powerCapRecord_fields (s : State) : let r := s.powerCapRecord
    r.length = 48 ∧ Field r 0 4 s.power.bcCap ∧ Field r 4 4 s.power.pmCap ∧ Field r 8 4 s.power.effective ∧ Field r 12 4 920 ∧
      Field r 16 4 (s.power.mean / 10) ∧ Field r 20 4 (s.power.estimate / 10) ∧ Field r 24 1 s.power.level ∧
      Field r 25 1 s.power.freqMode ∧
      Field r 26 2 (bnat s.power.capUnmet + 2 * bnat s.power.untrusted + 4 * bnat s.sensorFault + 8 * bnat s.thermalLimited) ∧
      Field r 28 4 0 ∧ Field r 40 8 0 := by
  simp only [Field, State.powerCapRecord, floorW, signedByte_eq, List.append_assoc, fieldAt_append_right, fieldAt_leBytes_append,
    fieldAt_zeros_append, fieldAt_zeros, List.length_append, leBytes_length, zeros_length, leBytes_table_length, Nat.reduceLeDiff, Nat.reduceSub,
    Nat.reduceAdd, Nat.reduceMul, Nat.zero_mod, and_self]

/-- R540: the operating point and the trim of a die. -/
theorem powerCapRecord_die (s : State) {d : Nat} (hd : d < 4) : Field s.powerCapRecord (32 + d) 1 (s.dieMaxOp d) ∧
    fieldAt s.powerCapRecord (36 + d) 1 = (BitVec.ofInt 8 (s.power.trim d)).toNat := by
  rw [Field, State.powerCapRecord]
  simp only [signedByte_eq]
  constructor
  · rw [fieldAt_append_left, fieldAt_append_left, fieldAt_leBytes_table (m := 32)
      (by simp only [List.length_append, leBytes_length, zeros_length]) hd (by omega)]
    all_goals
      simp only [List.length_append, leBytes_length, zeros_length, leBytes_table_length]
      omega
  · rw [fieldAt_append_left, fieldAt_leBytes_table (m := 36)
      (by simp only [List.length_append, leBytes_length, zeros_length, leBytes_table_length]) hd (by omega), Nat.mod_eq_of_lt (BitVec.isLt _)]
    simp only [List.length_append, leBytes_length, zeros_length, leBytes_table_length]
    omega

/-- R545. -/
theorem energyRecord_fields (s : State) : let r := s.energyRecord
    r.length = 24 ∧ Field r 0 8 (s.power.energyUj / 1000) ∧ Field r 8 8 s.hubCycles ∧ Field r 16 4 (s.power.substUs / 1000) ∧
      Field r 20 4 0 := by
  simp only [Field, State.energyRecord, List.append_assoc, fieldAt_append_right, fieldAt_leBytes_append,
    fieldAt_zeros, List.length_append, leBytes_length, zeros_length, Nat.reduceLeDiff, Nat.reduceSub,
    Nat.reduceAdd, Nat.reduceMul, Nat.zero_mod, and_self]

-- SENSORS_READ

/-- R371: the fields before the points. -/
theorem sensorsRecord_fields (s : State) (p : List Byte) : let r := s.sensorsRecord p
    Field r 0 8 s.sensors.rounds ∧ Field r 8 1 (par p 0 1) ∧ Field r 9 1 0 ∧ Field r 10 2 (par p 2 2) ∧ Field r 12 2 (par p 4 2) ∧
      Field r 14 2 0 := by
  simp only [Field, State.sensorsRecord, List.append_assoc, fieldAt_append_right, fieldAt_leBytes_append, fieldAt_zeros_append,
    leBytes_length, zeros_length, Nat.reduceLeDiff, Nat.reduceSub, Nat.reduceMul, Nat.zero_mod, and_self]

/-- A field of a point's record, where the records of the class have `k` bytes. -/
theorem fieldAt_sensorsRecord {s : State} {p : List Byte} {k i off : Nat} (o size : Nat)
    (hk : ∀ free n, (s.sensorRecord (par p 0 1) free n).length = k) (hi : i < par p 4 2) (ho : o + size ≤ k) (he : off = 16 + (k * i + o)) :
    fieldAt (s.sensorsRecord p) off size = fieldAt (s.sensorRecord (par p 0 1) (Config.freeNat (s.freeCtr + i)) (par p 2 2 + i)) o size :=
  fieldAt_table (by simp only [List.length_append, leBytes_length, zeros_length]) (fun _ => hk _ _) hi ho he

/-- A point of an entry out of service gives no reading. -/
theorem pointAbsent_of_reading {s : State} {n : Nat} {v : Int} (h : s.reading n = some v) : s.pointAbsent n = false := by
  cases ha : s.pointAbsent n with
  | false => rfl
  | true =>
    rw [State.reading, if_pos ha] at h
    cases h

theorem pointAbsent_eq (s : State) (n : Nat) : s.pointAbsent n = (decide (n < 768) && !(s.clEntry (n / 4)).inService) := by
  unfold State.pointAbsent pointCluster
  by_cases h : n < 768
  · rw [if_pos h, decide_eq_true h, Bool.true_and]
  · rw [if_neg h, decide_eq_false h, Bool.false_and]

theorem tempRecord_length (s : State) (free n : Nat) : (s.tempRecord free n).length = 4 := by
  rw [State.tempRecord, List.length_append, leBytes_length, leBytes_length]

/-- FLAGS of a temperature record: VALID, at or above 100 degrees, at or above 110 degrees, ABSENT. -/
def tempFlags (valid hot hotter absent : Bool) : Nat := bnat valid + 2 * bnat hot + 4 * bnat hotter + 8 * bnat absent

theorem tempFlags_bits : ∀ valid hot hotter absent, (tempFlags valid hot hotter absent).testBit 0 = valid ∧
    (tempFlags valid hot hotter absent).testBit 3 = absent ∧ tempFlags valid hot hotter absent < 16 := by
  decide

theorem tempRecord_flags (s : State) (free n : Nat) : fieldAt (s.tempRecord free n) 2 2 =
    let v := (s.reading n).getD (sext 16 (free % 65536))
    tempFlags (s.reading n).isSome (decide (100 * 64 ≤ v)) (decide (110 * 64 ≤ v)) (s.pointAbsent n) := by
  rw [State.tempRecord, fieldAt_append_right _ _ _ (Nat.le_of_eq (leBytes_length 2 _)), leBytes_length, fieldAt_leBytes]
  exact Nat.mod_eq_of_lt (Nat.lt_trans (tempFlags_bits _ _ _ _).2.2 (by decide))

/-- The record of a temperature that was read. -/
theorem tempRecord_some {s : State} {n : Nat} {v : Int} (free : Nat) (h : s.reading n = some v) :
    fieldAt (s.tempRecord free n) 0 2 = (BitVec.ofInt 16 v).toNat ∧
      fieldAt (s.tempRecord free n) 2 2 = 1 + 2 * bnat (decide (100 * 64 ≤ v)) + 4 * bnat (decide (110 * 64 ≤ v)) := by
  constructor
  · rw [State.tempRecord, fieldAt_leBytes_append, h]
    exact Nat.mod_eq_of_lt (BitVec.isLt _)
  · rw [tempRecord_flags, h, pointAbsent_of_reading h]
    rfl

/-- The flags of a temperature that was not read: VALID is clear, and ABSENT tells a point of an entry out of service. -/
theorem tempRecord_none {s : State} {n : Nat} (free : Nat) (h : s.reading n = none) :
    (fieldAt (s.tempRecord free n) 2 2).testBit 0 = false ∧ (fieldAt (s.tempRecord free n) 2 2).testBit 3 = s.pointAbsent n ∧
      fieldAt (s.tempRecord free n) 2 2 < 16 := by
  rw [tempRecord_flags, h]
  exact tempFlags_bits _ _ _ _

theorem railRecord_length (s : State) (free n : Nat) : (s.railRecord free n).length = 8 := by
  unfold State.railRecord
  split <;> simp only [List.length_append, leBytes_length]

/-- The record of a rail that was sampled. -/
theorem railRecord_some {s : State} {n : Nat} {x : RailReading} (free : Nat) (h : s.sensors.rails[n]? = some x) :
    let r := s.railRecord free n
    Field r 0 2 x.millivolts ∧ Field r 2 2 x.current ∧ Field r 4 2 x.power ∧ Field r 6 1 x.phasesOk ∧
      Field r 7 1 (1 + 2 * bnat x.overcurrent) := by
  simp only [Field, State.railRecord, h, List.append_assoc, fieldAt_append_right, fieldAt_leBytes_append, fieldAt_leBytes,
    leBytes_length, Nat.reduceLeDiff, Nat.reduceSub, Nat.reduceMul, and_self]

/-- VALID of a rail that was not. -/
theorem railRecord_none {s : State} {n : Nat} (free : Nat) (h : s.sensors.rails[n]? = none) : Field (s.railRecord free n) 7 1 0 := by
  simp only [Field, State.railRecord, h, fieldAt_append_right, fieldAt_leBytes,
    leBytes_length, Nat.reduceLeDiff, Nat.reduceSub, Nat.reduceMul, Nat.zero_mod]

theorem fieldAt_temp {s : State} {p : List Byte} {i off : Nat} (o size : Nat) (hc : par p 0 1 = 0) (hi : i < par p 4 2)
    (ho : o + size ≤ 4) (he : off = 16 + (4 * i + o)) :
    fieldAt (s.sensorsRecord p) off size = fieldAt (s.tempRecord (Config.freeNat (s.freeCtr + i)) (par p 2 2 + i)) o size := by
  have hk : ∀ free n, s.sensorRecord (par p 0 1) free n = s.tempRecord free n := fun _ _ => by rw [hc]; rfl
  rw [fieldAt_sensorsRecord o size (fun _ _ => by rw [hk, tempRecord_length]) hi ho he, hk]

theorem fieldAt_rail {s : State} {p : List Byte} {i off : Nat} (o size : Nat) (hc : par p 0 1 = 1) (hi : i < par p 4 2)
    (ho : o + size ≤ 8) (he : off = 16 + (8 * i + o)) :
    fieldAt (s.sensorsRecord p) off size = fieldAt (s.railRecord (Config.freeNat (s.freeCtr + i)) (par p 2 2 + i)) o size := by
  have hk : ∀ free n, s.sensorRecord (par p 0 1) free n = s.railRecord free n := fun _ _ => by rw [hc]; rfl
  rw [fieldAt_sensorsRecord o size (fun _ _ => by rw [hk, railRecord_length]) hi ho he, hk]

/-- R371: the record of a temperature that was read. -/
theorem sensorsRecord_temp_some {s : State} {p : List Byte} (hc : par p 0 1 = 0) {i : Nat} {v : Int} (hi : i < par p 4 2)
    (hv : s.reading (par p 2 2 + i) = some v) :
    fieldAt (s.sensorsRecord p) (16 + 4 * i) 2 = (BitVec.ofInt 16 v).toNat ∧
      fieldAt (s.sensorsRecord p) (18 + 4 * i) 2 = 1 + 2 * bnat (decide (100 * 64 ≤ v)) + 4 * bnat (decide (110 * 64 ≤ v)) := by
  rw [fieldAt_temp 0 2 hc hi (by decide) (by omega), fieldAt_temp 2 2 hc hi (by decide) (by omega)]
  exact tempRecord_some _ hv

/-- R371: the flags of a temperature that was not. -/
theorem sensorsRecord_temp_none {s : State} {p : List Byte} (hc : par p 0 1 = 0) {i : Nat} (hi : i < par p 4 2)
    (hv : s.reading (par p 2 2 + i) = none) :
    (fieldAt (s.sensorsRecord p) (18 + 4 * i) 2).testBit 0 = false ∧
      (fieldAt (s.sensorsRecord p) (18 + 4 * i) 2).testBit 3 =
        (decide (par p 2 2 + i < 768) && !(s.clEntry ((par p 2 2 + i) / 4)).inService) ∧
      fieldAt (s.sensorsRecord p) (18 + 4 * i) 2 < 16 := by
  rw [fieldAt_temp 2 2 hc hi (by decide) (by omega), ← pointAbsent_eq]
  exact tempRecord_none _ hv

/-- R371, R530: the record of a rail that was sampled. -/
theorem sensorsRecord_rail_some {s : State} {p : List Byte} (hc : par p 0 1 = 1) {i : Nat} {x : RailReading} (hi : i < par p 4 2)
    (hx : s.sensors.rails[par p 2 2 + i]? = some x) : let r := s.sensorsRecord p
    Field r (16 + 8 * i) 2 x.millivolts ∧ Field r (18 + 8 * i) 2 x.current ∧ Field r (20 + 8 * i) 2 x.power ∧
      Field r (22 + 8 * i) 1 x.phasesOk ∧ Field r (23 + 8 * i) 1 (1 + 2 * bnat x.overcurrent) := by
  dsimp only [Field]
  rw [fieldAt_rail 0 2 hc hi (by decide) (by omega), fieldAt_rail 2 2 hc hi (by decide) (by omega), fieldAt_rail 4 2 hc hi (by decide) (by omega),
    fieldAt_rail 6 1 hc hi (by decide) (by omega), fieldAt_rail 7 1 hc hi (by decide) (by omega)]
  exact railRecord_some _ hx

/-- R371, R530: VALID of a rail that was not. -/
theorem sensorsRecord_rail_none {s : State} {p : List Byte} (hc : par p 0 1 = 1) {i : Nat} (hi : i < par p 4 2)
    (hx : s.sensors.rails[par p 2 2 + i]? = none) : Field (s.sensorsRecord p) (23 + 8 * i) 1 0 := by
  rw [Field, fieldAt_rail 7 1 hc hi (by decide) (by omega)]
  exact railRecord_none _ hx

/-- R371: the error counts of a channel. -/
theorem sensorsRecord_channel {s : State} {p : List Byte} (hc : par p 0 1 = 2) {i : Nat} (hi : i < par p 4 2) :
    Field (s.sensorsRecord p) (16 + 8 * i) 4 (s.chan (par p 2 2 + i)).corrected ∧
      Field (s.sensorsRecord p) (20 + 8 * i) 4 (s.chan (par p 2 2 + i)).uncorrectable := by
  have hk : ∀ free n, s.sensorRecord (par p 0 1) free n = leBytes 4 (s.chan n).corrected ++ leBytes 4 (s.chan n).uncorrectable :=
    fun _ _ => by rw [hc]; rfl
  have hl : ∀ free n, (s.sensorRecord (par p 0 1) free n).length = 8 := fun _ _ => by
    rw [hk, List.length_append, leBytes_length, leBytes_length]
  rw [Field, Field, fieldAt_sensorsRecord 0 4 hl hi (by decide) (by omega), fieldAt_sensorsRecord 4 4 hl hi (by decide) (by omega), hk]
  exact ⟨fieldAt_leBytes_append _ _ _, by
    rw [fieldAt_append_right _ _ _ (Nat.le_of_eq (leBytes_length 4 _)), leBytes_length, fieldAt_leBytes]⟩

/-- R371: what a class's points read. -/
theorem sensorClass_of_mem {c points most : Nat} (h : (c, points, most) ∈ [(0, 1076, 1016), (1, 12, 508), (2, 320, 320)]) :
    sensorClass c = some (points, most) := by
  simp only [List.mem_cons, Prod.mk.injEq, List.not_mem_nil, or_false] at h
  obtain ⟨rfl, rfl, rfl⟩ | ⟨rfl, rfl, rfl⟩ | ⟨rfl, rfl, rfl⟩ := h <;> rfl

theorem sensorClass_le {c : Nat} {x : Nat × Nat} (h : sensorClass c = some x) : c ≤ 2 := by
  match c with
  | 0 | 1 | 2 => omega
  | n + 3 => cases h

-- LOG_READ

/-- R372. -/
theorem logRecord_fields (s : State) (ch : Nat) (p : List Byte) : let r := s.logRecord ch p
    Field r 0 8 s.log.oldest ∧ Field r 8 8 s.log.next ∧
      r.drop 16 = ((s.log.ring.filter (fun e => decide (par p 0 8 ≤ fieldAt e 0 8) && s.logShown ch e)).take (par p 8 2)).flatten := by
  have hl : (leBytes 8 s.log.oldest ++ leBytes 8 s.log.next).length = 16 := by
    rw [List.length_append, leBytes_length, leBytes_length]
  dsimp only [Field, State.logRecord]
  refine ⟨?_, ?_, ?_⟩
  · rw [List.append_assoc, fieldAt_leBytes_append]
  · rw [List.append_assoc, fieldAt_append_right _ _ _ (Nat.le_of_eq (leBytes_length 8 _)), leBytes_length, Nat.sub_self,
      fieldAt_leBytes_append]
  · rw [List.drop_left' hl, List.flatMap_id]
    rfl

end Sys2Proof.Claim
end

section
/-! PROOF. The queries of the admin channel answer with their records (R32, R33, R369 to R372, R511, R530, R540, R545). -/

namespace Sys2Proof.Claim

open Sys2Proof.Machine

section Replies

variable {s : State} {ch : Fin 5} {pkt : List Byte}

-- each query replies with its record

theorem Admitted.identify (h : Admitted s ch pkt) (ho : pktOp (chanPacket ch pkt) = 0x0001) :
    ∃ t, exec (.identify ch pkt) s = .next t ∧ Done s t ch (chanPacket ch pkt) (s.identityRecord ch) ∧ OnlyReplies s t :=
  h.query_done rfl ho (by decide) (by rw [← (s.admStart_same ch (chanPacket ch pkt)).identityRecord])

theorem Admitted.inventory (h : Admitted s ch pkt) (ho : pktOp (chanPacket ch pkt) = 0x0002) (hz : parZero (chanPacket ch pkt) 0 8 = true) :
    ∃ t, exec (.inventory ch pkt) s = .next t ∧ Done s t ch (chanPacket ch pkt) (s.inventoryRecord ch) ∧ OnlyReplies s t :=
  h.query_done rfl ho (by decide) (by rw [hz, ← (s.admStart_same ch (chanPacket ch pkt)).inventoryRecord]; rfl)

theorem Admitted.status (h : Admitted s ch pkt) (ho : pktOp (chanPacket ch pkt) = 0x0003) :
    ∃ t, exec (.status ch pkt) s = .next t ∧
      Done s t ch (chanPacket ch pkt) (s.statusBytes (s.admStart ch (chanPacket ch pkt)).busyChannels) ∧ OnlyReplies s t :=
  h.query_done rfl ho (by decide) (by rw [← (s.admStart_same ch (chanPacket ch pkt)).statusRecord])

theorem Admitted.fwQuery (h : Admitted s ch pkt) (ho : pktOp (chanPacket ch pkt) = 0x0706) (hz : parZero (chanPacket ch pkt) 0 8 = true) :
    ∃ t, exec (.fwQuery ch pkt) s = .next t ∧ Done s t ch (chanPacket ch pkt) s.fw.queryRecord ∧ OnlyReplies s t :=
  h.query_done rfl ho (by decide) (by rw [hz, ← (s.admStart_same ch (chanPacket ch pkt)).fw]; rfl)

theorem Admitted.powerCapGet (h : Admitted s ch pkt) (ho : pktOp (chanPacket ch pkt) = 0x0007) (hz : parZero (chanPacket ch pkt) 0 8 = true) :
    ∃ t, exec (.powerCapGet ch pkt) s = .next t ∧ Done s t ch (chanPacket ch pkt) s.powerCapRecord ∧ OnlyReplies s t :=
  h.query_done rfl ho (by decide) (by rw [hz, ← (s.admStart_same ch (chanPacket ch pkt)).powerCapRecord]; rfl)

theorem Admitted.energyRead (h : Admitted s ch pkt) (ho : pktOp (chanPacket ch pkt) = 0x0008) (hz : parZero (chanPacket ch pkt) 0 8 = true) :
    ∃ t, exec (.energyRead ch pkt) s = .next t ∧ Done s t ch (chanPacket ch pkt) s.energyRecord ∧ OnlyReplies s t :=
  h.query_done rfl ho (by decide) (by rw [hz, ← (s.admStart_same ch (chanPacket ch pkt)).energyRecord]; rfl)

theorem Admitted.sensorsRead (h : Admitted s ch pkt) (ho : pktOp (chanPacket ch pkt) = 0x0004)
    (hz : parZero (chanPacket ch pkt) 1 1 = true) (hz' : parZero (chanPacket ch pkt) 6 2 = true) {points most : Nat}
    (hc : sensorClass (par (chanPacket ch pkt) 0 1) = some (points, most)) (h1 : 1 ≤ par (chanPacket ch pkt) 4 2)
    (hm : par (chanPacket ch pkt) 4 2 ≤ most) (hp : par (chanPacket ch pkt) 2 2 + par (chanPacket ch pkt) 4 2 ≤ points) :
    ∃ t, exec (.sensorsRead ch pkt) s = .next t ∧ Done s t ch (chanPacket ch pkt) (s.sensorsRecord (chanPacket ch pkt)) ∧
      OnlyReplies s t := by
  refine h.drawn_done rfl ho (by decide) (k := (s.admStart ch (chanPacket ch pkt)).freeCtr + par (chanPacket ch pkt) 4 2) ?_
  rw [← (s.admStart_same ch (chanPacket ch pkt)).sensorsRecord]
  simp only [hz, hz', hc]
  rw [if_neg (by simp only [Bool.not_true, Bool.false_eq_true, or_self, not_false_eq_true]), if_neg (by omega)]
  rfl

theorem Admitted.sensorsRead_refused (h : Admitted s ch pkt) (ho : pktOp (chanPacket ch pkt) = 0x0004)
    (hz : parZero (chanPacket ch pkt) 1 1 = true) (hz' : parZero (chanPacket ch pkt) 6 2 = true)
    (hc : ∀ points most, sensorClass (par (chanPacket ch pkt) 0 1) = some (points, most) →
      par (chanPacket ch pkt) 2 2 + par (chanPacket ch pkt) 4 2 > points ∨ par (chanPacket ch pkt) 4 2 < 1 ∨ par (chanPacket ch pkt) 4 2 > most) :
    ∃ t, exec (.sensorsRead ch pkt) s = .next t ∧ Refused s t ch (chanPacket ch pkt) 0x0005 := by
  refine h.query_refused rfl ho (by decide) ?_
  simp only [hz, hz']
  rw [if_neg (by simp only [Bool.not_true, Bool.false_eq_true, or_self, not_false_eq_true])]
  cases hs : sensorClass (par (chanPacket ch pkt) 0 1) with
  | none => rfl
  | some x => exact if_pos (hc _ _ hs)

theorem Admitted.logRead (h : Admitted s ch pkt) (ho : pktOp (chanPacket ch pkt) = 0x0005) (hz : parZero (chanPacket ch pkt) 10 6 = true)
    (h1 : 1 ≤ par (chanPacket ch pkt) 8 2) (hm : par (chanPacket ch pkt) 8 2 ≤ 63) :
    ∃ t, exec (.logRead ch pkt) s = .next t ∧ Done s t ch (chanPacket ch pkt) (s.logRecord ch (chanPacket ch pkt)) ∧ OnlyReplies s t := by
  refine h.query_done rfl ho (by decide) ?_
  rw [← (s.admStart_same ch (chanPacket ch pkt)).logRecord]
  simp only [hz]
  rw [if_neg (by simp only [Bool.not_true, Bool.false_eq_true, not_false_eq_true]), if_neg (by omega)]
  rfl

theorem Admitted.logRead_refused (h : Admitted s ch pkt) (ho : pktOp (chanPacket ch pkt) = 0x0005)
    (hz : parZero (chanPacket ch pkt) 10 6 = true) (hn : par (chanPacket ch pkt) 8 2 < 1 ∨ par (chanPacket ch pkt) 8 2 > 63) :
    ∃ t, exec (.logRead ch pkt) s = .next t ∧ Refused s t ch (chanPacket ch pkt) 0x0005 := by
  refine h.query_refused rfl ho (by decide) ?_
  simp only [hz]
  rw [if_neg (by simp only [Bool.not_true, Bool.false_eq_true, not_false_eq_true]), if_pos hn]

end Replies

/-- Settles O47: each query's record, computed in the state in which the query is accepted, laid out piece by piece. -/
theorem queriesAnswer : Obligations.QueriesAnswer := by
  unfold Obligations.QueriesAnswer
  intro s ch pkt h
  refine ⟨fun ho => ?_, fun ho hz => ?_, fun ho => ?_, fun ho hz hz' => ⟨fun points most hc h1 hm hp => ?_, fun points most hc hn => ?_,
    fun hn => ?_⟩, fun ho hz => ⟨fun h1 hm => ?_, fun hn => ?_⟩, fun ho hz => ?_, fun ho hz => ?_, fun ho hz => ?_⟩
  -- IDENTIFY
  · obtain ⟨t, he, hd, hr⟩ := h.identify ho
    exact ⟨t, _, he, hd, hr, identityRecord_fields s ch⟩
  -- INVENTORY
  · obtain ⟨t, he, hd, hr⟩ := h.inventory ho hz
    obtain ⟨f0, f4, f8, f16, f17, f18, f20, f22, f28⟩ := inventoryRecord_fields s ch
    exact ⟨t, _, he, hd, hr, f0, f4, f8, inventoryRecord_length s ch, f16, f17, f18, f20, f22, fun _ => inventoryRecord_edge s ch, f28,
      fun _ => inventoryRecord_cluster s ch, fun _ => inventoryRecord_channel s ch, fun _ => inventoryRecord_link s ch⟩
  -- STATUS
  · obtain ⟨t, he, hd, hr⟩ := h.status ho
    obtain ⟨hl, f0, f2, f3, f5, f12, f4, f8, f16, f24⟩ := statusBytes_fields s (s.admStart ch (chanPacket ch pkt)).busyChannels
    have hb := s.admStart_busyChannels (chanPacket ch pkt) h.present ch.isLt
    refine ⟨t, _, he, hd, hr, hl, f0, f2, ?_, fun c hc hne => ?_, f5, f12, f4, f8, f16, f24⟩
    · have hlt : ch.val < 8 := by omega
      rw [f3, Nat.testBit_mod_two_pow, hb, if_pos rfl]
      rw [decide_eq_true hlt, Bool.and_self]
    · rw [f3, Nat.testBit_mod_two_pow, hb, if_neg hne]
      rw [decide_eq_true hc, Bool.true_and]
  -- SENSORS_READ, within its class
  · obtain ⟨t, he, hd, hr⟩ := h.sensorsRead ho hz hz' (sensorClass_of_mem hc) h1 hm hp
    obtain ⟨f0, f8, f9, f10, f12, f14⟩ := sensorsRecord_fields s (chanPacket ch pkt)
    exact ⟨t, _, he, hd, hr, f0, f8, f9, f10, f12, f14, fun _ _ hk hi hv => sensorsRecord_temp_some hk hi hv,
      fun _ hk hi hv => sensorsRecord_temp_none hk hi hv, fun _ _ hk hi hx => sensorsRecord_rail_some hk hi hx,
      fun _ hk hi hx => sensorsRecord_rail_none hk hi hx, fun _ hk hi => sensorsRecord_channel hk hi⟩
  -- SENSORS_READ of too many points, or past the last
  · refine h.sensorsRead_refused ho hz hz' fun _ _ hs => ?_
    obtain ⟨rfl, rfl⟩ := Prod.mk.inj (Option.some.inj ((sensorClass_of_mem hc).symm.trans hs))
    omega
  -- SENSORS_READ of no class, or of no point
  · refine h.sensorsRead_refused ho hz hz' fun _ _ hs => ?_
    have hc := sensorClass_le hs
    omega
  -- LOG_READ
  · obtain ⟨t, he, hd, hr⟩ := h.logRead ho hz h1 hm
    exact ⟨t, _, he, hd, hr, logRecord_fields s ch _⟩
  -- LOG_READ of no entry, or of too many
  · exact h.logRead_refused ho hz (by omega)
  -- FW_QUERY
  · obtain ⟨t, he, hd, hr⟩ := h.fwQuery ho hz
    obtain ⟨hl, f0, f1, f2, f3, a8, a9, a12, a16, a24, a25, b32, b33, b36, b40, b48, b49⟩ := queryRecord_fields s.fw
    exact ⟨t, _, he, hd, hr, hl, f0, f1, f2, f3, a8, a9, a12, a16, a24, a25, b32, b33, b36, b40, b48, b49,
      fun _ => queryRecord_sequencer s.fw⟩
  -- POWER_CAP_GET
  · obtain ⟨t, he, hd, hr⟩ := h.powerCapGet ho hz
    obtain ⟨hl, f0, f4, f8, f12, f16, f20, f24, f25, f26, f28, f40⟩ := powerCapRecord_fields s
    exact ⟨t, _, he, hd, hr, hl, f0, f4, f8, f12, f16, f20, f24, f25, f26, f28, f40, fun _ => powerCapRecord_die s⟩
  -- ENERGY_READ
  · obtain ⟨t, he, hd, hr⟩ := h.energyRead ho hz
    exact ⟨t, _, he, hd, hr, energyRecord_fields s⟩

end Sys2Proof.Claim
end

section
/-! PROOF. What accesses to memory, log entries and posted conditions leave of power (R525 to R545): none of them changes it. -/

namespace Sys2Proof.Machine

/-- A run of steps that each keep a view of the state keeps it. -/
theorem foldl_keeps {α β : Type} (g : State → β) {f : State → α → State} (hf : ∀ s a, g (f s a) = g s) (l : List α) (s : State) :
    g (l.foldl f s) = g s := by
  induction l generalizing s with
  | nil => rfl
  | cons a l ih => exact (ih _).trans (hf s a)

-- locations

@[simp] theorem State.snoopLine_power (s : State) (ch : Nat) (g : Bool) (l : Nat) : (s.snoopLine ch g l).power = s.power := by
  unfold State.snoopLine
  dsimp only
  split <;> rfl

@[simp] theorem State.snoopRange_power (s : State) (ch off n : Nat) (g : Bool) : (s.snoopRange ch off n g).power = s.power :=
  foldl_keeps State.power (fun s l => s.snoopLine_power ch g l) _ s

@[simp] theorem State.snoopRead_power (s : State) (l : Loc) (n : Nat) : (s.snoopRead l n).power = s.power := by
  cases l with
  | chan ch off => exact s.snoopRange_power ch off n false
  | host port a => rfl

@[simp] theorem State.eccRead_power (s : State) (l : Loc) (n : Nat) : (s.eccRead l n).power = s.power := by
  cases l with
  | chan ch off =>
    unfold State.eccRead
    dsimp only
    split <;> rfl
  | host port a => rfl

@[simp] theorem State.servedAt_power (s : State) (v : Via) (p : Nat) (l : Loc) (w : Bool) (n : Nat) :
    (s.servedAt v p l w n).power = s.power :=
  (congrArg State.power (s.served_only v.src p v.label (s.crossings p v.node v.src l w) n) :)

@[simp] theorem State.writeLoc_power (s : State) (l : Loc) (data mask : List Byte) (poisoned : Bool) :
    (s.writeLoc l data mask poisoned).power = s.power := by
  cases l with
  | chan ch off => exact s.snoopRange_power ch off data.length true
  | host port a => rfl

-- translation

@[simp] theorem State.pteRead_power (s : State) (v : Via) (p hpa : Nat) : (s.pteRead v p hpa).1.power = s.power := by
  unfold State.pteRead
  split
  · rfl
  · simp only [servedAt_power, eccRead_power, snoopRead_power]

@[simp] theorem State.pteWrite_power (s : State) (v : Via) (p hpa pte : Nat) : (s.pteWrite v p hpa pte).power = s.power := by
  unfold State.pteWrite
  split
  · rfl
  · simp only [servedAt_power, writeLoc_power]

@[simp] theorem State.pteUpdate_power (s : State) (v : Via) (p hpa old new : Nat) : (s.pteUpdate v p hpa old new).1.power = s.power := by
  have hr := s.pteRead_power v p hpa
  unfold State.pteUpdate
  generalize s.pteRead v p hpa = r at hr ⊢
  obtain ⟨t, _ | now⟩ := r
  · split <;> trivial
  · split
    · rfl
    · dsimp only
      split
      · exact (t.pteWrite_power v p hpa new).trans hr
      · exact hr

theorem gWalkFrom_power (v : Via) (p gpa : Nat) (w dirty : Bool) (fl i tbl : Nat) (top : Bool) (s : State) :
    (gWalkFrom v p gpa w dirty fl i tbl top s).1.power = s.power := by
  induction i generalizing tbl top s with
  | zero => rfl
  | succ i ih =>
    unfold gWalkFrom
    extract_lets idx at_
    have hr := s.pteRead_power v p at_
    generalize s.pteRead v p at_ = r at hr ⊢
    obtain ⟨t, _ | pte⟩ := r
    · exact hr
    · dsimp only
      split
      · exact hr
      · exact (ih _ _ t).trans hr
      · split
        · exact hr
        · have hu := t.pteUpdate_power v p at_ pte (pteWithAD pte dirty)
          generalize t.pteUpdate v p at_ pte (pteWithAD pte dirty) = u at hu ⊢
          obtain ⟨u, _ | _⟩ := u <;> exact hu.trans hr

@[simp] theorem State.gXlate_power (s : State) (v : Via) (p g gpa : Nat) (w dirty : Bool) (fl : Nat) :
    (s.gXlate v p g gpa w dirty fl).1.power = s.power := by
  unfold State.gXlate
  extract_lets mode width
  split
  · rfl
  · split
    · rfl
    · exact gWalkFrom_power ..

theorem s1WalkFrom_power (v : Via) (p g va : Nat) (w : Bool) (i tbl : Nat) (s : State) :
    (s1WalkFrom v p g va w i tbl s).1.power = s.power := by
  induction i generalizing tbl s with
  | zero => rfl
  | succ i ih =>
    unfold s1WalkFrom
    extract_lets gpa
    have hg := s.gXlate_power v p g gpa w false 2
    generalize s.gXlate v p g gpa w false 2 = r at hg ⊢
    obtain ⟨t, _ | ⟨at_, _⟩⟩ := r
    · exact hg
    have hr := (t.pteRead_power v p at_).trans hg
    dsimp only
    generalize t.pteRead v p at_ = r at hr ⊢
    obtain ⟨u, _ | pte⟩ := r
    · exact hr
    dsimp only
    split
    · exact hr
    · exact (ih _ u).trans hr
    split
    · exact hr
    split
    · exact hr
    have hx := (u.gXlate_power v p g gpa w true 6).trans hr
    generalize u.gXlate v p g gpa w true 6 = r at hx ⊢
    obtain ⟨x, _ | ⟨at2, _⟩⟩ := r
    · exact hx
    have hu := (x.pteUpdate_power v p at2 pte (pteWithAD pte w)).trans hx
    dsimp only
    generalize x.pteUpdate v p at2 pte (pteWithAD pte w) = r at hu ⊢
    obtain ⟨y, _ | _⟩ := r <;> exact hu

@[simp] theorem State.walkOnce_power (s : State) (v : Via) (p xs1 xg va : Nat) (w : Bool) :
    (s.walkOnce v p xs1 xg va w).1.power = s.power := by
  unfold State.walkOnce
  extract_lets mode first
  split
  · rfl
  have hf : first.1.power = s.power := by
    dsimp only [first]
    split
    · rfl
    · exact s1WalkFrom_power ..
  generalize first = r at hf ⊢
  obtain ⟨t, _ | ⟨gpa, t1⟩⟩ := r
  · exact hf
  have hg := (t.gXlate_power v p xg gpa w w 0).trans hf
  dsimp only
  generalize t.gXlate v p xg gpa w w 0 = r at hg ⊢
  obtain ⟨u, _ | _⟩ := r <;> exact hg

@[simp] theorem State.walk_power (s : State) (p xs1 xg va : Nat) (w : Bool) (v : Via) : (s.walk p xs1 xg va w v).1.power = s.power := by
  refine List.foldlRecOn (motive := fun r : State × Except XErr (Nat × Nat) => r.1.power = s.power) _ _
    (s.walkOnce_power v p xs1 xg va w) fun r hr _ _ => ?_
  obtain ⟨t, _ | _⟩ := r
  · dsimp only
    split
    · exact (t.walkOnce_power v p xs1 xg va w).trans hr
    · exact hr
  · exact hr

@[simp] theorem State.walkCached_power (s : State) (p c va : Nat) (w : Bool) (v : Via) : (s.walkCached p c va w v).1.power = s.power := by
  have hw := s.walk_power p (s.ctx p c).xs1 (s.ctx p c).xg va w v
  unfold State.walkCached
  dsimp only
  generalize s.walk p (s.ctx p c).xs1 (s.ctx p c).xg va w v = r at hw ⊢
  obtain ⟨t, _ | _⟩ := r
  · exact hw
  · dsimp only
    split <;> exact hw

@[simp] theorem State.xlate_power (s : State) (p c va : Nat) (w : Bool) (v : Via) : (s.xlate p c va w v).1.power = s.power := by
  unfold State.xlate State.fresh
  dsimp only
  split
  · next he =>
    cases he
    split
    · rfl
    · exact State.walkCached_power ..
  · exact s.walkCached_power p c va w v

@[simp] theorem State.walkGate_power (s : State) (pool p c addr : Nat) (w : Bool) : (s.walkGate pool p c addr w).1.power = s.power := by
  unfold State.walkGate
  dsimp only
  split
  · rfl
  split
  · rfl
  split
  · rfl
  split <;> rfl

-- agents

@[simp] theorem State.agentLoc_power (s : State) (p c addr : Nat) (w hub : Bool) (lab : Option Nat) :
    (s.agentLoc p c addr w hub lab).1.power = s.power := by
  unfold State.agentLoc
  dsimp only
  split
  · rfl
  split
  · rfl
  split
  · have hw := s.walkGate_power (s.agentPool p c hub) p c addr w
    generalize s.walkGate (s.agentPool p c hub) p c addr w = r at hw ⊢
    obtain ⟨t, _ | _⟩ := r
    · exact hw
    have hx := (t.xlate_power p c (addr % 2 ^ 57) w (t.agentVia p c hub lab)).trans hw
    dsimp only
    generalize t.xlate p c (addr % 2 ^ 57) w (t.agentVia p c hub lab) = r at hx ⊢
    obtain ⟨u, _ | _⟩ := r <;> exact hx
  · rfl

theorem agentWriteFrom_power (p c : Nat) (poisoned hub : Bool) (lab : Option Nat) (fuel addr : Nat) (bs : List Byte) (s : State) :
    (agentWriteFrom p c poisoned hub lab fuel addr bs s).1.power = s.power := by
  induction fuel generalizing addr bs s with
  | zero => rfl
  | succ fuel ih =>
    unfold agentWriteFrom
    split
    · rfl
    have hl := s.agentLoc_power p c addr true hub lab
    dsimp only
    generalize s.agentLoc p c addr true hub lab = r at hl ⊢
    obtain ⟨t, _ | l⟩ := r
    · exact hl
    · rw [ih, State.servedAt_power, State.writeLoc_power]
      exact hl

@[simp] theorem State.agentWrite_power (s : State) (p c addr : Nat) (bs : List Byte) (poisoned hub : Bool) (lab : Option Nat) :
    (s.agentWrite p c addr bs poisoned hub lab).1.power = s.power := agentWriteFrom_power ..

-- log entries, interrupts and posts

@[simp] theorem State.irqRaise_power (s : State) (n : Nat) : (s.irqRaise n).power = s.power := (congrArg State.power (s.irqRaise_frame n) :)

@[simp] theorem State.logEntry_power (s : State) (source sev code part kind : Nat) (data : List Byte) :
    (s.logEntry source sev code part kind data).power = s.power :=
  (congrArg State.power (s.logEntry_frame source sev code part kind data) :)

@[simp] theorem State.logCondition_power (s : State) (source sev code : Nat) (data : List Byte) :
    (s.logCondition source sev code data).power = s.power := s.logEntry_power ..

@[simp] theorem State.evqSignal_power (s : State) (p q : Nat) : (s.evqSignal p q).power = s.power :=
  foldl_keeps State.power (f := State.raise) (fun _ _ => rfl) _ s

theorem State.evqWrite_power {s t : State} {p q : Nat} {mk : Nat → Bool → List Byte} (h : s.evqWrite p q mk = some t) :
    t.power = s.power := by
  have hw := s.agentWrite_power p ((s.part p).evq q).ctx (((s.part p).evq q).ring + 32 * (((s.part p).evq q).producer % ((s.part p).evq q).entries))
    (mk ((s.part p).evq q).producer ((s.part p).evq q).lostBefore) false true (some 0)
  unfold State.evqWrite at h
  dsimp only at h
  generalize s.agentWrite p _ _ _ false true (some 0) = r at hw h
  obtain ⟨u, _ | _⟩ := r
  · cases h
  · obtain rfl := Option.some.inj h
    split
    · exact (State.evqSignal_power _ p q).trans hw
    · exact hw

/-- A record that finds no room in its ring is held on the hub, or lost. -/
def State.holdRecord (s : State) (p : Nat) (r : EvRecord) : State :=
  if (s.part p).held.length < 64 then
    let s := s.updPart p (fun x => { x with held := x.held ++ [r] })
    if (s.part p).held.length = 63 then s.irqRaise 15 else s
  else s.evqLose p r.evq

@[simp] theorem State.holdRecord_power (s : State) (p : Nat) (r : EvRecord) : (s.holdRecord p r).power = s.power := by
  unfold State.holdRecord
  dsimp only
  split
  · split
    · exact State.irqRaise_power _ 15
    · rfl
  · rfl

@[simp] theorem State.post_power (s : State) (p : Nat) (r : EvRecord) : (s.post p r).power = s.power := by
  unfold State.post
  extract_lets u e hold
  have hu : u.power = s.power := by
    dsimp only [u]
    split
    · rfl
    · exact s.logEntry_power ..
  have hh : (hold u).power = s.power := (u.holdRecord_power p r).trans hu
  split
  · exact hu
  split
  · exact hu
  split
  · exact hh
  split
  · next he => exact (State.evqWrite_power he).trans hu
  · exact hh

@[simp] theorem State.notice_power (s : State) (p evq code ctx : Nat) (data : List Byte) : (s.notice p evq code ctx data).power = s.power :=
  s.post_power p _

@[simp] theorem State.peqPost_power (s : State) (port code : Nat) (data : List Byte) : (s.peqPost port code data).power = s.power := by
  unfold State.peqPost
  dsimp only
  split
  · rfl
  split
  · rfl
  split
  · exact State.writeLoc_power ..
  · exact State.writeLoc_power ..

@[simp] theorem State.pmPost_power (s : State) (code : Nat) (data : List Byte) : (s.pmPost code data).power = s.power := by
  unfold State.pmPost
  dsimp only
  rw [foldl_keeps State.power (fun s i => s.peqPost_power i code data)]
  split
  · rfl
  · exact s.logCondition_power ..

@[simp] theorem State.tellCapUnmet_power (s : State) : s.tellCapUnmet.power = s.power := by
  unfold State.tellCapUnmet
  rw [irqRaise_power, pmPost_power, foldl_keeps State.power (fun s p => s.notice_power p 0 0x8501 0xFFFF _)]

end Sys2Proof.Machine
end

section
/-! PROOF. How a pass over the clusters, the steering of the clusters towards their operating points (R526 to R528) and a thermal round (R534,
R535) act, cluster by cluster. -/

namespace Sys2Proof.Machine

-- tables and ranges

theorem tabGet_eq_tabFind {α : Type} (d : α) (t : Tab α) (i : Nat) : tabGet d t i = (tabFind t i).getD d := by
  induction t with
  | nil => rfl
  | cons e t ih =>
    obtain ⟨k, v⟩ := e
    simp only [tabGet, tabFind]
    split
    · rfl
    · split
      · rfl
      · exact ih

/-- A table filled over a range. -/
theorem tabFind_range {α : Type} (f : Nat → α) (a n i : Nat) :
    tabFind ((natRange a n).map (fun j => (j, f j))) i = if a ≤ i ∧ i < a + n then some (f i) else none := by
  induction n generalizing a with
  | zero => exact (if_neg (by omega)).symm
  | succ n ih =>
    rw [natRange, List.map_cons, tabFind, ih]
    by_cases h : a = i
    · rw [if_pos h, if_pos (by omega), h]
    · rw [if_neg h]
      split
      · rw [if_neg (by omega)]
      · by_cases hi : i < a + (n + 1)
        · rw [if_pos (by omega), if_pos (by omega)]
        · rw [if_neg (by omega), if_neg (by omega)]

theorem tabGet_range {α : Type} (d : α) (f : Nat → α) {n i : Nat} (hi : i < n) :
    tabGet d ((natRange 0 n).map (fun j => (j, f j))) i = f i := by
  rw [tabGet_eq_tabFind, tabFind_range, if_pos (by omega)]
  rfl

theorem mem_natRange {a n i : Nat} : i ∈ natRange a n ↔ a ≤ i ∧ i < a + n := by
  induction n generalizing a with
  | zero => exact iff_of_false List.not_mem_nil (by omega)
  | succ n ih =>
    rw [natRange, List.mem_cons, ih]
    omega

-- passes over the clusters

/-- Nothing differs but clusters. -/
def SameButClusters (s t : State) : Prop := { t with clusters := s.clusters } = s

theorem SameButClusters.trans {s t u : State} (h : SameButClusters s t) (g : SameButClusters t u) : SameButClusters s u :=
  (congrArg (fun x : State => { x with clusters := s.clusters }) g :).trans h

/-- A step that leaves cluster `i` as `g` says, which reads no other cluster, and changes nothing else. -/
structure ClusterStep (f : State → Nat → State) (g : State → Nat → ClusterSt) : Prop where
  frame : ∀ s i, SameButClusters s (f s i)
  same : ∀ s i, (f s i).cl i = g s i
  other : ∀ s i j, j ≠ i → (f s i).cl j = s.cl j
  reads : ∀ s t i, SameButClusters s t → t.cl i = s.cl i → g t i = g s i

theorem ClusterStep.foldl_frame {f : State → Nat → State} {g : State → Nat → ClusterSt} (h : ClusterStep f g) (l : List Nat) (s : State) :
    SameButClusters s (l.foldl f s) := by
  induction l generalizing s with
  | nil => rfl
  | cons i l ih => exact (h.frame s i).trans (ih _)

/-- A pass leaves the clusters outside its range. -/
theorem ClusterStep.foldl_other {f : State → Nat → State} {g : State → Nat → ClusterSt} (h : ClusterStep f g) {a n j : Nat}
    (hj : j < a ∨ a + n ≤ j) (s : State) : ((natRange a n).foldl f s).cl j = s.cl j := by
  induction n generalizing a s with
  | zero => rfl
  | succ n ih => exact (ih (by omega) _).trans (h.other s a j (by omega))

/-- A pass leaves each cluster of its range as the step at it, from the state before the pass. -/
theorem ClusterStep.foldl_cl {f : State → Nat → State} {g : State → Nat → ClusterSt} (h : ClusterStep f g) {a n j : Nat}
    (ha : a ≤ j) (hn : j < a + n) (s : State) : ((natRange a n).foldl f s).cl j = g s j := by
  induction n generalizing a s with
  | zero => omega
  | succ n ih =>
    rw [natRange, List.foldl_cons]
    by_cases hj : j = a
    · subst hj
      rw [h.foldl_other (by omega), h.same]
    · rw [ih (by omega) (by omega), h.reads s _ j (h.frame s a) (h.other s a j hj)]

/-- A step that changes the clusters of which a condition holds. -/
theorem ClusterStep.ite {p : State → Nat → Bool} (u : ClusterSt → ClusterSt)
    (hp : ∀ s t i, SameButClusters s t → t.cl i = s.cl i → p t i = p s i) :
    ClusterStep (fun s i => if p s i then s.updCl i u else s) (fun s i => if p s i then u (s.cl i) else s.cl i) where
  frame s i := by
    cases p s i <;> rfl
  same s i := by
    cases p s i
    · rfl
    · exact s.cl_updCl_same i u
  other s i j hj := by
    cases p s i
    · rfl
    · exact s.cl_updCl_other i j u hj
  reads s t i hs hc := by rw [hp s t i hs hc, hc]

-- steering (R526 to R528)

theorem State.wantedOp_congr {s t : State} {i : Nat} (h : SameButClusters s t) (hc : t.cl i = s.cl i) : t.wantedOp i = s.wantedOp i := by
  have hp : t.power = s.power := (congrArg State.power h :)
  have hm : t.maxOp i = s.maxOp i := (congrArg (State.maxOp · i) h :)
  rw [State.wantedOp, State.wantedOp, hc, hp, hm]

/-- A cluster once steered: at least as slow as it is to be, and waiting for its rail where it is to be faster (R527). -/
def State.steered (s : State) (i : Nat) : ClusterSt :=
  { s.cl i with op := max (s.cl i).op (s.wantedOp i), gap := s.wantedGap i,
                pendingOp := if s.wantedOp i < (s.cl i).op then some (s.wantedOp i) else none }

/-- Steering one cluster puts it where it is to be, or finds it there. -/
theorem State.steerCluster_eq (s : State) (i : Nat) :
    s.steerCluster i = s ∧ s.cl i = s.steered i ∨ s.steerCluster i = s.setCl i (s.steered i) := by
  unfold State.steerCluster
  extract_lets op gap c pend
  split
  · next h =>
    obtain ⟨ho, hg, hp⟩ := h
    refine .inl ⟨rfl, ?_⟩
    calc s.cl i = { c with op := c.op, gap := c.gap, pendingOp := c.pendingOp } := rfl
      _ = { c with op := max c.op op, gap := gap, pendingOp := pend } := by rw [← hp, ← hg, ← ho]
  · exact .inr rfl

theorem steerCluster_step : ClusterStep State.steerCluster State.steered where
  frame s i := by
    obtain ⟨h, _⟩ | h := s.steerCluster_eq i <;> rw [h] <;> rfl
  same s i := by
    obtain ⟨h, hc⟩ | h := s.steerCluster_eq i <;> rw [h]
    · exact hc
    · exact tabGet_tabSet_same ..
  other s i j hj := by
    obtain ⟨h, _⟩ | h := s.steerCluster_eq i <;> rw [h]
    exact tabGet_tabSet_other _ _ _ _ _ hj
  reads s t i hs hc := by
    have hp : t.power = s.power := (congrArg State.power hs :)
    rw [State.steered, State.steered, State.wantedGap, State.wantedGap, State.wantedOp_congr hs hc, hc, hp]

/-- Every cluster steered, before the rails follow. -/
def State.steerClusters (s : State) : State := (natRange 0 192).foldl State.steerCluster s

theorem State.steerClusters_same (s : State) : SameButClusters s s.steerClusters := steerCluster_step.foldl_frame (natRange 0 192) s

/-- R528: the rail of each die follows what its clusters need. -/
def State.setRails (s : State) : State :=
  { s with power := { s.power with rails := (natRange 0 4).foldl (fun r d => tabSet r d (s.railVolts d)) s.power.rails } }

theorem State.setRails_cl (s : State) (i : Nat) : s.setRails.cl i = s.cl i := rfl

theorem State.steer_eq (s : State) : s.steer = s.steerClusters.setRails := by
  unfold State.steer State.steerClusters State.setRails
  extract_lets u
  with_reducible rfl

/-- Steering changes nothing but clusters and power. -/
theorem State.steer_frame (s : State) : { s.steer with clusters := s.clusters, power := s.power } = s := by
  have h := s.steerClusters_same
  rw [State.steer_eq]
  generalize s.steerClusters = u at h ⊢
  exact (congrArg (fun t : State => { t with power := s.power }) h :)

/-- Of power it sets the die rails alone. -/
theorem State.steer_power (s : State) : { s.steer.power with rails := s.power.rails } = s.power := by
  have h := s.steerClusters_same
  rw [State.steer_eq]
  generalize s.steerClusters = u at h ⊢
  exact (congrArg (fun t : State => { t.power with rails := s.power.rails }) h :)

theorem State.steer_cl (s : State) {i : Nat} (hi : i < 192) : s.steer.cl i = s.steered i := by
  rw [State.steer_eq, State.setRails_cl, State.steerClusters, steerCluster_step.foldl_cl (Nat.zero_le i) (by omega)]

theorem State.steer_thermal (s : State) {i : Nat} (hi : i < 192) : (s.steer.cl i).thermal = (s.cl i).thermal := by
  rw [s.steer_cl hi]
  rfl

theorem State.maxOp_congr {s t : State} (hf : t.fuses = s.fuses) (hm : t.power.freqMode = s.power.freqMode)
    (hv : t.power.vtrim = s.power.vtrim) (i : Nat) : t.maxOp i = s.maxOp i := by
  unfold State.maxOp PowerSt.dieOp PowerSt.trim
  rw [hf, hm, hv]

/-- Steering does not move what it steers towards. -/
theorem State.steer_wantedOp (s : State) {i : Nat} (hi : i < 192) : s.steer.wantedOp i = s.wantedOp i := by
  have hf := s.steer_frame
  have hp := s.steer_power
  have ht := s.steer_thermal hi
  generalize s.steer = t at hf hp ht ⊢
  have hu : t.fuses = s.fuses := (congrArg State.fuses hf :)
  have hm : t.power.freqMode = s.power.freqMode := (congrArg PowerSt.freqMode hp :)
  have hv : t.power.vtrim = s.power.vtrim := (congrArg PowerSt.vtrim hp :)
  have hl : t.power.level = s.power.level := (congrArg PowerSt.level hp :)
  rw [State.wantedOp, State.wantedOp, ht, hl, State.maxOp_congr hu hm hv]

/-- R526: a steered cluster runs no faster than its limits allow. -/
theorem State.wantedOp_le_op_steer (s : State) {i : Nat} (hi : i < 192) : s.steer.wantedOp i ≤ (s.steer.cl i).op := by
  rw [s.steer_wantedOp hi, s.steer_cl hi]
  exact Nat.le_max_right ..

/-- R527: the rail has settled, and a cluster that waits for it takes its OP. -/
def ClusterSt.takeOp (c : ClusterSt) : ClusterSt :=
  match c.pendingOp with
  | some op => { c with op := op, pendingOp := none }
  | none => c

/-- RAIL_SETTLED at one cluster. -/
def State.takeOpAt (s : State) (i : Nat) : State :=
  match (s.cl i).pendingOp with
  | some op => s.updCl i (fun c => { c with op := op, pendingOp := none })
  | none => s

theorem takeOpAt_step : ClusterStep State.takeOpAt (fun s i => (s.cl i).takeOp) where
  frame s i := by
    unfold State.takeOpAt
    split <;> rfl
  same s i := by
    unfold State.takeOpAt ClusterSt.takeOp
    split
    · exact s.cl_updCl_same i _
    · rfl
  other s i j hj := by
    unfold State.takeOpAt
    split
    · exact s.cl_updCl_other i j _ hj
    · rfl
  reads s t i _ hc := congrArg ClusterSt.takeOp hc

-- temperature (R534, R535)

/-- Some point of a list reads at or above a temperature. -/
theorem State.anyHot_of_reading {s : State} {ps : List Nat} {n : Nat} {deg x : Int} (hn : n ∈ ps) (hs : s.sampled n = true)
    (hr : s.reading n = some x) (hx : deg * 64 ≤ x) : s.anyHot ps deg = true := by
  refine List.any_eq_true.mpr ⟨n, hn, ?_⟩
  simp only [hs, State.tempOf, hr, hx, decide_true, Bool.and_self]

/-- A cluster's own points govern it. -/
theorem mem_clusterPoints (n : Nat) : n ∈ clusterPoints (n / 4) := by
  simp only [clusterPoints, List.mem_append, mem_natRange]
  omega

theorem State.anyHot_congr {s t : State} (h : SameButClusters s t) (ps : List Nat) (deg : Int) : t.anyHot ps deg = s.anyHot ps deg :=
  (congrArg (State.anyHot · ps deg) h :)

/-- R534: the clusters that a point at or above 110 degrees governs go to OP7 with gaps. -/
def State.heatAt (s : State) (i : Nat) : State :=
  if s.anyHot (clusterPoints i) 110 then s.updCl i (fun c => { c with thermal := 8 }) else s

theorem heatAt_step :
    ClusterStep State.heatAt (fun s i => if s.anyHot (clusterPoints i) 110 then { s.cl i with thermal := 8 } else s.cl i) :=
  .ite (p := fun s i => s.anyHot (clusterPoints i) 110) _ fun _ _ i hs _ => State.anyHot_congr hs (clusterPoints i) 110

/-- R534: a cluster steps down where a governing point is at or above 100 degrees. -/
def State.stepDownAt (s : State) (i : Nat) : State :=
  if s.anyHot (clusterPoints i) 100 && decide ((s.cl i).thermal < 7) then s.updCl i (fun c => { c with thermal := c.thermal + 1 }) else s

theorem stepDownAt_step : ClusterStep State.stepDownAt (fun s i =>
    if s.anyHot (clusterPoints i) 100 && decide ((s.cl i).thermal < 7) then { s.cl i with thermal := (s.cl i).thermal + 1 } else s.cl i) :=
  .ite (p := fun s i => s.anyHot (clusterPoints i) 100 && decide ((s.cl i).thermal < 7)) (fun c => { c with thermal := c.thermal + 1 })
    fun s t i hs hc => by rw [State.anyHot_congr hs, hc]

/-- R535: a cluster steps back once every governing point is below 97 degrees. -/
def State.stepBackAt (s : State) (i : Nat) : State :=
  if decide (0 < (s.cl i).thermal) && s.allCool (clusterPoints i) 97 then s.updCl i (fun c => { c with thermal := c.thermal - 1 }) else s

theorem stepBackAt_step : ClusterStep State.stepBackAt (fun s i =>
    if decide (0 < (s.cl i).thermal) && s.allCool (clusterPoints i) 97 then { s.cl i with thermal := (s.cl i).thermal - 1 } else s.cl i) :=
  .ite (p := fun s i => decide (0 < (s.cl i).thermal) && s.allCool (clusterPoints i) 97) (fun c => { c with thermal := c.thermal - 1 })
    fun s t i hs hc => by rw [State.allCool, State.allCool, State.anyHot_congr hs, hc]

/-- The state but for its channels. -/
def State.noChannels (s : State) : State := { s with channels := [] }

theorem State.cl_of_noChannels {s t : State} (h : t.noChannels = s.noChannels) (i : Nat) : t.cl i = s.cl i := (congrArg (State.cl · i) h :)

/-- R534: a stack at or above 110 degrees is limited to a quarter of its rate, and one at or above 100 to half. -/
def State.limitStack (s : State) (n : Nat) : State :=
  let lim := if s.anyHot [960 + n] 110 then 2 else if s.anyHot [960 + n] 100 then 1 else 0
  if lim = 0 then s
  else (stackChannels n).foldl (fun s ch => s.updChan ch (fun c => { c with rateLimit := max c.rateLimit lim })) s

theorem State.limitStack_noChannels (s : State) (n : Nat) : (s.limitStack n).noChannels = s.noChannels := by
  unfold State.limitStack
  extract_lets lim
  split
  · rfl
  · generalize stackChannels n = l
    exact foldl_keeps State.noChannels (f := fun s ch => s.updChan ch (fun c => { c with rateLimit := max c.rateLimit lim })) (fun _ _ => rfl) l s

/-- R535: a stack that reads below 97 degrees has its limit lifted one level. -/
def State.freeStack (s : State) (n : Nat) : State :=
  if s.allCool [960 + n] 97 then
    (stackChannels n).foldl (fun s ch => if (s.chan ch).rateLimit = 0 then s
      else s.updChan ch (fun c => { c with rateLimit := c.rateLimit - 1 })) s
  else s

theorem State.freeStack_noChannels (s : State) (n : Nat) : (s.freeStack n).noChannels = s.noChannels := by
  unfold State.freeStack
  split
  · generalize stackChannels n = l
    exact foldl_keeps State.noChannels (fun s ch => by split <;> rfl) l s
  · rfl

theorem State.thermalRound_eq (s : State) : s.thermalRound = (natRange 0 20).foldl State.limitStack ((natRange 0 192).foldl State.heatAt s) := rfl

/-- A thermal round changes nothing but clusters and channels. -/
theorem State.thermalRound_frame (s : State) : { s.thermalRound with clusters := s.clusters, channels := s.channels } = s := by
  have h := heatAt_step.foldl_frame (natRange 0 192) s
  rw [State.thermalRound_eq]
  generalize (natRange 0 192).foldl State.heatAt s = u at h ⊢
  have hn := foldl_keeps State.noChannels State.limitStack_noChannels (natRange 0 20) u
  generalize (natRange 0 20).foldl State.limitStack u = t at hn ⊢
  exact (congrArg (fun t : State => { t with clusters := s.clusters, channels := s.channels }) hn :).trans
    (congrArg (fun t : State => { t with channels := s.channels }) h :)

/-- R534: a cluster with a governing point at or above 110 degrees goes to OP7 with gaps. -/
theorem State.thermalRound_hot {s : State} {i : Nat} (hi : i < 192) (h : s.anyHot (clusterPoints i) 110 = true) :
    (s.thermalRound.cl i).thermal = 8 := by
  rw [State.thermalRound_eq, State.cl_of_noChannels (foldl_keeps State.noChannels State.limitStack_noChannels (natRange 0 20) _),
    heatAt_step.foldl_cl (Nat.zero_le i) (by omega), if_pos h]

end Sys2Proof.Machine
end

section
/-! PROOF. The rules of power and temperature, each from the operation that states it: POWER_CAP_SET (R538, R539), the power loop (R541, R544),
samples (R530, R545), VTRIM (R531), rails (R527, R528), sensor rounds (R499, R534) and thermal steps (R534, R535). -/

namespace Sys2Proof.Machine

-- what the part does by itself, while it runs

theorem next_whileUp_up {s : State} (h : s.hubRuns = true) (f : State → State) :
    (.next (s.whileUp f) : Host.Outcome State Fault Refusal) = .next (f s) := congrArg Host.Outcome.next (if_pos h)

theorem next_whileUp_down {s : State} (h : s.hubRuns = false) (f : State → State) :
    (.next (s.whileUp f) : Host.Outcome State Fault Refusal) = .next s :=
  congrArg Host.Outcome.next (if_neg (by rw [h]; exact Bool.false_ne_true))

-- reports

/-- The state but for its log, and for what waits at management's interrupt controller. -/
def State.noReports (s : State) : State := { s with log := {}, irq := { cfg := s.irq.cfg } }

theorem State.noReports_eq {s t : State} (h : { t with log := s.log, irq := s.irq } = s) (hc : t.irq.cfg = s.irq.cfg) :
    t.noReports = s.noReports := by
  have hn := congrArg (fun u : State => { u with log := {}, irq := { cfg := t.irq.cfg } }) h
  rw [hc] at hn
  rw [State.noReports, hc]
  exact hn

@[simp] theorem State.irqRaise_cfg (s : State) (n : Nat) : (s.irqRaise n).irq.cfg = s.irq.cfg := by
  unfold State.irqRaise
  dsimp only
  split
  · rfl
  split
  · rfl
  split <;> rfl

theorem State.logEntry_cfg (s : State) (source sev code part kind : Nat) (data : List Byte) :
    (s.logEntry source sev code part kind data).irq.cfg = s.irq.cfg := by
  unfold State.logEntry
  dsimp only
  split
  · rfl
  split
  · rw [State.irqRaise_cfg]
  · rfl

theorem State.irqRaise_noReports (s : State) (n : Nat) : (s.irqRaise n).noReports = s.noReports :=
  State.noReports_eq (congrArg (fun t : State => { t with log := s.log }) (s.irqRaise_frame n) :) (s.irqRaise_cfg n)

theorem State.logCondition_noReports (s : State) (source sev code : Nat) (data : List Byte) :
    (s.logCondition source sev code data).noReports = s.noReports :=
  State.noReports_eq (s.logEntry_frame ..) (s.logEntry_cfg ..)

-- the power loop (R541, R544)

/-- Trust moves nothing but its own flags and counts. -/
theorem PowerSt.trust_frame (w : PowerSt) (m : Nat) : { w.trust m with
    implausible := w.implausible, untrusted := w.untrusted, differ := w.differ, agree := w.agree, sane := w.sane } = w := by
  unfold PowerSt.trust
  dsimp only
  split
  · rfl
  split
  · rfl
  split <;> rfl

/-- R544: a plausible measurement under a trusted estimate, which keeps its trust for now. -/
theorem PowerSt.trust_plausible {w : PowerSt} {m : Nat} (hm : 5000 ≤ m) (hi : w.implausible = false) (hu : w.untrusted = false)
    (hd : w.differ < 999) : (w.trust m).implausible = false ∧ (w.trust m).untrusted = false := by
  unfold PowerSt.trust
  simp only [if_neg (Nat.not_lt.mpr hm), hi, hu, Bool.false_and, Bool.false_eq_true, if_false, true_and, decide_eq_false_iff_not]
  split <;> omega

theorem PowerSt.trust_implausible {w : PowerSt} {m : Nat} (hm : m < 5000) : (w.trust m).implausible = true := by
  rw [PowerSt.trust, if_pos hm]

/-- A step of the loop moves nothing but the level and its count. -/
theorem PowerSt.stepLevel_frame (w : PowerSt) : { w.stepLevel with level := w.level, under := w.under } = w := by
  unfold PowerSt.stepLevel
  dsimp only
  split
  · rfl
  split
  · split <;> rfl
  · rfl

/-- What the loop controls against (R541), times 100. -/
def PowerSt.target (w : PowerSt) : Nat := w.effective * 10 * (100 - w.controlled.2)

theorem PowerSt.stepLevel_over {w : PowerSt} (h : w.target < w.controlled.1 * 100) :
    w.stepLevel = { w with level := min 22 (w.level + 1), under := 0 } := if_pos h

theorem PowerSt.stepLevel_within {w : PowerSt} (h : w.controlled.1 * 100 ≤ w.target) (hu : w.target * 95 ≤ w.controlled.1 * 10000) :
    w.stepLevel = { w with under := 0 } := (if_neg (Nat.not_lt.mpr h)).trans (if_neg (Nat.not_lt.mpr hu))

theorem PowerSt.stepLevel_under {w : PowerSt} (h : w.controlled.1 * 10000 < w.target * 95) :
    w.stepLevel = if 100 ≤ w.under + 1 then { w with level := w.level - 1, under := 0 } else { w with under := w.under + 1 } :=
  (if_neg (by unfold PowerSt.target at h; omega)).trans (if_pos h)

/-- R541: the level stays within 0 to 22. -/
theorem PowerSt.stepLevel_le {w : PowerSt} (h : w.level ≤ 22) : w.stepLevel.level ≤ 22 := by
  by_cases ho : w.target < w.controlled.1 * 100
  · rw [PowerSt.stepLevel_over ho]
    exact Nat.min_le_left ..
  by_cases hu : w.controlled.1 * 10000 < w.target * 95
  · rw [PowerSt.stepLevel_under hu]
    split
    · exact Nat.le_trans (Nat.sub_le ..) h
    · exact h
  · rw [PowerSt.stepLevel_within (Nat.not_lt.mp ho) (Nat.not_lt.mp hu)]
    exact h

/-- The power's state with the interval's estimate and the trust after it. -/
def PowerSt.judge (w : PowerSt) (estimate : Nat) : PowerSt :=
  let w := { w with estimate := estimate }
  match w.window.getLast? with
  | some m => w.trust m
  | none => w

theorem PowerSt.judge_some {w : PowerSt} {m : Nat} (h : w.window.getLast? = some m) (estimate : Nat) :
    w.judge estimate = { w with estimate := estimate }.trust m := by
  simp only [PowerSt.judge, h]

/-- R543: whether the cap is met, after an interval that began at a level. -/
def PowerSt.checkCap (w : PowerSt) (level : Nat) : PowerSt :=
  let short := decide (level = 22) && decide (w.level = 22) && decide (w.effective * 10 < w.judged)
  let cnt := if short then w.capOver + 1 else 0
  { w with capOver := cnt, capUnmet := decide (w.effective * 10 < w.judged) && (w.capUnmet || decide (100 ≤ cnt)) }

/-- One interval of the loop. -/
def PowerSt.loopStep (w : PowerSt) (estimate : Nat) : PowerSt := (w.judge estimate).stepLevel.checkCap w.level

/-- Whether or not the clusters are steered, of power only the rails may differ. -/
theorem State.steer_unless_power (s : State) (p : Prop) [Decidable p] :
    ∃ r, (if p then s else s.steer).power = { s.power with rails := r } := by
  have h := s.steer_power
  generalize s.steer = t at h ⊢
  split
  · exact ⟨s.power.rails, rfl⟩
  · exact ⟨t.power.rails, (congrArg (fun w : PowerSt => { w with rails := t.power.rails }) h :)⟩

/-- The loop's step in the state: what it reports leaves power, and what it steers sets the rails alone. -/
theorem State.powerStep_power (s : State) (estimate : Nat) :
    ∃ r, (s.powerStep estimate).power = { s.power.loopStep estimate with rails := r } := by
  unfold State.powerStep
  extract_lets old w₁ w₂ w₃ short cnt w₄ u₁ u₂ u₃ u₄
  have h₂ : u₂.power = w₄ := by
    dsimp only [u₂]
    split
    · rw [State.irqRaise_power, State.logCondition_power]
    · rfl
  have h₃ : u₃.power = w₄ := by
    dsimp only [u₃]
    split
    · rw [State.irqRaise_power, State.logCondition_power, h₂]
    · exact h₂
  have h₄ : u₄.power = w₄ := by
    dsimp only [u₄]
    split
    · rw [State.tellCapUnmet_power, h₃]
    · exact h₃
  have hw : w₄ = s.power.loopStep estimate := by
    have hj : w₂ = s.power.judge estimate := rfl
    calc w₄ = w₃.checkCap s.power.level := rfl
      _ = s.power.loopStep estimate := congrArg (fun w : PowerSt => w.stepLevel.checkCap s.power.level) hj
  obtain ⟨r, hr⟩ := u₄.steer_unless_power (w₄.level = old.level)
  exact ⟨r, by rw [hr, h₄, hw]⟩

/-- What a judgement keeps. -/
theorem PowerSt.judge_frame (w : PowerSt) (estimate : Nat) : { w.judge estimate with
    implausible := w.implausible, untrusted := w.untrusted, differ := w.differ, agree := w.agree, sane := w.sane } =
      { w with estimate := estimate } := by
  unfold PowerSt.judge
  dsimp only
  split
  · exact PowerSt.trust_frame _ _
  · rfl

theorem PowerSt.loopStep_controlled (w : PowerSt) (estimate : Nat) : (w.loopStep estimate).controlled = (w.judge estimate).controlled :=
  (congrArg PowerSt.controlled (w.judge estimate).stepLevel_frame :)

theorem PowerSt.loopStep_effective (w : PowerSt) (estimate : Nat) : (w.loopStep estimate).effective = (w.judge estimate).effective :=
  (congrArg PowerSt.effective (w.judge estimate).stepLevel_frame :)

theorem PowerSt.loopStep_estimate (w : PowerSt) (estimate : Nat) : (w.loopStep estimate).estimate = estimate :=
  (congrArg PowerSt.estimate (w.judge estimate).stepLevel_frame :).trans (congrArg PowerSt.estimate (w.judge_frame estimate) :)

theorem PowerSt.loopStep_le {w : PowerSt} (h : w.level ≤ 22) (estimate : Nat) : (w.loopStep estimate).level ≤ 22 :=
  PowerSt.stepLevel_le (Nat.le_trans (Nat.le_of_eq (congrArg PowerSt.level (w.judge_frame estimate) :)) h)

/-- R541: how an interval moves the level, by where the controlled power lies. -/
theorem PowerSt.loopStep_level (w : PowerSt) (estimate : Nat) :
    let n := w.loopStep estimate
    let target := n.effective * (100 - n.controlled.2) * 10
    (target < n.controlled.1 * 100 → n.level = min 22 (w.level + 1) ∧ n.under = 0) ∧
    (n.controlled.1 * 100 ≤ target → target * 95 ≤ n.controlled.1 * 10000 → n.level = w.level ∧ n.under = 0) ∧
    (n.controlled.1 * 10000 < target * 95 → w.under + 1 < 100 → n.level = w.level ∧ n.under = w.under + 1) ∧
    (n.controlled.1 * 10000 < target * 95 → 100 ≤ w.under + 1 → n.level = w.level - 1 ∧ n.under = 0) := by
  have hl : (w.judge estimate).level = w.level := (congrArg PowerSt.level (w.judge_frame estimate) :)
  have hu : (w.judge estimate).under = w.under := (congrArg PowerSt.under (w.judge_frame estimate) :)
  have hn : (w.loopStep estimate).level = (w.judge estimate).stepLevel.level := rfl
  have hm : (w.loopStep estimate).under = (w.judge estimate).stepLevel.under := rfl
  dsimp only
  rw [PowerSt.loopStep_controlled, PowerSt.loopStep_effective, Nat.mul_right_comm, hn, hm, ← hl, ← hu]
  generalize w.judge estimate = j
  refine ⟨fun h => ?_, fun h h' => ?_, fun h h' => ?_, fun h h' => ?_⟩
  · rw [PowerSt.stepLevel_over h]
    exact ⟨rfl, rfl⟩
  · rw [PowerSt.stepLevel_within h h']
    exact ⟨rfl, rfl⟩
  · rw [PowerSt.stepLevel_under h, if_neg (Nat.not_le.mpr h')]
    exact ⟨rfl, rfl⟩
  · rw [PowerSt.stepLevel_under h, if_pos h']
    exact ⟨rfl, rfl⟩

/-- R544: a plausible measurement and a trusted estimate. -/
theorem PowerSt.loopStep_plausible {w : PowerSt} {m : Nat} (hw : w.window.getLast? = some m) (hm : 5000 ≤ m) (hi : w.implausible = false)
    (hu : w.untrusted = false) (hd : w.differ < 999) (estimate : Nat) : (w.loopStep estimate).controlled = (max estimate m, 3) := by
  have hf := w.judge_frame estimate
  rw [PowerSt.loopStep_controlled, PowerSt.judge_some hw] at *
  obtain ⟨hj, ht⟩ := PowerSt.trust_plausible (w := { w with estimate := estimate }) hm hi hu hd
  generalize PowerSt.trust _ m = j at hf hj ht ⊢
  have he : j.estimate = estimate := (congrArg PowerSt.estimate hf :)
  have hl : j.window = w.window := (congrArg PowerSt.window hf :)
  simp only [PowerSt.controlled, hl, hw, hj, ht, he, Bool.false_eq_true, if_false]

/-- R544: a measurement below the idle floor. -/
theorem PowerSt.loopStep_implausible {w : PowerSt} {m : Nat} (hw : w.window.getLast? = some m) (hm : m < 5000) (estimate : Nat) :
    (w.loopStep estimate).implausible = true ∧ (w.loopStep estimate).controlled = (estimate * 115 / 100, 10) := by
  have hf := w.judge_frame estimate
  have hi : (w.loopStep estimate).implausible = (w.judge estimate).implausible :=
    (congrArg PowerSt.implausible (w.judge estimate).stepLevel_frame :)
  rw [hi, PowerSt.loopStep_controlled]
  rw [PowerSt.judge_some hw] at hf ⊢
  have hj := PowerSt.trust_implausible (w := { w with estimate := estimate }) hm
  generalize PowerSt.trust _ m = j at hf hj ⊢
  have he : j.estimate = estimate := (congrArg PowerSt.estimate hf :)
  have hl : j.window = w.window := (congrArg PowerSt.window hf :)
  exact ⟨hj, by simp only [PowerSt.controlled, PowerSt.substitute, hl, hw, hj, he, if_true]⟩

-- samples (R530, R545)

/-- The input power that a sample of the rails measures. -/
def inputPower (rails : List RailReading) : Nat := match rails[11]? with | some r => r.power | none => 0

/-- The latest interval stands last in the window. -/
theorem window_getLast? (win : List Nat) (p : Nat) : ((win ++ [p]).drop ((win ++ [p]).length - 100)).getLast? = some p := by
  have hl : ¬ (win ++ [p]).length ≤ (win ++ [p]).length - 100 := by
    rw [List.length_append, List.length_singleton]
    omega
  rw [List.getLast?_drop, if_neg hl, List.getLast?_concat]

theorem State.railSample_power (s : State) (rails : List RailReading) :
    (s.railSample rails).power.energyUj = s.power.energyUj + (if s.power.implausible then s.power.substitute else inputPower rails) ∧
      (s.railSample rails).power.window.getLast? = some (inputPower rails) := ⟨rfl, window_getLast? ..⟩

-- VTRIM (R531)

/-- One step of VTRIM towards what is wanted. -/
def moveTrim (v w : Int) : Int := max (-12) (min 6 (if v < w then v + 1 else if w < v then v - 1 else v))

theorem moveTrim_eq {v : Int} (w : Int) (hl : -12 ≤ v) (hu : v ≤ 6) :
    moveTrim v w = if v < w ∧ v < 6 then v + 1 else if w < v ∧ -12 < v then v - 1 else v := by
  unfold moveTrim
  by_cases hup : v < w
  · rw [if_pos hup]
    by_cases h6 : v < 6
    · rw [if_pos ⟨hup, h6⟩]
      omega
    · rw [if_neg (by omega), if_neg (by omega)]
      omega
  · have hno : ¬ (v < w ∧ v < 6) := fun h => hup h.1
    rw [if_neg hup, if_neg hno]
    by_cases hdown : w < v
    · rw [if_pos hdown]
      by_cases h12 : -12 < v
      · rw [if_pos ⟨hdown, h12⟩]
        omega
      · rw [if_neg (by omega)]
        omega
    · have hno : ¬ (w < v ∧ -12 < v) := fun h => hdown h.1
      rw [if_neg hdown, if_neg hno]
      omega

/-- The dies' VTRIMs after a step. -/
def PowerSt.moveTrims (w : PowerSt) (wanted : List Int) : PowerSt :=
  { w with vtrim := (natRange 0 4).map (fun d => (d, moveTrim (w.trim d) (wanted.getD d (w.trim d)))) }

theorem PowerSt.moveTrims_trim (w : PowerSt) {wanted : List Int} {d : Nat} {x : Int} (hd : d < 4) (hx : wanted[d]? = some x) :
    (w.moveTrims wanted).trim d = moveTrim (w.trim d) x := by
  rw [PowerSt.trim, PowerSt.moveTrims, tabGet_range _ _ hd, List.getD_eq_getElem?_getD, hx, Option.getD_some]

/-- The VTRIMs stepped, and each change of a die's limit logged (R532). -/
def State.moveTrims (s : State) (wanted : List Int) : State :=
  let t := { s with power := s.power.moveTrims wanted }
  ((natRange 0 4).filter (fun d => decide (s.power.dieOp d ≠ t.power.dieOp d))).foldl
    (fun s d => s.logCondition 4 1 0 (leBytes 1 d ++ leBytes 1 (s.power.dieOp d))) t

theorem State.moveTrims_power (s : State) (wanted : List Int) : (s.moveTrims wanted).power = s.power.moveTrims wanted := by
  unfold State.moveTrims
  dsimp only
  rw [foldl_keeps State.power (fun s d => s.logCondition_power 4 1 0 _)]

theorem execVtrimUpdate_moves {s : State} (h : s.hubRuns = true) (hf : s.power.freqMode ≠ 2) (wanted : List Int) :
    execVtrimUpdate wanted s = .next (s.moveTrims wanted).steer := by
  have hn : ¬ (s.power.freqMode = 2 ∨ (!s.hubRuns) = true) := by
    rw [h]
    exact fun h => h.elim hf Bool.false_ne_true
  exact if_neg hn

end Sys2Proof.Machine
end

section
/-! PROOF. Sensor rounds (R499, R534 to R536) and POWER_CAP_SET (R538, R539), and the obligation on power and temperature. -/

namespace Sys2Proof.Machine

-- the reading that a round gives a point

/-- A list whose keys are all different gives a key one entry. -/
theorem eq_of_key_eq {rs : List (Nat × Option Int)} (h : (rs.map (fun r => r.1)).Nodup) {a b : Nat × Option Int} (ha : a ∈ rs)
    (hb : b ∈ rs) (he : a.1 = b.1) : a = b := by
  induction rs with
  | nil => cases ha
  | cons r rs ih =>
    obtain ⟨hr, hn⟩ := List.nodup_cons.mp h
    have hne : ∀ {x : Nat × Option Int}, x ∈ rs → r.1 ≠ x.1 := fun hx e => hr (List.mem_map.mpr ⟨_, hx, e.symm⟩)
    obtain ha | ha := List.mem_cons.mp ha <;> obtain hb | hb := List.mem_cons.mp hb
    · exact ha.trans hb.symm
    · exact absurd (ha ▸ he) (hne hb)
    · exact absurd (hb ▸ he.symm) (hne ha)
    · exact ih hn ha hb

theorem roundReading_of_mem {rs : List (Nat × Option Int)} (h : (rs.map (fun r => r.1)).Nodup) {n : Nat} {v : Option Int}
    (hm : (n, v) ∈ rs) : roundReading rs n = v := by
  unfold roundReading
  cases hf : rs.reverse.find? (fun r => decide (r.1 = n)) with
  | none => exact absurd rfl (of_decide_eq_false (Bool.eq_false_iff.mpr (List.find?_eq_none.mp hf (n, v) (List.mem_reverse.mpr hm))))
  | some r =>
    have hr : r ∈ rs := List.mem_reverse.mp (List.mem_of_find?_eq_some hf)
    have hn : r.1 = n := of_decide_eq_true (List.find?_some hf :)
    exact congrArg Prod.snd (eq_of_key_eq h hr hm hn)

theorem roundReading_of_not_mem {rs : List (Nat × Option Int)} {n : Nat} (h : ∀ r ∈ rs, r.1 ≠ n) : roundReading rs n = none := by
  have hf : rs.reverse.find? (fun r => decide (r.1 = n)) = none :=
    List.find?_eq_none.mpr fun r hr => by rw [decide_eq_true_eq]; exact h r (List.mem_reverse.mp hr)
  simp only [roundReading, hf]

/-- The readings after a round. -/
def roundTemps (rs : List (Nat × Option Int)) : Tab (Option Int) := (natRange 0 tempPoints).map (fun n => (n, roundReading rs n))

theorem tabGet_roundTemps (rs : List (Nat × Option Int)) {n : Nat} (hn : n < 1076) : tabGet none (roundTemps rs) n = roundReading rs n :=
  tabGet_range none (roundReading rs) hn

/-- A round is taken: its readings and its number, and what is logged of the points that gave none. -/
theorem State.takeRound_noReports (s : State) (rs : List (Nat × Option Int)) : ∃ x : SensorSt, x.rounds = s.sensors.rounds + 1 ∧
    x.temps = roundTemps rs ∧ (s.takeRound rs).noReports = { s with sensors := x }.noReports := by
  unfold State.takeRound
  extract_lets x temps runs first stale u v
  refine ⟨u.sensors, rfl, rfl, ?_⟩
  rw [foldl_keeps State.noReports (fun s n => s.logCondition_noReports 4 2 0x8504 (leBytes 2 n)),
    foldl_keeps State.noReports (fun s n => s.logCondition_noReports 4 1 0 (leBytes 2 n))]

/-- The points at or above 110 degrees are noted, and reported where they newly are (R535). -/
def State.noteHot (s : State) : State :=
  let hot := (s.sensors.temps.map (fun e => e.1)).filter (fun n => s.anyHot [n] 110)
  let new := hot.filter (fun n => !hasNat s.sensors.hot110 n)
  new.foldl (fun s n => (s.logCondition 4 2 0x8505 (leBytes 2 n)).irqRaise 7) { s with sensors := { s.sensors with hot110 := hot } }

theorem State.roundActs_eq (s : State) : s.roundActs = s.noteHot.thermalRound.steer := rfl

theorem State.noteHot_noReports (s : State) :
    ∃ hot, s.noteHot.noReports = { s with sensors := { s.sensors with hot110 := hot } }.noReports := by
  unfold State.noteHot
  extract_lets hot new
  refine ⟨hot, ?_⟩
  rw [foldl_keeps State.noReports
    (fun s n => (State.irqRaise_noReports _ 7).trans (s.logCondition_noReports 4 2 0x8505 (leBytes 2 n)))]

-- what acting on a round keeps

@[simp] theorem State.thermalRound_sensors (s : State) : s.thermalRound.sensors = s.sensors := by
  have h := s.thermalRound_frame
  generalize s.thermalRound = t at h ⊢
  exact (congrArg State.sensors h :)

@[simp] theorem State.thermalRound_irq (s : State) : s.thermalRound.irq = s.irq := by
  have h := s.thermalRound_frame
  generalize s.thermalRound = t at h ⊢
  exact (congrArg State.irq h :)

@[simp] theorem State.steer_sensors (s : State) : s.steer.sensors = s.sensors := by
  have h := s.steer_frame
  generalize s.steer = t at h ⊢
  exact (congrArg State.sensors h :)

@[simp] theorem State.steer_irq (s : State) : s.steer.irq = s.irq := by
  have h := s.steer_frame
  generalize s.steer = t at h ⊢
  exact (congrArg State.irq h :)


/-- Acting on a round keeps its number, its readings and the interrupts' configuration. -/
theorem State.roundActs_keeps (s : State) : s.roundActs.sensors.rounds = s.sensors.rounds ∧
    s.roundActs.sensors.temps = s.sensors.temps ∧ s.roundActs.irq.cfg = s.irq.cfg := by
  obtain ⟨hot, h⟩ := s.noteHot_noReports
  rw [State.roundActs_eq, State.steer_sensors, State.steer_irq, State.thermalRound_sensors, State.thermalRound_irq]
  exact ⟨(congrArg (fun t : State => t.sensors.rounds) h :), (congrArg (fun t : State => t.sensors.temps) h :),
    (congrArg (fun t : State => t.irq.cfg) h :)⟩

/-- A cluster at its thermal maximum is steered to OP7 with gaps. -/
theorem State.steered_hot {s : State} {i : Nat} (h : (s.cl i).thermal = 8) : 7 ≤ (s.steered i).op ∧ 8 ≤ (s.steered i).gap := by
  simp only [State.steered, State.wantedOp, State.wantedGap, h, if_true]
  omega

/-- R534: a governing point at or above 110 degrees sends a cluster to OP7 with gaps. -/
theorem State.roundActs_hot {s : State} {i : Nat} (hi : i < 192) (h : s.anyHot (clusterPoints i) 110 = true) :
    (s.roundActs.cl i).thermal = 8 ∧ 7 ≤ (s.roundActs.cl i).op ∧ 8 ≤ (s.roundActs.cl i).gap := by
  obtain ⟨hot, hn⟩ := s.noteHot_noReports
  have ha : s.noteHot.anyHot (clusterPoints i) 110 = s.anyHot (clusterPoints i) 110 :=
    (congrArg (State.anyHot · (clusterPoints i) 110) hn :)
  have ht := State.thermalRound_hot hi (ha.trans h)
  rw [State.roundActs_eq, State.steer_cl _ hi]
  generalize s.noteHot.thermalRound = u at ht ⊢
  exact ⟨ht, State.steered_hot ht⟩

/-- A round's reading at or above 110 degrees counts against its cluster. -/
theorem State.takeRound_anyHot {s : State} {rs : List (Nat × Option Int)} {n : Nat} {x : Int} (hn : n < 768)
    (hs : (s.clEntry (n / 4)).inService = true) (hr : roundReading rs n = some x) (hx : 110 * 64 ≤ x) :
    (s.takeRound rs).anyHot (clusterPoints (n / 4)) 110 = true := by
  obtain ⟨y, _, ht, hk⟩ := s.takeRound_noReports rs
  have ha : (s.takeRound rs).anyHot (clusterPoints (n / 4)) 110 = { s with sensors := y }.anyHot (clusterPoints (n / 4)) 110 :=
    (congrArg (State.anyHot · (clusterPoints (n / 4)) 110) hk :)
  have hp : ({ s with sensors := y } : State).pointAbsent n = false := by
    rw [Claim.pointAbsent_eq, State.clEntry]
    rw [State.clEntry] at hs
    rw [hs, Bool.not_true, Bool.and_false]
  have hm : ({ s with sensors := y } : State).sampled n = true := by
    rw [State.sampled, ht, roundTemps, tabFind_range, if_pos ⟨Nat.zero_le n, by unfold tempPoints; omega⟩, Option.isSome_some]
  have hv : ({ s with sensors := y } : State).reading n = some x := by
    rw [State.reading, hp, if_neg Bool.false_ne_true, ht, tabGet_roundTemps rs (by omega), hr]
  rw [ha]
  exact State.anyHot_of_reading (mem_clusterPoints n) hm hv hx

-- POWER_CAP_SET (R538, R539)

/-- The power's state once a cap and a mode are set by a channel (R538, R539, R543). -/
def PowerSt.setCap (w : PowerSt) (ch cap mode : Nat) : PowerSt :=
  let n := if ch = 4 then { w with bcCap := cap } else { w with pmCap := cap }
  let n := if w.effective < n.effective then { n with capUnmet := false, capOver := 0 } else n
  if mode = 0 then n else { n with freqMode := mode, vtrim := if mode = 2 then [] else n.vtrim }

theorem PowerSt.setCap_fields (w : PowerSt) (ch cap mode : Nat) :
    (w.setCap ch cap mode).bcCap = (if ch = 4 then cap else w.bcCap) ∧ (w.setCap ch cap mode).pmCap = (if ch = 4 then w.pmCap else cap) ∧
    (w.setCap ch cap mode).freqMode = (if mode = 0 then w.freqMode else mode) ∧ (mode = 2 → (w.setCap ch cap mode).vtrim = []) ∧
    (w.setCap ch cap mode).level = w.level := by
  unfold PowerSt.setCap
  extract_lets n n'
  have hn : n'.bcCap = n.bcCap ∧ n'.pmCap = n.pmCap ∧ n'.freqMode = n.freqMode ∧ n'.level = n.level := by
    dsimp only [n']
    split <;> exact ⟨rfl, rfl, rfl, rfl⟩
  obtain ⟨hb, hp, hf, hl⟩ := hn
  have hc : n.bcCap = (if ch = 4 then cap else w.bcCap) ∧ n.pmCap = (if ch = 4 then w.pmCap else cap) ∧ n.freqMode = w.freqMode ∧
      n.level = w.level := by
    dsimp only [n]
    split <;> exact ⟨rfl, rfl, rfl, rfl⟩
  obtain ⟨hcb, hcp, hcf, hcl⟩ := hc
  by_cases hm : mode = 0
  · rw [if_pos hm, if_pos hm]
    exact ⟨hb.trans hcb, hp.trans hcp, hf.trans hcf, fun h => by omega, hl.trans hcl⟩
  · rw [if_neg hm, if_neg hm]
    exact ⟨hb.trans hcb, hp.trans hcp, rfl, fun h => if_pos h, hl.trans hcl⟩

/-- The state once a cap and a mode are set: a mode named again steers the clusters. -/
def State.setCap (s : State) (ch cap mode : Nat) : State :=
  let t := { s with power := s.power.setCap ch cap mode }
  if mode = 0 then t else t.steer

/-- Setting a cap and a mode changes nothing but clusters and power. -/
theorem State.setCap_frame (s : State) (ch cap mode : Nat) : { s.setCap ch cap mode with clusters := s.clusters, power := s.power } = s := by
  unfold State.setCap
  dsimp only
  split
  · rfl
  · have h := State.steer_frame { s with power := s.power.setCap ch cap mode }
    generalize State.steer _ = t at h ⊢
    exact (congrArg (fun t : State => { t with power := s.power }) h :)

/-- Of power it sets the cap and the mode, and the rails follow. -/
theorem State.setCap_power (s : State) (ch cap mode : Nat) :
    { (s.setCap ch cap mode).power with rails := s.power.rails } = { s.power.setCap ch cap mode with rails := s.power.rails } := by
  unfold State.setCap
  dsimp only
  split
  · rfl
  · have h := State.steer_power { s with power := s.power.setCap ch cap mode }
    generalize State.steer _ = t at h ⊢
    exact (congrArg (fun w : PowerSt => { w with rails := s.power.rails }) h :)

@[simp] theorem State.refuse_power (s : State) (ch code : Nat) : (s.refuse ch code).power = s.power := by
  unfold State.refuse
  dsimp only
  generalize hv : s.logEntry _ _ _ _ _ _ = v
  have hl : v.power = s.power := by rw [← hv, State.logEntry_power]
  exact (congrArg State.power (v.reply_frame ch (statusOf code) code []) :).trans hl

/-- What POWER_CAP_SET does, once accepted. -/
def State.powerCapRun (ch : Fin 5) (s : State) (b : List Byte) : State :=
  match powerCapCode ch b with
  | some c => s.refuse ch c
  | none => (s.setCap ch (par b 0 4) (par b 4 1)).done ch []

theorem execPowerCapSet_eq (ch : Fin 5) (pkt : List Byte) (s : State) :
    exec (.powerCapSet ch pkt) s = .next (s.admCommand ch pkt (isOp 0x0006) (State.powerCapRun ch)) := rfl

end Sys2Proof.Machine
end

section
/-! PROOF. The obligation on power and temperature, clause by clause. -/

namespace Sys2Proof.Claim

open Sys2Proof.Machine

-- POWER_CAP_SET

/-- POWER_CAP_SET is refused with its code, and leaves power as it was. -/
theorem Admitted.powerCapSet_refused {s : State} {ch : Fin 5} {pkt : List Byte} (h : Admitted s ch pkt)
    (ho : pktOp (chanPacket ch pkt) = 0x0006) {c : Nat} (hc : powerCapCode ch (chanPacket ch pkt) = some c) :
    ∃ t, exec (.powerCapSet ch pkt) s = .next t ∧ Refused s t ch (chanPacket ch pkt) c ∧ t.power = s.power := by
  have hs := s.admStart_same ch (chanPacket ch pkt)
  have hp : (s.admStart ch (chanPacket ch pkt)).power = s.power := (congrArg State.power hs :)
  refine ⟨_, execPowerCapSet_eq ch pkt s, ?_⟩
  rw [h.command (mine := isOp 0x0006) _ (beq_iff_eq.mpr ho) (deviceBusyOp_false (ho ▸ by decide))]
  simp only [State.powerCapRun, hc]
  exact ⟨(Unanswered.start s ch _).refused (congrArg State.parts hs :) (congrArg State.pool hs :) (congrArg State.kv hs :) c,
    (State.refuse_power _ ch c).trans hp⟩

/-- POWER_CAP_SET is done: the cap and the mode are set. -/
theorem Admitted.powerCapSet_done {s : State} {ch : Fin 5} {pkt : List Byte} (h : Admitted s ch pkt)
    (ho : pktOp (chanPacket ch pkt) = 0x0006) (hc : powerCapCode ch (chanPacket ch pkt) = none) :
    ∃ t, exec (.powerCapSet ch pkt) s = .next t ∧ Done s t ch (chanPacket ch pkt) [] ∧
      { t.power with rails := s.power.rails } =
        { s.power.setCap ch (par (chanPacket ch pkt) 0 4) (par (chanPacket ch pkt) 4 1) with rails := s.power.rails } := by
  have hu := Unanswered.start s ch (chanPacket ch pkt)
  have hp : (s.admStart ch (chanPacket ch pkt)).power = s.power := (congrArg State.power (s.admStart_same ch (chanPacket ch pkt)) :)
  refine ⟨_, execPowerCapSet_eq ch pkt s, ?_⟩
  rw [h.command (mine := isOp 0x0006) _ (beq_iff_eq.mpr ho) (deviceBusyOp_false (ho ▸ by decide))]
  simp only [State.powerCapRun, hc]
  generalize s.admStart ch (chanPacket ch pkt) = u at hu hp ⊢
  have hf := u.setCap_frame ch (par (chanPacket ch pkt) 0 4) (par (chanPacket ch pkt) 4 1)
  have hw := u.setCap_power ch (par (chanPacket ch pkt) 0 4) (par (chanPacket ch pkt) 4 1)
  generalize u.setCap ch _ _ = v at hf hw ⊢
  have hr : (v.done ch []).power = v.power := (congrArg State.power (v.reply_frame ch 0 0 []) :)
  refine ⟨(hu.of_eq (v := v) (congrArg State.adm hf :) (congrArg State.bc hf :) (congrArg State.fuses hf :)).replied 0 0 [], ?_⟩
  rw [hr, ← hp]
  exact hw

/-- R538: the checks of POWER_CAP_SET in their order. -/
theorem powerCapCode_eq {ch : Nat} {p : List Byte} (hz : parZero p 5 3 = true) : powerCapCode ch p =
    if 2 < par p 4 1 then some 0x0005 else if par p 4 1 ≠ 0 ∧ ch = 4 then some 0x0010 else if 4400 < par p 0 4 then some 0x0502
    else if par p 0 4 ≠ 0 ∧ par p 0 4 < 920 then some 0x0501 else none := by
  unfold powerCapCode
  rw [hz]
  rfl

/-- R538, R539: the checks of POWER_CAP_SET in their order, and what it sets. -/
theorem powerCapSet_acts {s : State} {ch : Fin 5} {pkt : List Byte} (h : Admitted s ch pkt) :
    let p := chanPacket ch pkt
    let cap := par p 0 4
    let mode := par p 4 1
    pktOp p = 0x0006 → parZero p 5 3 = true →
      (2 < mode → ∃ t, exec (.powerCapSet ch pkt) s = .next t ∧ Refused s t ch p 0x0005 ∧ t.power = s.power) ∧
      (1 ≤ mode → mode ≤ 2 → ch.val = 4 → ∃ t, exec (.powerCapSet ch pkt) s = .next t ∧ Refused s t ch p 0x0010 ∧ t.power = s.power) ∧
      (mode ≤ 2 → (mode = 0 ∨ ch.val ≠ 4) →
        (4400 < cap → ∃ t, exec (.powerCapSet ch pkt) s = .next t ∧ Refused s t ch p 0x0502 ∧ t.power = s.power) ∧
        (0 < cap → cap < 920 → ∃ t, exec (.powerCapSet ch pkt) s = .next t ∧ Refused s t ch p 0x0501 ∧ t.power = s.power) ∧
        ((cap = 0 ∨ 920 ≤ cap ∧ cap ≤ 4400) → ∃ t, exec (.powerCapSet ch pkt) s = .next t ∧ Done s t ch p [] ∧
          t.power.bcCap = (if ch.val = 4 then cap else s.power.bcCap) ∧ t.power.pmCap = (if ch.val = 4 then s.power.pmCap else cap) ∧
          t.power.freqMode = (if mode = 0 then s.power.freqMode else mode) ∧ (mode = 2 → ∀ d, t.power.trim d = 0) ∧
          t.power.level = s.power.level)) := by
  intro p cap mode ho hz
  have hc := powerCapCode_eq (ch := ch) hz
  refine ⟨fun hm => h.powerCapSet_refused ho (hc.trans (if_pos hm)), fun h1 hm h4 => h.powerCapSet_refused ho (hc.trans ?_), fun hm hs => ?_⟩
  · rw [if_neg (Nat.not_lt.mpr hm), if_pos ⟨Nat.ne_of_gt h1, h4⟩]
  rw [if_neg (Nat.not_lt.mpr hm), if_neg (by omega)] at hc
  refine ⟨fun ht => h.powerCapSet_refused ho (hc.trans (if_pos ht)), fun h0 hl => h.powerCapSet_refused ho (hc.trans ?_), fun hr => ?_⟩
  · rw [if_neg (by omega), if_pos ⟨Nat.ne_of_gt h0, hl⟩]
  rw [if_neg (by omega), if_neg (by omega)] at hc
  obtain ⟨t, he, hd, hw⟩ := h.powerCapSet_done ho hc
  obtain ⟨hb, hp, hf, hv, hl⟩ := s.power.setCap_fields ch cap mode
  refine ⟨t, he, hd, (congrArg PowerSt.bcCap hw :).trans hb, (congrArg PowerSt.pmCap hw :).trans hp, (congrArg PowerSt.freqMode hw :).trans hf,
    fun h2 d => ?_, (congrArg PowerSt.level hw :).trans hl⟩
  rw [PowerSt.trim, (congrArg PowerSt.vtrim hw :).trans (hv h2), tabGet]

-- the power loop and samples

/-- R541, R544: an interval of the power loop. -/
theorem powerLoopStep_acts {s : State} (estimate : Nat) {m : Nat} (h : s.hubRuns = true) (hw : s.power.window.getLast? = some m)
    (hl : s.power.level ≤ 22) : ∃ t,
    exec (.powerLoopStep estimate) s = .next t ∧ t.power.estimate = estimate ∧ t.power.level ≤ 22 ∧
    (let c := t.power.controlled
     let target := t.power.effective * (100 - c.2) * 10
     (target < c.1 * 100 → t.power.level = min 22 (s.power.level + 1) ∧ t.power.under = 0) ∧
     (c.1 * 100 ≤ target → target * 95 ≤ c.1 * 10000 → t.power.level = s.power.level ∧ t.power.under = 0) ∧
     (c.1 * 10000 < target * 95 → s.power.under + 1 < 100 → t.power.level = s.power.level ∧ t.power.under = s.power.under + 1) ∧
     (c.1 * 10000 < target * 95 → 100 ≤ s.power.under + 1 → t.power.level = s.power.level - 1 ∧ t.power.under = 0)) ∧
    (5000 ≤ m → s.power.implausible = false → s.power.untrusted = false → s.power.differ < 999 →
      t.power.controlled = (max estimate m, 3)) ∧
    (m < 5000 → t.power.implausible = true ∧ t.power.controlled = (estimate * 115 / 100, 10)) := by
  obtain ⟨r, hr⟩ := s.powerStep_power estimate
  refine ⟨s.powerStep estimate, next_whileUp_up h _, ?_⟩
  rw [hr]
  exact ⟨s.power.loopStep_estimate estimate, PowerSt.loopStep_le hl estimate, s.power.loopStep_level estimate,
    fun hm hi hu hd => PowerSt.loopStep_plausible hw hm hi hu hd estimate, fun hm => PowerSt.loopStep_implausible hw hm estimate⟩

/-- R530, R545: a sample of the rails. -/
theorem railSample_acts {s : State} (rails : List RailReading) (h : s.hubRuns = true) : ∃ t,
    exec (.railSample rails) s = .next t ∧ t.sensors.rails = rails ∧ s.power.energyUj ≤ t.power.energyUj ∧
    (∀ r, rails[11]? = some r → s.power.implausible = false → t.power.energyUj = s.power.energyUj + r.power ∧
      t.power.window.getLast? = some r.power) ∧
    { t with sensors := s.sensors, power := s.power } = s := by
  obtain ⟨he, hg⟩ := s.railSample_power rails
  refine ⟨s.railSample rails, next_whileUp_up h _, rfl, by rw [he]; exact Nat.le_add_right .., fun r hr hi => ?_, rfl⟩
  have hp : inputPower rails = r.power := by simp only [inputPower, hr]
  rw [he, hg, hp, hi, if_neg Bool.false_ne_true]
  exact ⟨rfl, rfl⟩

-- VTRIM and rails

/-- R531: a step of VTRIM, and the clusters steered by the limits that it leaves. -/
theorem vtrimUpdate_acts {s : State} (wanted : List Int) (h : s.hubRuns = true) (hf : s.power.freqMode ≠ 2) : ∃ t,
    exec (.vtrimUpdate wanted) s = .next t ∧
    (∀ d w, d < 4 → wanted[d]? = some w → -12 ≤ s.power.trim d → s.power.trim d ≤ 6 →
      t.power.trim d = (if s.power.trim d < w ∧ s.power.trim d < 6 then s.power.trim d + 1
        else if w < s.power.trim d ∧ -12 < s.power.trim d then s.power.trim d - 1 else s.power.trim d)) ∧
    ∀ i, i < 192 → t.wantedOp i ≤ (t.cl i).op := by
  refine ⟨_, execVtrimUpdate_moves h hf wanted, fun d w hd hx hl hu => ?_, fun i hi => State.wantedOp_le_op_steer _ hi⟩
  have hp := s.moveTrims_power wanted
  generalize s.moveTrims wanted = u at hp ⊢
  have ht : u.steer.power.trim d = u.power.trim d := by
    have h := u.steer_power
    generalize u.steer = t at h ⊢
    exact (congrArg (PowerSt.trim · d) h :)
  rw [ht, hp, PowerSt.moveTrims_trim _ hd hx, moveTrim_eq w hl hu]

/-- R527: the clusters of a die whose rail has settled take the OP they wait for. -/
theorem railSettled_acts {s : State} (d : Fin 4) (h : s.hubRuns = true) : ∃ t,
    exec (.railSettled d) s = .next t ∧ { t with clusters := s.clusters } = s ∧
    (∀ i, i < 192 → i / 48 = d.val → ∀ op, (s.cl i).pendingOp = some op → (t.cl i).op = op ∧ (t.cl i).pendingOp = none) ∧
    (∀ i, (48 ≤ i - 48 * d.val ∨ i < 48 * d.val ∨ (s.cl i).pendingOp = none) → t.cl i = s.cl i) := by
  have hin : ∀ i, 48 * d.val ≤ i → i < 48 * d.val + 48 →
      ((natRange (48 * d.val) 48).foldl State.takeOpAt s).cl i = (s.cl i).takeOp := fun i ha hn => takeOpAt_step.foldl_cl ha hn s
  refine ⟨(natRange (48 * d.val) 48).foldl State.takeOpAt s, next_whileUp_up h _,
    takeOpAt_step.foldl_frame _ s, fun i _ hd op ho => ?_, fun i hi => ?_⟩
  · rw [hin i (by omega) (by omega)]
    simp only [ClusterSt.takeOp, ho, and_self]
  · by_cases hr : 48 * d.val ≤ i ∧ i < 48 * d.val + 48
    · have ho : (s.cl i).pendingOp = none := by
        obtain h | h | h := hi
        · omega
        · omega
        · exact h
      rw [hin i hr.1 hr.2]
      simp only [ClusterSt.takeOp, ho]
    · exact takeOpAt_step.foldl_other (by omega) s

-- temperature

/-- R499, R534: a round of the sensors. -/
theorem sensorRound_acts {s : State} {rs : List (Nat × Option Int)} (h : s.hubRuns = true) (hd : (rs.map (fun r => r.1)).Nodup) : ∃ t,
    exec (.sensorRound rs) s = .next t ∧
    t.sensors.rounds = s.sensors.rounds + 1 ∧ t.irq.cfg = s.irq.cfg ∧
    (∀ n v, (n, v) ∈ rs → n < 1076 → tabGet none t.sensors.temps n = v) ∧
    (∀ n, n < 1076 → (∀ r ∈ rs, r.1 ≠ n) → tabGet none t.sensors.temps n = none) ∧
    (∀ n x, (n, some x) ∈ rs → n < 768 → (s.clEntry (n / 4)).inService = true → 110 * 64 ≤ x →
      (t.cl (n / 4)).thermal = 8 ∧ 7 ≤ (t.cl (n / 4)).op ∧ 8 ≤ (t.cl (n / 4)).gap) := by
  obtain ⟨x, hr, ht, hk⟩ := s.takeRound_noReports rs
  have hkr : (s.takeRound rs).sensors = x := (congrArg State.sensors hk :)
  have hkc : (s.takeRound rs).irq.cfg = s.irq.cfg := (congrArg (fun t : State => t.irq.cfg) hk :)
  have hi := (s.takeRound rs).roundActs.irqRaise_noReports 6
  refine ⟨((s.takeRound rs).roundActs).irqRaise 6, next_whileUp_up h _, ?_⟩
  have hhot : ∀ i, i < 192 → (s.takeRound rs).anyHot (clusterPoints i) 110 = true → ((s.takeRound rs).roundActs.cl i).thermal = 8 ∧
      7 ≤ ((s.takeRound rs).roundActs.cl i).op ∧ 8 ≤ ((s.takeRound rs).roundActs.cl i).gap := fun i => State.roundActs_hot
  obtain ⟨hrounds, htemps, hcfg⟩ := (s.takeRound rs).roundActs_keeps
  generalize (s.takeRound rs).roundActs = a at hi hhot htemps hrounds hcfg ⊢
  have hs : (a.irqRaise 6).sensors = a.sensors := (congrArg State.sensors hi :)
  have hcl : ∀ i, (a.irqRaise 6).cl i = a.cl i := fun i => (congrArg (State.cl · i) hi :)
  rw [hs, hrounds, htemps, State.irqRaise_cfg, hcfg, hkr, hr, ht, hkc]
  refine ⟨rfl, rfl, fun n v hm hn => ?_, fun n hn hm => ?_, fun n v hm hn hc hv => ?_⟩
  · rw [tabGet_roundTemps rs hn, roundReading_of_mem hd hm]
  · rw [tabGet_roundTemps rs hn, roundReading_of_not_mem hm]
  · rw [hcl]
    exact hhot (n / 4) (by omega) (State.takeRound_anyHot hn hc (roundReading_of_mem hd hm) hv)

/-- R534: a step of the thermal limits down. -/
theorem thermalStepDown_acts {s : State} (h : s.hubRuns = true) : ∃ t,
    exec .thermalStepDown s = .next t ∧ (∀ i, i < 192 → t.wantedOp i ≤ (t.cl i).op) ∧
    ∀ i, i < 192 → (t.cl i).thermal =
      (if s.anyHot (clusterPoints i) 100 ∧ (s.cl i).thermal < 7 then (s.cl i).thermal + 1 else (s.cl i).thermal) := by
  refine ⟨_, next_whileUp_up h _, fun i hi => State.wantedOp_le_op_steer _ hi, fun i hi => ?_⟩
  rw [State.steer_thermal _ hi]
  refine (congrArg ClusterSt.thermal (stepDownAt_step.foldl_cl (Nat.zero_le i) (n := 192) (by omega) s)).trans ?_
  simp only [Bool.and_eq_true, decide_eq_true_eq]
  split <;> rfl

/-- R535: a step of the thermal limits back. -/
theorem thermalStepBack_acts {s : State} (h : s.hubRuns = true) : ∃ t,
    exec .thermalStepBack s = .next t ∧ ∀ i, i < 192 → (t.cl i).thermal =
      (if 0 < (s.cl i).thermal ∧ s.anyHot (clusterPoints i) 97 = false then (s.cl i).thermal - 1 else (s.cl i).thermal) := by
  refine ⟨((natRange 0 20).foldl State.freeStack ((natRange 0 192).foldl State.stepBackAt s)).steer,
    next_whileUp_up h _, fun i hi => ?_⟩
  rw [State.steer_thermal _ hi, State.cl_of_noChannels (foldl_keeps State.noChannels State.freeStack_noChannels (natRange 0 20) _),
    stepBackAt_step.foldl_cl (Nat.zero_le i) (by omega)]
  simp only [State.allCool, Bool.and_eq_true, decide_eq_true_eq, Bool.not_eq_true']
  split <;> rfl

-- the hub in reset, or without its clock

/-- R537, R554, R556: nothing of this while the hub does not run. -/
theorem power_idle {s : State} {c : Instr} (h : s.hubRuns = false)
    (hc : (∃ n, c = .powerLoopStep n) ∨ (∃ r, c = .railSample r) ∨ (∃ w, c = .vtrimUpdate w) ∨ (∃ d, c = .railSettled d) ∨
      (∃ r, c = .sensorRound r) ∨ c = .thermalStepDown ∨ c = .thermalStepBack) : exec c s = .next s := by
  obtain ⟨_, rfl⟩ | ⟨_, rfl⟩ | ⟨_, rfl⟩ | ⟨_, rfl⟩ | ⟨_, rfl⟩ | rfl | rfl := hc
  · exact next_whileUp_down h _
  · exact next_whileUp_down h _
  · exact if_pos (.inr (by rw [h]; rfl))
  · exact next_whileUp_down h _
  · exact next_whileUp_down h _
  · exact next_whileUp_down h _
  · exact next_whileUp_down h _

/-- Settles O48: what each operation does to power, to the clusters and to the sensors, from the rules of its parts. -/
theorem powerAndTemperature : Obligations.PowerAndTemperature := by
  unfold Obligations.PowerAndTemperature
  exact ⟨fun _ _ _ h => powerCapSet_acts h, fun _ estimate _ h hw hl => powerLoopStep_acts estimate h hw hl,
    fun _ rails h => railSample_acts rails h, fun _ _ hf => if_pos (.inl hf), fun _ wanted h hf => vtrimUpdate_acts wanted h hf, fun _ d h => railSettled_acts d h,
    fun _ _ h hd => sensorRound_acts h hd, fun _ h => thermalStepDown_acts h, fun _ h => thermalStepBack_acts h, fun _ _ h hc => power_idle h hc⟩

end Sys2Proof.Claim
end
